-- ==== Sys2Proof/Word.lean ====
section
/-! DEFINITION. The plain words of the ICD-4A and the notions of signed and unsigned value that every rule uses (R8, R354). -/
namespace Sys2Proof

/-- One byte of any memory. -/
abbrev Byte := BitVec 8

/-- A scalar register or one lane of a vector register (R8, R241). -/
abbrev Word := BitVec 32

/-- A scalar pair, an address before it is checked, or one 64-bit register. -/
abbrev Dword := BitVec 64

end Sys2Proof
end

