-- ==== Sys2Proof/Syntax.lean ====
section
/-! DEFINITION. The instructions of the Forsal instruction set (R340 to R369) and the hardware events of the package
(the steps that spec/95 names), as ONE inductive with one constructor for each row of spec/opcode_table.json. -/
namespace Sys2Proof

/-- The element types of R350, in the order of their type4 codes. -/
inductive Ty where
  | f32 | f16 | bf16 | e4m3 | e5m2 | e2m1 | i32 | n32 | i16 | n16 | i8 | n8 | i4 | n4 | e8m0 | b32
  deriving DecidableEq, Repr

/-- CMP conditions (R365, R380). -/
inductive CmpCond where | eq | ne | lt | ge | ltn | gen
  deriving DecidableEq, Repr

/-- BR conditions (R365, R383). -/
inductive BrCond where | eqz | nez | ltz | gez | gtz | lez
  deriving DecidableEq, Repr

/-- BRM conditions (R365, R383). -/
inductive BrmCond where | any | all | none | nall
  deriving DecidableEq, Repr

/-- VCMP conditions (R369, R407). -/
inductive VcmpCond where | eq | ne | lt | le | gt | ge
  deriving DecidableEq, Repr

/-- VFCMP conditions (R369, R407). -/
inductive VfcmpCond where | eq | ne | lt | le | gt | ge | un | ord | lts | les | gts | ges
  deriving DecidableEq, Repr

/-- The operations of atomics (R434). VRED, VSCAN, RED and VREDM take the first six. -/
inductive AtomOp where | add | min | max | and | or | xor | exch | cas
  deriving DecidableEq, Repr

/-- The six in-flight counters of a context (R262). -/
inductive Ctr where | gld | gst | scr | cpy | mtx | svc
  deriving DecidableEq, Repr

/-- A mask operand: mask register 0 to 7, and whether it is inverted (R344, R347). -/
structure MaskOp where
  k : Nat
  inv : Bool
  deriving DecidableEq, Repr

/-- An ordering modifier: the ordering code of R278 and the scope of R277. -/
structure MemOrd where
  code : Nat
  scope : Nat
  deriving DecidableEq, Repr

/-- How a scratch access names its lanes: base and displacement, or the .v form (R420, R423). -/
inductive SMem where
  | disp (off : BitVec 16)
  | vec (k : MaskOp) (b scale : Nat)
  deriving DecidableEq, Repr

/-- A shift amount: a vector register, or the immediate form (R406). -/
inductive ShAmt where
  | reg (b : Nat)
  | imm (n : Nat)
  deriving DecidableEq, Repr

/-- The mode of VSHUF (R410). -/
inductive ShufMode where
  | idx (b : Nat)
  | xor (n : Nat)
  | up (n : Nat)
  | down (n : Nat)
  deriving DecidableEq, Repr

/-- The form of VLANE (R410). -/
inductive LaneForm where
  | get (d a b : Nat)
  | put (d a b : Nat)
  | id (k : MaskOp) (d : Nat)
  deriving DecidableEq, Repr

/-- The second operand of MAND, MOR and MXOR: a mask register, or a scalar in the .s form (R418). -/
inductive MaskSrc where
  | m (n : Nat)
  | s (n : Nat)
  deriving DecidableEq, Repr

/-- A thread packet (R211, R212): the header fields, s0 to s9 and `pw`. -/
structure Packet where
  lidx : Nat
  thread : Nat
  seq : Nat
  opkg : Nat
  otile : Nat
  tv : Bool
  tslot : Nat
  rpc : BitVec 24
  res : Bool
  cls : Nat
  dkind : Bool
  dest : Nat
  s : List Word
  pw : Word
  deriving DecidableEq, Repr

/-- The units of a node that a message names (R43): a tile or its slice by logical tile number, the edge units by die and
index, and a mesh-extension port by package port number. -/
inductive Place where
  | tile (t : Nat)
  | slice (t : Nat)
  | memctl (die c : Nat)
  | service (die u : Nat)
  | pcie (die : Nat)
  | port (p : Nat)
  | mgmt (die : Nat)
  deriving DecidableEq, Repr

/-- A location an access names (R76, R69): a device-memory byte by its channel key and physical address, a byte of system
memory or of a peer behind a port, or a scratch byte of a tile. -/
inductive Loc where
  | dev (key a : Nat)
  | host (port a : Nat)
  | peer (port a : Nat)
  | scr (tile off : Nat)
  deriving DecidableEq, Repr

/-- A packet of zeros. -/
def Packet.init : Packet :=
  { lidx := 0, thread := 0, seq := 0, opkg := 0, otile := 0, tv := false, tslot := 0, rpc := 0, res := false, cls := 0,
    dkind := false, dest := 0, s := [], pw := 0 }

/-- What a hardware event concerns: the operands of its row, each event using those it names.  An instruction of a thread has
its operands in its word and its issuer in `State.cur`; an event has them here. -/
structure Arg where
  /-- Die, logical tile, context, unit of a die, port, mesh link, virtual channel and traffic class. -/
  die : Nat := 0
  tile : Nat := 0
  ctx : Nat := 0
  unit : Nat := 0
  port : Nat := 0
  link : Nat := 0
  vc : Nat := 0
  cls : Nat := 0
  /-- Dispatch sequence number. -/
  seq : Nat := 0
  /-- Queue, index in it, launch index, segment, transaction slot and generation. -/
  q : Nat := 0
  idx : Nat := 0
  lidx : Nat := 0
  seg : Nat := 0
  slot : Nat := 0
  gen : Nat := 0
  /-- Number of an operation, message, copy or service request. -/
  id : Nat := 0
  /-- The lanes of an operation that an answer is for, a bit each. -/
  lanes : Nat := 0
  /-- Line (address / 64), requesting die, tokens, and the flags of a coherence message. -/
  line : Nat := 0
  req : Nat := 0
  tok : Nat := 0
  own : Bool := false
  last : Bool := false
  write : Bool := false
  ok : Bool := false
  /-- Address space, virtual page and access kind of a translation. -/
  asid : Nat := 0
  vpn : Nat := 0
  acc : Nat := 0
  /-- Register offset or scratch offset, width in bytes, and the value written. -/
  off : Nat := 0
  width : Nat := 0
  val : Nat := 0
  /-- The thread that asks: tile and context. -/
  who : Nat × Nat := (0, 0)
  /-- Failed bring-up steps: step and unit. -/
  fails : List (Nat × Nat) := []
  words : List Word := []
  data : List Byte := []
  packet : Packet := Packet.init
  deriving DecidableEq, Repr

/-- Every instruction of the Forsal set and every hardware event of the package: one constructor for each row of
spec/opcode_table.json. -/
inductive Instr where
  -- 16-bit aliases (R362): r is field [10:6], s or k or i is field [15:11]
  | add16 (r s : Nat) | sub16 (r s : Nat) | and16 (r s : Nat) | or16 (r s : Nat) | xor16 (r s : Nat)
  | shl16 (r s : Nat) | shr16 (r s : Nat) | sra16 (r s : Nat) | mul16 (r s : Nat) | min16 (r s : Nat)
  | max16 (r s : Nat) | slt16 (r s : Nat) | addSz16 (r s : Nat)
  | addi16 (r : Nat) (i : BitVec 5) | addiSz16 (r : Nat) (i : BitVec 5) | andi16 (r : Nat) (i : BitVec 5)
  | shli16 (r i : Nat) | shri16 (r i : Nat) | srai16 (r i : Nat) | slti16 (r : Nat) (i : BitVec 5)
  | kget16 (r k : Nat) | kset16 (r k : Nat) | clz16 (r s : Nat) | popc16 (r s : Nat)
  | nop16 | yield16 | exit16 | bkpt16 | uiret16 | ret16
  -- 32-bit forms (R363 to R366)
  | add (d a b : Nat) | sub (d a b : Nat) | and (d a b : Nat) | or (d a b : Nat) | xor (d a b : Nat)
  | shl (d a b : Nat) | shr (d a b : Nat) | sra (d a b : Nat) | mul (d a b : Nat) | mulh (d a b : Nat)
  | mulhn (d a b : Nat) | div (d a b : Nat) | divn (d a b : Nat) | rem (d a b : Nat) | remn (d a b : Nat)
  | min (d a b : Nat) | max (d a b : Nat) | minn (d a b : Nat) | maxn (d a b : Nat) | slt (d a b : Nat)
  | sltn (d a b : Nat) | clz (d a : Nat) | popc (d a : Nat) | brev (d a : Nat)
  | add64 (d a b : Nat) | sub64 (d a b : Nat) | shl64 (d a b : Nat) | lea (d a b scale : Nat)
  | sel (d c a b : Nat) | mad64 (d a b c : Nat) | bfx (d a pos width : Nat) | bfi (d a pos width : Nat)
  | cmp (c : CmpCond) (d a b : Nat) | pand (d a b : Nat) | por (d a b : Nat) | pnot (d a : Nat)
  | addi (d a : Nat) (i : BitVec 12) | andi (d a : Nat) (i : BitVec 12) | ori (d a : Nat) (i : BitVec 12)
  | xori (d a : Nat) (i : BitVec 12) | slti (d a : Nat) (i : BitVec 12)
  | shli (d a n : Nat) | shri (d a n : Nat) | srai (d a n : Nat)
  | addi64 (d a : Nat) (i : BitVec 12) | lui (d : Nat) (i : BitVec 18)
  | br (c : BrCond) (a : Nat) (off : BitVec 14) | brp (f : Bool) (a : Nat) (off : BitVec 14)
  | brm (c : BrmCond) (a : Nat) (off : BitVec 14) | vbr (f u : Bool) (a : Nat) (off : BitVec 14)
  | jmp (off : BitVec 24) | call (off : BitVec 24)
  | kget (d k : Nat) | kset (k a : Nat) | ctlr (d n : Nat) | ctlw (n a : Nat) | ctls (n a : Nat) | ctlc (n a : Nat)
  | trap (code : Nat) | svc (fn : Nat) | qgive (d j : Nat) | qtake (d j : Nat) | gjoin (d n : Nat) | gleave (d : Nat)
  | nop | yield | exit | bkpt | uiret | ret | jr (a : Nat) | vreconv | resume
  -- 64-bit forms (R367): scalar immediate and vector (R397)
  | li (d : Nat) (i : Word)
  | vadd (t : Ty) (rm : Nat) (k : MaskOp) (d a b : Nat) | vsub (t : Ty) (rm : Nat) (k : MaskOp) (d a b : Nat)
  | vmul (t : Ty) (rm : Nat) (k : MaskOp) (d a b : Nat) | vmin (t : Ty) (k : MaskOp) (d a b : Nat)
  | vfma (t : Ty) (rm : Nat) (k : MaskOp) (d a b c : Nat) | vmax (t : Ty) (k : MaskOp) (d a b : Nat)
  | vabs (t : Ty) (k : MaskOp) (d a : Nat) | vneg (t : Ty) (k : MaskOp) (d a : Nat)
  | vrcp (rm : Nat) (k : MaskOp) (d a : Nat) | vrsq (rm : Nat) (k : MaskOp) (d a : Nat)
  | vsqrt (rm : Nat) (k : MaskOp) (d a : Nat) | vexp2 (rm : Nat) (k : MaskOp) (d a : Nat)
  | vlog2 (rm : Nat) (k : MaskOp) (d a : Nat)
  | viadd (sat : Bool) (t : Ty) (k : MaskOp) (d a b : Nat) | visub (sat : Bool) (t : Ty) (k : MaskOp) (d a b : Nat)
  | vimul (hi : Bool) (t : Ty) (k : MaskOp) (d a b : Nat) | vimad (t : Ty) (k : MaskOp) (d a b c : Nat)
  | vimin (t : Ty) (k : MaskOp) (d a b : Nat) | vimax (t : Ty) (k : MaskOp) (d a b : Nat)
  | vand (k : MaskOp) (d a b : Nat) | vor (k : MaskOp) (d a b : Nat) | vxor (k : MaskOp) (d a b : Nat)
  | vnot (k : MaskOp) (d a : Nat)
  | vshl (k : MaskOp) (d a : Nat) (n : ShAmt) | vshr (k : MaskOp) (d a : Nat) (n : ShAmt)
  | vsra (k : MaskOp) (d a : Nat) (n : ShAmt)
  | vcmp (c : VcmpCond) (t : Ty) (k : MaskOp) (d a b : Nat) | vfcmp (c : VfcmpCond) (k : MaskOp) (d a b : Nat)
  | vsel (k : MaskOp) (d a b c : Nat) | vmov (k : MaskOp) (d a : Nat) | vbcast (k : MaskOp) (d a : Nat)
  | vred (op : AtomOp) (t : Ty) (k : MaskOp) (d a : Nat) | vshuf (m : ShufMode) (k : MaskOp) (d a : Nat)
  | vscan (op : AtomOp) (excl : Bool) (t : Ty) (k : MaskOp) (d a : Nat) | vballot (k : MaskOp) (d a : Nat)
  | vlane (f : LaneForm)
  | vcvt (dt st : Ty) (rm : Nat) (k : MaskOp) (d a : Nat) | vpack (dt st : Ty) (rm : Nat) (k : MaskOp) (d a : Nat)
  | vunpack (dt st : Ty) (k : MaskOp) (d a : Nat)
  | vdot (t : Ty) (blk : Nat) (se5m2 : Bool) (ts : Option Nat) (k : MaskOp) (d a b c : Nat)
  | vunif (d a : Nat) | vmorton (two : Bool) (t : Ty) (k : MaskOp) (d a b c : Nat)
  | vhash (n : Nat) (k : MaskOp) (d a b : Nat)
  | mand (d a : Nat) (b : MaskSrc) | mor (d a : Nat) (b : MaskSrc) | mxor (d a : Nat) (b : MaskSrc)
  | mnot (d a : Nat) | mpop (d a : Nat) | mfirst (d a : Nat)
  -- memory, atomic and synchronisation (R420)
  | ld (t : Ty) (w64 : Bool) (o : MemOrd) (d a : Nat) (off : BitVec 16)
  | st (t : Ty) (w64 : Bool) (o : MemOrd) (d a : Nat) (off : BitVec 16)
  | vld (t : Ty) (w64 : Bool) (o : MemOrd) (k : MaskOp) (d a : Nat) (off : BitVec 16)
  | vst (t : Ty) (w64 : Bool) (o : MemOrd) (k : MaskOp) (d a : Nat) (off : BitVec 16)
  | vgather (nf : Bool) (t : Ty) (w64 : Bool) (scale : Nat) (o : MemOrd) (k : MaskOp) (d a b : Nat)
  | vscatter (t : Ty) (w64 : Bool) (scale : Nat) (o : MemOrd) (k : MaskOp) (d a b : Nat)
  | sld (t : Ty) (w64 : Bool) (o : MemOrd) (m : SMem) (d a : Nat)
  | sst (t : Ty) (w64 : Bool) (o : MemOrd) (m : SMem) (d a : Nat)
  | sldM (t : Ty) (w64 : Bool) (m : SMem) (d a : Nat) | sstM (t : Ty) (w64 : Bool) (m : SMem) (d a : Nat)
  | syncld (take : Bool) (t : Ty) (m : SMem) (d a : Nat) | syncst (t : Ty) (m : SMem) (d a : Nat)
  | feset (full : Bool) (m : SMem) (a : Nat)
  | atom (op : AtomOp) (nr : Bool) (t : Ty) (w64 : Bool) (o : MemOrd) (d a b c : Nat)
  | red (op : AtomOp) (t : Ty) (w64 : Bool) (o : MemOrd) (a b : Nat)
  | vatom (op : AtomOp) (nr : Bool) (t : Ty) (scale : Nat) (o : MemOrd) (k : MaskOp) (d a b c : Nat)
  | vredm (op : AtomOp) (t : Ty) (scale : Nat) (o : MemOrd) (k : MaskOp) (a b c : Nat)
  | fence (kind scope : Nat) | bar (n a : Nat) | bara (n a : Nat) | barw (n : Nat) | mbar
  | evsig (e a : Nat) | evmsg (e a b : Nat) | waitc (c : Ctr) (a : Nat) | mbw (n a : Nat) | mbstat (d : Nat)
  | qpush (d a b : Nat) | qpop (d a b : Nat) | qstat (d b : Nat)
  | cinv (a : Nat) (off : BitVec 16) | cflush (a : Nat) (off : BitVec 16) | pref (a : Nat) (off : BitVec 16)
  -- matrix array (R448)
  | macq (d : Nat) | mrel (d : Nat) | accalloc (d n : Nat) | accfree (a : Nat) | acczero (d : Nat)
  | tmld (d a : Nat) (off : BitVec 16) | stset (d a b c : Nat) | stadv (d a : Nat) | rep (a len : Nat)
  | mlds (blk : Nat) (se5m2 bm : Bool) (d a b c : Nat) | mflip
  | mstream (t : Ty) (d a row0 c n : Nat) | mstreamSp (t : Ty) (d a row0 c n : Nat)
  | mdrain (ts z : Bool) (d a b c : Nat) | mdrainAdd (ts z : Bool) (d a b c : Nat) | mstep (d : Nat)
  -- travel, ray, service and transaction (R467)
  | send (seg : Bool) (cls : Nat) (d a b c : Nat) | migrate (seg : Bool) (b : Nat) | seglook (d a b : Nat)
  | hitpush (a : Nat) | hitpop (d a : Nat) | boxt (d a b c : Nat) | trit (two : Bool) (d a b : Nat)
  | svreq (q a : Nat) | svpop (q d : Nat) | launch (d a b : Nat) | mstone | tabort (a : Nat) | tstat (d : Nat)
  | prept (a l8 : Nat)
  -- hardware events: start-up, reset, power and identity
  | packageColdReset | functionLevelReset | diePerst | firmwareVerify | recoveryImage
  | bringupPass | secondPass
  | dieResetEnd | tileQuarantine | predictiveQuarantine
  | throttleStep | thermalStop | thermalPowerOff | thermalResume
  | supervisorTimeout
  | getVersion | getCapabilities | negotiateAlgorithms | getDigests
  | getCertificate | challenge | getMeasurements | keyExchange
  | finish | unsupportedRequest | tdispErrorEvent | tdispRequest
  -- host interface
  | registerWrite | readClear | writeOneClear
  | zonecfgWrite | powercapWrite | laybyEntryWrite
  | load | disable | abort | queueDisabled
  | retry | fail | tlbinv | tlbinvDone
  | clearBootstep | doorbellWrite | fqreadWrite | queueEntryWriteback
  | bar2Write | bar2Read
  -- mesh, links and ports
  | flitForward | creditReturn | flitDamaged | unattributedDrop
  | forwardDiscard | bridgeModuleFail
  | portFrame | portLinkDown | portLinkRetrain
  | responseTimeout
  -- thread packets and class tables
  | threadPacketArrival | inboxRefill | slotClaim
  | extentClaim | extentReturn | classTableRead
  -- token coherence and memory
  | transientRequest | forwardedRequest
  | tokenArrival | transientRetry | persistentEscalate
  | persistentRequest | activation | deactivation
  | activationTimeout | recreation | evacuationTimeout
  | sliceEviction | tokenReturn
  | l1Recall | l1Invalidate | l1ShareRequest
  | l1Eviction | sliceRequest | memoryRead | memoryWrite
  | farAtomic | reductionMessage
  -- translation
  | l1TlbMiss | l2TlbLookup | pageWalk
  | delegatedFault
  -- services
  | serviceRequest | decode | emitPicture | clearContext
  | resize | textureSample | rasterise | rasterOverflow
  | serviceReply | serviceTimeout
  -- dispatch, placement and pre-emption
  | admissionDecision | launchMessage | tileClaim | launchStart
  | placementHold | tier1WindowClose | preemptgrace | switchOut
  | restore | compactorMove | waveUrgent
  -- transactions
  | commitRequest | commitGrant | commitEnd | sweep
  | shadowMove | readNote
  -- segments and travelling threads
  | segdef | segdrop | scrset | nofunc
  | scrsetApply | routeCacheMiss | segmentForward
  | pageIn | pageInDone | pageInRetry | pressureSample
  | pressureInterval | replicaDone | segmentEvict
  | ownerBroadcast | dropComplete
  | creditRequest | creditReturnMessage
  | liveMigration | signpostForward | signpostRetire
  | hitReservation | hitRecordArrival
  -- scratch, synchronisation, copies and barriers
  | remoteScratchRequest | remoteScratchReply | parkPass | parkRetryResend
  | syncTimeout | localBlockZero | copyAdvance | copyDone
  | copySuspend | copyReplay | userInterrupt
  | barrierPhaseComplete | meshBarrierRelease | meshbarTimeout
  | eventMessage | mutexGrant | accwaitTimeout
  | arrayGrant
  -- traps and completions
  | lateFault | trapHandling | loadReply | storeAck
  | attachedComplete | stageQueueTransfer | indexConfirmation
  deriving DecidableEq, Repr

end Sys2Proof
end

