-- ==== Sys2Proof/WellFormed.lean ====
section
/-! DEFINITION. Which instructions are well formed: every operand in its legal range (R346, R347, R352, R399, R422, R434,
R448, R469), whatever context issues them.  What also depends on the context (class, Q, the path-thread registers) is
checked when the instruction issues. -/
namespace Sys2Proof

/-- The type4 code of R350. -/
def Ty.code : Ty → Nat
  | .f32 => 0 | .f16 => 1 | .bf16 => 2 | .e4m3 => 3 | .e5m2 => 4 | .e2m1 => 5 | .i32 => 6 | .n32 => 7
  | .i16 => 8 | .n16 => 9 | .i8 => 10 | .n8 => 11 | .i4 => 12 | .n4 => 13 | .e8m0 => 14 | .b32 => 15

/-- The type of a type4 code (R350): every 4-bit code names one. -/
def Ty.ofCode : Nat → Ty
  | 0 => .f32 | 1 => .f16 | 2 => .bf16 | 3 => .e4m3 | 4 => .e5m2 | 5 => .e2m1 | 6 => .i32 | 7 => .n32
  | 8 => .i16 | 9 => .n16 | 10 => .i8 | 11 => .n8 | 12 => .i4 | 13 => .n4 | 14 => .e8m0 | _ => .b32

/-- The width in bits of one element (R319, R350). -/
def Ty.width : Ty → Nat
  | .f32 | .i32 | .n32 | .b32 => 32
  | .f16 | .bf16 | .i16 | .n16 => 16
  | .e4m3 | .e5m2 | .i8 | .n8 | .e8m0 => 8
  | .e2m1 | .i4 | .n4 => 4

/-- A floating-point type (R320); e8m0 is a scale, not a float. -/
def Ty.isFloat : Ty → Bool
  | .f32 | .f16 | .bf16 | .e4m3 | .e5m2 | .e2m1 => true
  | _ => false

/-- An integer type, signed or unsigned. -/
def Ty.isInt : Ty → Bool
  | .i32 | .n32 | .i16 | .n16 | .i8 | .n8 | .i4 | .n4 => true
  | _ => false

/-- A signed integer type. -/
def Ty.signed : Ty → Bool
  | .i32 | .i16 | .i8 | .i4 => true
  | _ => false

/-- f32, f16 and bf16, the types of the floating-point vector arithmetic (R399). -/
def Ty.fArith : Ty → Bool
  | .f32 | .f16 | .bf16 => true
  | _ => false

/-- The integer types of the vector arithmetic (R399). -/
def Ty.iArith : Ty → Bool
  | .i32 | .n32 | .i16 | .n16 | .i8 | .n8 => true
  | _ => false

/-- The 4-byte types: set S of R422. -/
def Ty.setS : Ty → Bool
  | .f32 | .i32 | .n32 | .b32 => true
  | _ => false

/-- Set W of R422, with .w64 taking a 4-byte type. -/
def Ty.setW (t : Ty) (w64 : Bool) : Bool :=
  match t with
  | .f32 | .i32 | .n32 | .b32 => true
  | .i16 | .n16 | .i8 | .n8 => !w64
  | _ => false

/-- The types of a block-scaled dot product (R414, R457). -/
def Ty.blockable : Ty → Bool
  | .e4m3 | .e5m2 | .e2m1 => true
  | _ => false

/-- The weight types of the matrix array (R447). -/
def Ty.weight : Ty → Bool
  | .bf16 | .f16 | .e4m3 | .e5m2 | .e2m1 => true
  | _ => false

/-- The types of VDOT (R399). -/
def Ty.dotTy : Ty → Bool
  | .f16 | .bf16 | .e4m3 | .e5m2 | .e2m1 | .i16 | .n16 | .i8 | .n8 | .i4 | .n4 => true
  | _ => false

/-- VCVT's pair rule (R399): no b32, and e8m0 pairs only with a float type. -/
def Ty.cvtPair (dt sy : Ty) : Bool :=
  dt != .b32 && sy != .b32 && (dt != .e8m0 || sy.isFloat) && (sy != .e8m0 || dt.isFloat)

/-- VUNPACK's destination types (R399). -/
def Ty.unpackPair (dt sy : Ty) : Bool :=
  sy.width < 32 && (if sy.isInt then (dt == .i32 || dt == .n32) else dt == .f32)

/-- The type rule of atomics and reductions (R434). -/
def AtomOp.takes (op : AtomOp) (t : Ty) (w64 : Bool) : Bool :=
  match op with
  | .add | .min | .max => t == .i32 || t == .n32 || (t == .f32 && !w64)
  | .and | .or | .xor | .exch | .cas => t == .b32 || t == .i32 || t == .n32

/-- One of the six operations of a reduction (R369). -/
def AtomOp.isRed : AtomOp → Bool
  | .exch | .cas => false
  | _ => true

/-- The types of VRED and VSCAN (R399). -/
def AtomOp.foldTakes (op : AtomOp) (t : Ty) : Bool :=
  match op with
  | .add | .min | .max => t == .f32 || t == .i32 || t == .n32
  | .and | .or | .xor => t == .i32 || t == .n32 || t == .b32
  | .exch | .cas => false

/-- A scalar register, 63 being sz (R346). -/
def sReg (n : Nat) : Bool := n < 64
/-- A scalar pair: an even number up to 60, or 63 for sz (R346, R347). -/
def xReg (n : Nat) : Bool := n == 63 || (n % 2 == 0 && n ≤ 60)
/-- A scalar register, or a pair in the .w64 form. -/
def sxReg (w64 : Bool) (n : Nat) : Bool := if w64 then xReg n else sReg n
/-- A vector register (R346). -/
def vReg (n : Nat) : Bool := n < 256
/-- A vector register, or a vector pair in the .w64 form. -/
def vyReg (w64 : Bool) (n : Nat) : Bool := n < 256 && (!w64 || n % 2 == 0)
/-- A block of n consecutive scalars (R469). -/
def sBlk (r n : Nat) : Bool := r == 63 || r + n ≤ 63
/-- A mask operand. -/
def MaskOp.ok (k : MaskOp) : Bool := k.k < 8
/-- Orderings of loads (R278). -/
def MemOrd.okLd (o : MemOrd) : Bool := o.scope ≤ 4 && ((o.code == 0 && o.scope == 0) || o.code == 1)
/-- Orderings of stores and reductions (R278). -/
def MemOrd.okSt (o : MemOrd) : Bool := o.scope ≤ 4 && ((o.code == 0 && o.scope == 0) || o.code == 2)
/-- Orderings of atomics, by whether a value returns (R278). -/
def MemOrd.okAtom (o : MemOrd) (nr : Bool) : Bool :=
  o.scope ≤ 4 && ((o.code == 0 && o.scope == 0) || o.code == 2 || (!nr && (o.code == 1 || o.code == 3)))
/-- The memory operand of a scratch access. -/
def SMem.ok : SMem → Bool
  | .disp _ => true
  | .vec k b sc => k.ok && vReg b && sc < 4
/-- Whether the .v form is used. -/
def SMem.isVec : SMem → Bool
  | .disp _ => false
  | .vec _ _ _ => true
/-- The data register of a scratch access: scalar, pair, vector or vector pair (R420). -/
def SMem.dReg (m : SMem) (w64 : Bool) (d : Nat) : Bool := if m.isVec then vyReg w64 d else sxReg w64 d
/-- A shift amount. -/
def ShAmt.ok : ShAmt → Bool
  | .reg b => vReg b
  | .imm n => n < 32
/-- A VSHUF mode. -/
def ShufMode.ok : ShufMode → Bool
  | .idx b => vReg b
  | .xor n | .up n | .down n => n < 32
/-- A VLANE form. -/
def LaneForm.ok : LaneForm → Bool
  | .get d a b => sReg d && vReg a && sReg b
  | .put d a b => vReg d && sReg a && sReg b
  | .id k d => k.ok && vReg d
/-- A mask source. -/
def MaskSrc.ok : MaskSrc → Bool
  | .m n => n < 8
  | .s n => sReg n
/-- A rounding code of an instruction that is not a conversion (R323). -/
def rmArith (rm : Nat) : Bool := rm ≤ 3 || rm == 5
/-- A rounding code of a conversion (R323). -/
def rmConv (rm : Nat) : Bool := rm ≤ 5

/-- Well-formed instructions.  The hardware events carry no encoding and are all well formed. -/
def Instr.wf : Instr → Bool
  | .add16 r s | .sub16 r s | .and16 r s | .or16 r s | .xor16 r s | .shl16 r s | .shr16 r s | .sra16 r s | .mul16 r s
  | .min16 r s | .max16 r s | .slt16 r s | .addSz16 r s | .clz16 r s | .popc16 r s
  | .shli16 r s | .shri16 r s | .srai16 r s => r < 32 && s < 32
  | .addi16 r _ | .addiSz16 r _ | .andi16 r _ | .slti16 r _ => r < 32
  | .kget16 r k | .kset16 r k => r < 32 && k < 16
  | .nop16 | .yield16 | .exit16 | .bkpt16 | .uiret16 | .ret16 => true
  | .add d a b | .sub d a b | .and d a b | .or d a b | .xor d a b | .shl d a b | .shr d a b | .sra d a b | .mul d a b
  | .mulh d a b | .mulhn d a b | .div d a b | .divn d a b | .rem d a b | .remn d a b | .min d a b | .max d a b
  | .minn d a b | .maxn d a b | .slt d a b | .sltn d a b => sReg d && sReg a && sReg b
  | .clz d a | .popc d a | .brev d a => sReg d && sReg a
  | .add64 d a b | .sub64 d a b => xReg d && xReg a && xReg b
  | .shl64 d a b => xReg d && xReg a && sReg b
  | .lea d a b k => xReg d && xReg a && sReg b && k < 4
  | .sel d c a b => sReg d && sReg c && sReg a && sReg b
  | .mad64 d a b c => xReg d && sReg a && sReg b && xReg c
  | .bfx d a p w | .bfi d a p w => sReg d && sReg a && 1 ≤ w && p + w ≤ 32
  | .cmp _ d a b => d < 32 && sReg a && sReg b
  | .pand d a b | .por d a b => d < 32 && a < 32 && b < 32
  | .pnot d a => d < 32 && a < 32
  | .addi d a _ | .andi d a _ | .ori d a _ | .xori d a _ | .slti d a _ => sReg d && sReg a
  | .shli d a n | .shri d a n | .srai d a n => sReg d && sReg a && n < 32
  | .addi64 d a _ => xReg d && xReg a
  | .lui d _ => sReg d
  | .br _ a _ => sReg a
  | .brp _ a _ => a < 32
  | .brm _ a _ | .vbr _ _ a _ => a < 8
  | .jmp _ | .call _ => true
  | .kget d k => sReg d && k < 16
  | .kset k a => k < 16 && sReg a
  | .ctlr d n => sReg d && n < 4096
  | .ctlw n a | .ctls n a | .ctlc n a => n < 4096 && sReg a
  | .trap c => c < 4096
  | .svc f => f < 4096
  | .qgive d j | .qtake d j => sReg d && j < 6
  | .gjoin d n => sReg d && n < 64
  | .gleave d => sReg d
  | .nop | .yield | .exit | .bkpt | .uiret | .ret | .vreconv | .resume => true
  | .jr a => xReg a
  | .li d _ => sReg d
  | .vadd t rm k d a b | .vsub t rm k d a b | .vmul t rm k d a b =>
      t.fArith && rmArith rm && k.ok && vReg d && vReg a && vReg b
  | .vmin t k d a b | .vmax t k d a b => t.fArith && k.ok && vReg d && vReg a && vReg b
  | .vfma t rm k d a b c => t.fArith && rmArith rm && k.ok && vReg d && vReg a && vReg b && vReg c
  | .vabs t k d a | .vneg t k d a => t.fArith && k.ok && vReg d && vReg a
  | .vrcp rm k d a | .vrsq rm k d a | .vsqrt rm k d a | .vexp2 rm k d a | .vlog2 rm k d a =>
      rmArith rm && k.ok && vReg d && vReg a
  | .viadd _ t k d a b | .visub _ t k d a b | .vimin t k d a b | .vimax t k d a b =>
      t.iArith && k.ok && vReg d && vReg a && vReg b
  | .vimul hi t k d a b => t.iArith && (!hi || t.width == 32) && k.ok && vReg d && vReg a && vReg b
  | .vimad t k d a b c => t.iArith && k.ok && vReg d && vReg a && vReg b && vReg c
  | .vand k d a b | .vor k d a b | .vxor k d a b => k.ok && vReg d && vReg a && vReg b
  | .vnot k d a | .vmov k d a => k.ok && vReg d && vReg a
  | .vshl k d a n | .vshr k d a n | .vsra k d a n => k.ok && vReg d && vReg a && n.ok
  | .vcmp _ t k d a b => (t == .i32 || t == .n32) && k.ok && d < 8 && vReg a && vReg b
  | .vfcmp _ k d a b => k.ok && d < 8 && vReg a && vReg b
  | .vsel k d a b c => k.ok && vReg d && vReg a && vReg b && c < 8
  | .vbcast k d a => k.ok && vReg d && sReg a
  | .vred op t k d a => op.foldTakes t && k.ok && sReg d && vReg a
  | .vshuf m k d a => m.ok && k.ok && vReg d && vReg a
  | .vscan op _ t k d a => op.foldTakes t && k.ok && vReg d && vReg a
  | .vballot k d a => k.ok && sReg d && vReg a
  | .vlane f => f.ok
  | .vcvt dt sy rm k d a => dt.cvtPair sy && rmConv rm && k.ok && vReg d && vReg a
  | .vpack dt sy rm k d a =>
      dt.width < 32 && dt.cvtPair sy && rmConv rm && k.ok && vReg d && vReg a && a % (32 / dt.width) == 0
  | .vunpack dt sy k d a => dt.unpackPair sy && k.ok && vReg d && vReg a && d % (32 / sy.width) == 0
  | .vdot t blk se ts k d a b c =>
      t.dotTy && k.ok && vReg d && vReg a && vReg b && vReg c && blk < 4 &&
      (if blk == 0 then !se && ts.isNone
       else t.blockable && a < 255 && b < 255 && (match ts with | none => true | some p => p % 2 == 0 && p ≤ 60))
  | .vunif d a => sReg d && vReg a
  | .vmorton two t k d a b c =>
      (t == .i32 || t == .n32) && k.ok && vReg d && vReg a && vReg b && (if two then c == 0 else vReg c)
  | .vhash n k d a b => n < 32 && k.ok && vReg d && vReg a && vReg b
  | .mand d a b | .mor d a b | .mxor d a b => d < 8 && a < 8 && b.ok
  | .mnot d a => d < 8 && a < 8
  | .mpop d a | .mfirst d a => sReg d && a < 8
  | .ld t w o d a _ => t.setW w && o.okLd && sxReg w d && xReg a
  | .st t w o d a _ => t.setW w && o.okSt && sxReg w d && xReg a
  | .vld t w o k d a _ => t.setW w && o.okLd && k.ok && vyReg w d && xReg a
  | .vst t w o k d a _ => t.setW w && o.okSt && k.ok && vyReg w d && xReg a
  | .vgather _ t w sc o k d a b => t.setW w && sc < 4 && o.okLd && k.ok && vyReg w d && xReg a && vReg b
  | .vscatter t w sc o k d a b => t.setW w && sc < 4 && o.okSt && k.ok && vyReg w d && xReg a && vReg b
  | .sld t w o m d a => t.setW w && o.okLd && m.ok && m.dReg w d && xReg a
  | .sst t w o m d a => t.setW w && o.okSt && m.ok && m.dReg w d && xReg a
  | .sldM t w m d a | .sstM t w m d a => t.setW w && m.ok && m.dReg w d && xReg a
  | .syncld _ t m d a | .syncst t m d a => t.setS && m.ok && m.dReg false d && xReg a
  | .feset _ m a => m.ok && xReg a
  | .atom op nr t w o d a b c =>
      op.takes t w && o.okAtom nr && xReg a && sxReg w b && (if nr then d == 0 && op != .cas else sxReg w d) &&
      (if op == .cas then sxReg w c else c == 0)
  | .red op t w o a b => op.isRed && op.takes t w && o.okSt && xReg a && sxReg w b
  | .vatom op nr t sc o k d a b c =>
      op.takes t false && sc < 4 && o.okAtom nr && k.ok && xReg a && vReg b && vReg c &&
      (if nr then d == 0 && op != .cas else vReg d)
  | .vredm op t sc o k a b c =>
      op.isRed && op.takes t false && sc < 4 && o.okSt && k.ok && xReg a && vReg b && vReg c
  | .fence kd sc => 1 ≤ kd && kd < 4 && sc ≤ 4
  | .bar n a | .bara n a => n < 32 && sReg a
  | .barw n => n < 32
  | .mbar => true
  | .evsig e a => e < 64 && sReg a
  | .evmsg e a b => e < 64 && sReg a && sReg b
  | .waitc _ a => sReg a
  | .mbw n a => n < 4 && xReg a
  | .mbstat d => sReg d
  | .qpush d a b | .qpop d a b => sReg d && xReg a && sReg b
  | .qstat d b => sReg d && sReg b
  | .cinv a _ | .cflush a _ | .pref a _ => xReg a
  | .macq d | .mrel d => sReg d
  | .accalloc d n => sReg d && 1 ≤ n && n ≤ 16
  | .accfree a => sReg a
  | .acczero d => d < 16
  | .tmld d a _ => d < 16 && xReg a
  | .stset d a b c => d < 8 && xReg a && sReg b && sReg c
  | .stadv d a => d < 8 && sReg a
  | .rep a len => sReg a && 1 ≤ len && len ≤ 16
  | .mlds blk _ bm d a b c =>
      blk < 4 && a < 16 && b < 8 && (if bm then xReg d else d == 0) && (if blk == 0 then c == 0 else c < 16)
  | .mflip => true
  | .mstream t d a row0 c n | .mstreamSp t d a row0 c n =>
      t.weight && d < 16 && a < 8 && c < 8 && 1 ≤ n && row0 + n ≤ 64
  | .mdrain ts _ d a b c | .mdrainAdd ts _ d a b c =>
      d < 16 && a < 16 && b < 8 && (if ts then xReg c else c == 0)
  | .mstep d => sReg d
  | .send _ cls d a b c => cls < 64 && sReg d && sBlk a 10 && sReg b && sReg c
  | .migrate _ b => sReg b
  | .seglook d a b => sReg d && sReg a && sReg b
  | .hitpush a => sBlk a 15
  | .hitpop d a => d ≤ 240 && sReg a
  | .boxt d a b c => sReg d && sBlk a 8 && xReg b && sReg c
  | .trit _ d a b => sBlk d 4 && sBlk a 8 && xReg b
  | .svreq q a => q < 8 && xReg a
  | .svpop q d => q < 8 && sBlk d 4
  | .launch d a b => xReg d && xReg a && sReg b
  | .mstone => true
  | .tabort a => sReg a
  | .tstat d => xReg d
  | .prept a l => sReg a && l ≤ 32
  | .packageColdReset | .functionLevelReset | .diePerst | .firmwareVerify | .recoveryImage | .bringupPass
  | .secondPass | .dieResetEnd | .tileQuarantine | .predictiveQuarantine | .throttleStep | .thermalStop
  | .thermalPowerOff | .thermalResume | .supervisorTimeout | .getVersion | .getCapabilities | .negotiateAlgorithms
  | .getDigests | .getCertificate | .challenge | .getMeasurements | .keyExchange | .finish | .unsupportedRequest
  | .tdispErrorEvent | .tdispRequest | .registerWrite | .readClear | .writeOneClear | .zonecfgWrite
  | .powercapWrite | .laybyEntryWrite | .load | .disable | .abort | .queueDisabled | .retry | .fail | .tlbinv
  | .tlbinvDone | .clearBootstep | .doorbellWrite | .fqreadWrite | .queueEntryWriteback | .bar2Write | .bar2Read
  | .flitForward | .creditReturn | .flitDamaged | .unattributedDrop | .forwardDiscard | .bridgeModuleFail
  | .portFrame | .portLinkDown | .portLinkRetrain | .responseTimeout | .threadPacketArrival | .inboxRefill
  | .slotClaim | .extentClaim | .extentReturn | .classTableRead | .transientRequest | .forwardedRequest
  | .tokenArrival | .transientRetry | .persistentEscalate | .persistentRequest | .activation | .deactivation
  | .activationTimeout | .recreation | .evacuationTimeout | .sliceEviction | .tokenReturn | .l1Recall
  | .l1Invalidate | .l1ShareRequest | .l1Eviction | .sliceRequest | .memoryRead | .memoryWrite | .farAtomic
  | .reductionMessage | .l1TlbMiss | .l2TlbLookup | .pageWalk | .delegatedFault | .serviceRequest | .decode
  | .emitPicture | .clearContext | .resize | .textureSample | .rasterise | .rasterOverflow | .serviceReply
  | .serviceTimeout | .admissionDecision | .launchMessage | .tileClaim | .launchStart | .placementHold
  | .tier1WindowClose | .preemptgrace | .switchOut | .restore | .compactorMove | .waveUrgent | .commitRequest
  | .commitGrant | .commitEnd | .sweep | .shadowMove | .readNote | .segdef | .segdrop | .scrset | .nofunc
  | .scrsetApply | .routeCacheMiss | .segmentForward | .pageIn | .pageInDone | .pageInRetry | .pressureSample
  | .pressureInterval | .replicaDone | .segmentEvict | .ownerBroadcast | .dropComplete | .creditRequest
  | .creditReturnMessage | .liveMigration | .signpostForward | .signpostRetire | .hitReservation
  | .hitRecordArrival | .remoteScratchRequest | .remoteScratchReply | .parkPass | .parkRetryResend | .syncTimeout
  | .localBlockZero | .copyAdvance | .copyDone | .copySuspend | .copyReplay | .userInterrupt
  | .barrierPhaseComplete | .meshBarrierRelease | .meshbarTimeout | .eventMessage | .mutexGrant | .accwaitTimeout
  | .arrayGrant | .lateFault | .trapHandling | .loadReply | .storeAck | .attachedComplete | .stageQueueTransfer
  | .indexConfirmation => true

end Sys2Proof
end

