-- ==== Sys2Proof/Machine/Float.lean ====
section
/-! DEFINITION. Number formats and arithmetic (R317 to R335): what a bit pattern means, exact values, and the one rounding of
an exact value to a format with its flags.  Everything here is a pure function of its operands. -/
namespace Sys2Proof.Machine

/-- The FPSTAT flags an operation raises (R337): [5] SAT, [4] NX, [3] UF, [2] OF, [1] DZ, [0] IV. -/
abbrev Flags := BitVec 6
/-- No flag. -/
def noFlags : Flags := 0#6
/-- Invalid operation. -/
def flagIV : Flags := 0b000001#6
/-- Division by zero or logarithm of zero. -/
def flagDZ : Flags := 0b000010#6
/-- Overflow. -/
def flagOF : Flags := 0b000100#6
/-- Underflow. -/
def flagUF : Flags := 0b001000#6
/-- Inexact. -/
def flagNX : Flags := 0b010000#6
/-- A conversion saturated. -/
def flagSAT : Flags := 0b100000#6

/-- What a value of a floating-point format is: the canonical NaN, an infinity, or (-1)^neg * m * 2^e exactly. -/
inductive FVal where
  | nan
  | inf (neg : Bool)
  | fin (neg : Bool) (m : Nat) (e : Int)
  deriving DecidableEq, Repr

/-- How the codes with an exponent field of all ones read (R317). -/
inductive TopKind where
  | ieee | e4m3 | e2m1
  deriving DecidableEq, Repr

/-- A floating-point format (R317): exponent bits, fraction bits, bias, and its top codes. -/
structure Fmt where
  eb : Nat
  fb : Nat
  bias : Nat
  top : TopKind
  deriving DecidableEq, Repr

/-- FP32 (R317). -/
def fmtF32 : Fmt := ⟨8, 23, 127, .ieee⟩
/-- FP16 (R317). -/
def fmtF16 : Fmt := ⟨5, 10, 15, .ieee⟩
/-- BF16 (R317). -/
def fmtBF16 : Fmt := ⟨8, 7, 127, .ieee⟩
/-- FP8 E5M2 (R317). -/
def fmtE5M2 : Fmt := ⟨5, 2, 15, .ieee⟩
/-- FP8 E4M3 (R317). -/
def fmtE4M3 : Fmt := ⟨4, 3, 7, .e4m3⟩
/-- FP4 E2M1 (R317). -/
def fmtE2M1 : Fmt := ⟨2, 1, 1, .e2m1⟩

/-- The format of a floating-point type; FP32 for the types that are none. -/
def fmtOf : Ty → Fmt
  | .f16 => fmtF16 | .bf16 => fmtBF16 | .e4m3 => fmtE4M3 | .e5m2 => fmtE5M2 | .e2m1 => fmtE2M1
  | _ => fmtF32

/-- The exponent of the unit of the subnormals. -/
def Fmt.qmin (F : Fmt) : Int := 1 - F.bias - F.fb
/-- The largest exponent field that holds finite values. -/
def Fmt.topField (F : Fmt) : Nat := match F.top with | .ieee => 2 ^ F.eb - 2 | _ => 2 ^ F.eb - 1
/-- The exponent of the unit of the largest binade. -/
def Fmt.qmax (F : Fmt) : Int := (F.topField : Int) - F.bias - F.fb
/-- The largest finite magnitude in units of 2^qmax. -/
def Fmt.maxN (F : Fmt) : Nat := match F.top with | .e4m3 => 2 ^ (F.fb + 1) - 2 | _ => 2 ^ (F.fb + 1) - 1
/-- The code of the largest finite magnitude. -/
def Fmt.maxCode (F : Fmt) : Nat := (F.topField - 1) * 2 ^ F.fb + F.maxN
/-- The code of infinity; only the formats of kind ieee have one. -/
def Fmt.infCode (F : Fmt) : Nat := (2 ^ F.eb - 1) * 2 ^ F.fb
/-- The canonical NaN (R317, R318). -/
def Fmt.nanCode (F : Fmt) : Nat :=
  match F.top with
  | .ieee => F.infCode + 2 ^ (F.fb - 1)
  | .e4m3 => 0x7F
  | .e2m1 => 0
/-- The weight of the sign bit. -/
def Fmt.signW (F : Fmt) : Nat := 2 ^ (F.eb + F.fb)

/-- The value of a code (R317); bits above the format's width are ignored. -/
def Fmt.val (F : Fmt) (bits : Nat) : FVal :=
  let neg := bits / F.signW % 2 == 1
  let ef := bits / 2 ^ F.fb % 2 ^ F.eb
  let f := bits % 2 ^ F.fb
  let isTop := ef == 2 ^ F.eb - 1
  if isTop && F.top == .ieee then (if f == 0 then .inf neg else .nan)
  else if isTop && F.top == .e4m3 && f == 2 ^ F.fb - 1 then .nan
  else if ef == 0 then .fin neg f F.qmin
  else .fin neg (2 ^ F.fb + f) ((ef : Int) - F.bias - F.fb)

/-- The modes of R323, the stochastic one with its 16-bit number (R325). -/
inductive Rnd where
  | rne | rtz | rdn | rup | sr (n : Nat)
  deriving DecidableEq, Repr

/-- How a conversion treats an overflow: SAT8 of FPMODE, and whether the operation is VCVT or VPACK (R324). -/
structure OvCtx where
  sat8 : Bool
  conv : Bool
  deriving DecidableEq, Repr

/-- Whether the truncated magnitude N is stepped up: rem is what lies below it, out of 2^sh (R323, R325). -/
def roundUp (r : Rnd) (neg : Bool) (n rem sh : Nat) : Bool :=
  match r with
  | .rne => if sh == 0 then false else 2 ^ (sh - 1) < rem || (rem == 2 ^ (sh - 1) && n % 2 == 1)
  | .rtz => false
  | .rdn => neg && rem != 0
  | .rup => !neg && rem != 0
  | .sr k => 2 ^ 16 ≤ rem * 2 ^ 16 / 2 ^ sh + k

/-- m * 2^e rounded to a multiple of 2^q: the multiple, and whether it is inexact. -/
def roundAt (r : Rnd) (neg : Bool) (m : Nat) (e q : Int) : Nat × Bool :=
  if q ≤ e then (m * 2 ^ (e - q).toNat, false)
  else
    let sh := (q - e).toNat
    let n := m / 2 ^ sh
    let rem := m % 2 ^ sh
    (if roundUp r neg n rem sh then n + 1 else n, rem != 0)

/-- The overflow value and flags of R324. -/
def overflow (F : Fmt) (r : Rnd) (ov : OvCtx) (neg : Bool) : Nat × Flags :=
  match F.top with
  | .e4m3 => if ov.sat8 then (F.maxCode, flagOF ||| flagNX ||| flagSAT) else (F.nanCode, flagOF ||| flagNX)
  | .e2m1 => (F.maxCode, flagOF ||| flagNX ||| flagSAT)
  | .ieee =>
    if F == fmtE5M2 && ov.conv && ov.sat8 then (F.maxCode, flagOF ||| flagNX ||| flagSAT)
    else
      let toMax := match r with
        | .rtz => true
        | .rdn => !neg
        | .rup => neg
        | _ => false
      (if toMax then F.maxCode else F.infCode, flagOF ||| flagNX)

/-- Whether an overflow becomes the canonical NaN, which carries no sign (R318, R324). -/
def overflowIsNaN (F : Fmt) (ov : OvCtx) : Bool := F.top == .e4m3 && !ov.sat8

/-- (-1)^neg * m * 2^e rounded once to F: its code and flags (R321, R323 to R325). -/
def roundFin (F : Fmt) (r : Rnd) (ov : OvCtx) (neg : Bool) (m : Nat) (e : Int) : Nat × Flags :=
  let s := if neg then F.signW else 0
  if m == 0 then (s, noFlags)
  else
    let ex : Int := (Nat.log2 m : Int) + e
    let q := max (ex - F.fb) F.qmin
    let (n, inexact) := roundAt r neg m e q
    let ovf := decide (F.qmax ≤ q) && decide (F.maxN < n * 2 ^ (q - F.qmax).toNat)
    if ovf then
      let (c, fl) := overflow F r ov neg
      (if overflowIsNaN F ov then c else s + c, fl)
    else
      let minN : Int := 1 - F.bias
      let (nu, _) := roundAt r neg m e (ex - F.fb)
      let tiny := decide (ex < minN) && !(decide (ex = minN - 1) && nu == 2 ^ (F.fb + 1))
      let fl := (if inexact then flagNX else noFlags) ||| (if tiny && inexact then flagUF else noFlags)
      (s + ((q - F.qmin).toNat * 2 ^ F.fb + n), fl)

/-- Round(x, F, code) on an exact value (R354): the code and the flags.  Infinities stay where the format has them. -/
def roundV (F : Fmt) (r : Rnd) (ov : OvCtx) : FVal → Nat × Flags
  | .nan => (F.nanCode, noFlags)
  | .inf neg =>
    let s := if neg then F.signW else 0
    match F.top with
    | .ieee => (s + F.infCode, noFlags)
    | .e4m3 => if ov.sat8 then (s + F.maxCode, flagSAT) else (F.nanCode, noFlags)
    | .e2m1 => (s + F.maxCode, flagSAT)
  | .fin neg m e => roundFin F r ov neg m e

/-- Outside VCVT and VPACK no conversion rule applies. -/
def noOv : OvCtx := ⟨false, false⟩

/-- The signed integer of a finite value in units of 2^q, for q at most its exponent. -/
def scaled (neg : Bool) (m : Nat) (e q : Int) : Int :=
  let v : Int := (m * 2 ^ (e - q).toNat : Nat)
  if neg then -v else v

/-- The exact sum, with the sign that IEEE 754 gives a zero (R321, R329). -/
def addV (rdn : Bool) : FVal → FVal → FVal × Flags
  | .nan, _ => (.nan, noFlags)
  | _, .nan => (.nan, noFlags)
  | .inf a, .inf b => if a == b then (.inf a, noFlags) else (.nan, flagIV)
  | .inf a, _ => (.inf a, noFlags)
  | _, .inf b => (.inf b, noFlags)
  | .fin a m e, .fin b n f =>
    let q := min e f
    let t := scaled a m e q + scaled b n f q
    if t = 0 then (.fin (if a == b then a else rdn) 0 q, noFlags)
    else (.fin (decide (t < 0)) t.natAbs q, noFlags)

/-- A value with its sign inverted. -/
def negV : FVal → FVal
  | .nan => .nan
  | .inf a => .inf (!a)
  | .fin a m e => .fin (!a) m e

/-- The exact product (R329). -/
def mulV : FVal → FVal → FVal × Flags
  | .nan, _ => (.nan, noFlags)
  | _, .nan => (.nan, noFlags)
  | .inf a, .inf b => (.inf (a != b), noFlags)
  | .inf a, .fin b n _ => if n == 0 then (.nan, flagIV) else (.inf (a != b), noFlags)
  | .fin a m _, .inf b => if m == 0 then (.nan, flagIV) else (.inf (a != b), noFlags)
  | .fin a m e, .fin b n f => (.fin (a != b) (m * n) (e + f), noFlags)

/-- An exact zero. -/
def FVal.isZero : FVal → Bool
  | .fin _ m _ => m == 0
  | _ => false

/-- A NaN. -/
def FVal.isNaN : FVal → Bool
  | .nan => true
  | _ => false

/-- The sign of a value; false for NaN. -/
def FVal.neg : FVal → Bool
  | .nan => false
  | .inf a => a
  | .fin a _ _ => a

/-- a < b as numbers; false when either is NaN, and zeros are equal. -/
def ltV : FVal → FVal → Bool
  | .nan, _ => false
  | _, .nan => false
  | .inf a, .inf b => a && !b
  | .inf a, _ => a
  | _, .inf b => !b
  | .fin a m e, .fin b n f => let q := min e f; decide (scaled a m e q < scaled b n f q)

/-- a = b as numbers; false when either is NaN. -/
def eqV : FVal → FVal → Bool
  | .nan, _ => false
  | _, .nan => false
  | .inf a, .inf b => a == b
  | .inf _, _ => false
  | _, .inf _ => false
  | .fin a m e, .fin b n f => let q := min e f; decide (scaled a m e q = scaled b n f q)

/-- The order of R330: as numbers, with -0 below +0. -/
def lt330 (a b : FVal) : Bool := ltV a b || (a.isZero && b.isZero && a.neg && !b.neg)

/-- Division by 2^k with a sticky low bit: 1/m with at least 40 significant bits. -/
def recipV (neg : Bool) (m : Nat) (e : Int) : FVal :=
  let k := Nat.log2 m + 40
  let q := 2 ^ k / m
  .fin neg (2 * q + (if 2 ^ k % m == 0 then 0 else 1)) (-e - k - 1)

/-- The exact quotient to at least 40 bits with a sticky low bit, for finite operands, the divisor not zero. -/
def divV (a b : FVal) : FVal × Flags :=
  match a, b with
  | .nan, _ => (.nan, noFlags)
  | _, .nan => (.nan, noFlags)
  | .inf _, .inf _ => (.nan, flagIV)
  | .inf s, .fin t _ _ => (.inf (s != t), noFlags)
  | .fin s _ _, .inf t => (.fin (s != t) 0 0, noFlags)
  | .fin s m e, .fin t n f =>
    if n == 0 then (if m == 0 then (.nan, flagIV) else (.inf (s != t), flagDZ))
    else
      let k := Nat.log2 n + 40
      let q := m * 2 ^ k / n
      (.fin (s != t) (2 * q + (if m * 2 ^ k % n == 0 then 0 else 1)) (e - f - k - 1), noFlags)

/-- The integer square root, one bit at a time from bit k down. -/
def isqrtFrom : Nat → Nat → Nat → Nat
  | 0, n, r => if (r + 1) * (r + 1) ≤ n then r + 1 else r
  | k + 1, n, r =>
    let t := r + 2 ^ (k + 1)
    isqrtFrom k n (if t * t ≤ n then t else r)

/-- The integer square root of n. -/
def isqrt (n : Nat) : Nat := isqrtFrom (Nat.log2 n / 2 + 1) n 0

/-- The square root of m * 2^e to at least 40 bits with a sticky low bit. -/
def sqrtV (m : Nat) (e : Int) : FVal :=
  let odd := e % 2 == 1
  let m2 := (if odd then 2 * m else m) * 2 ^ 80
  let e2 : Int := ((if odd then e - 1 else e) - 80) / 2
  let r := isqrt m2
  .fin false (2 * r + (if r * r == m2 then 0 else 1)) (e2 - 1)

/-- The reciprocal square root of m * 2^e to at least 40 bits with a sticky low bit. -/
def rsqV (m : Nat) (e : Int) : FVal :=
  let odd := e % 2 == 1
  let m1 := if odd then 2 * m else m
  let e1 : Int := (if odd then e - 1 else e) / 2
  let t := Nat.log2 m1 / 2 + 48
  let r := isqrt (2 ^ (2 * t) / m1)
  .fin false (2 * r + (if r * r * m1 == 2 ^ (2 * t) then 0 else 1)) (-e1 - t - 1)

/-- The product of 2^(2^-i) over the 1 bits of a 64-bit fraction, from bit 63 down, in units of 2^-192. -/
def exp2Bits : Nat → Nat → Nat → Nat → Nat
  | 0, _, _, acc => acc
  | k + 1, frac, root, acc =>
    let root' := isqrt (root * 2 ^ 192)
    exp2Bits k frac root' (if frac / 2 ^ k % 2 == 1 then acc * root' / 2 ^ 192 else acc)

/-- 2^x for a finite x that is no integer: correct to more than 100 bits with a sticky low bit (R331). -/
def exp2V (neg : Bool) (m : Nat) (e : Int) : FVal :=
  if (Nat.log2 m : Int) + e < -40 then
    .fin false (if neg then 2 ^ 60 - 1 else 2 ^ 60 + 1) (-60)
  else
    let t := scaled neg (m * 2 ^ (e + 64).toNat) (-64) (-64)
    let ip := t / 2 ^ 64
    let frac := (t % 2 ^ 64).toNat
    .fin false (2 * exp2Bits 64 frac (2 * 2 ^ 192) (2 ^ 192) + 1) (ip - 193)

/-- The fraction bits of log2 of y / 2^256 for y in [2^256, 2^257), n of them, by repeated squaring. -/
def log2Bits : Nat → Nat → Nat → Nat
  | 0, _, acc => acc
  | n + 1, y, acc =>
    let y2 := y * y / 2 ^ 256
    if 2 ^ 257 ≤ y2 then log2Bits n (y2 / 2) (2 * acc + 1) else log2Bits n y2 (2 * acc)

/-- log2 of a positive m * 2^e that is no power of two, to 120 fraction bits with a sticky low bit (R331). -/
def log2V (m : Nat) (e : Int) : FVal :=
  let l := Nat.log2 m
  let f := log2Bits 120 (m * 2 ^ (256 - l)) 0
  let t : Int := ((l : Int) + e) * 2 ^ 120 + f
  .fin (decide (t < 0)) (if t < 0 then 2 * t.natAbs - 1 else 2 * t.natAbs + 1) (-121)

/-- VRCP (R331). -/
def rcpF : FVal → FVal × Flags
  | .nan => (.nan, noFlags)
  | .inf s => (.fin s 0 0, noFlags)
  | .fin s m e => if m == 0 then (.inf s, flagDZ) else (recipV s m e, noFlags)

/-- VRSQ (R331). -/
def rsqF : FVal → FVal × Flags
  | .nan => (.nan, noFlags)
  | .inf s => if s then (.nan, flagIV) else (.fin false 0 0, noFlags)
  | .fin s m e => if m == 0 then (.inf s, flagDZ) else if s then (.nan, flagIV) else (rsqV m e, noFlags)

/-- VSQRT (R331). -/
def sqrtF : FVal → FVal × Flags
  | .nan => (.nan, noFlags)
  | .inf s => if s then (.nan, flagIV) else (.inf false, noFlags)
  | .fin s m e => if m == 0 then (.fin s 0 0, noFlags) else if s then (.nan, flagIV) else (sqrtV m e, noFlags)

/-- VEXP2 (R331). -/
def exp2F : FVal → FVal × Flags
  | .nan => (.nan, noFlags)
  | .inf s => if s then (.fin false 0 0, noFlags) else (.inf false, noFlags)
  | .fin s m e =>
    if m == 0 then (.fin false 1 0, noFlags)
    else if 10 ≤ (Nat.log2 m : Int) + e then (.fin false 1 (if s then -1024 else 1024), noFlags)
    else
      let isInt := decide (0 ≤ e) || m % 2 ^ (-e).toNat == 0
      if isInt then
        let n : Int := if 0 ≤ e then (m * 2 ^ e.toNat : Nat) else (m / 2 ^ (-e).toNat : Nat)
        (.fin false 1 (if s then -n else n), noFlags)
      else (exp2V s m e, noFlags)

/-- VLOG2 (R331). -/
def log2F : FVal → FVal × Flags
  | .nan => (.nan, noFlags)
  | .inf s => if s then (.nan, flagIV) else (.inf false, noFlags)
  | .fin s m e =>
    if m == 0 then (.inf true, flagDZ)
    else if s then (.nan, flagIV)
    else if m == 2 ^ Nat.log2 m then
      let n : Int := (Nat.log2 m : Int) + e
      (.fin (decide (n < 0)) n.natAbs 0, noFlags)
    else (log2V m e, noFlags)

/-- An f32 subnormal read as a zero of its sign under FTZ (R322). -/
def ftzIn (ftz : Bool) (bits : Nat) : Nat :=
  if ftz && bits / 2 ^ 23 % 256 == 0 then bits / 2 ^ 31 % 2 * 2 ^ 31 else bits

/-- A subnormal f32 result replaced by a zero of its sign, with UF and NX (R322). -/
def ftzOut (ftz : Bool) (r : Nat × Flags) : Nat × Flags :=
  if ftz && r.1 / 2 ^ 23 % 256 == 0 && r.1 % 2 ^ 23 != 0 then (r.1 / 2 ^ 31 % 2 * 2 ^ 31, r.2 ||| flagUF ||| flagNX) else r

/-- Whether FTZ touches a type: only FP32 (R322). -/
def ftzOf (t : Ty) (ftz : Bool) : Bool := ftz && t == .f32

/-- Rounds an operation's exact value to type t, flushing as R322 states. -/
def finish (t : Ty) (r : Rnd) (ftz : Bool) (v : FVal × Flags) : Nat × Flags :=
  let (c, fl) := ftzOut (ftzOf t ftz) (roundV (fmtOf t) r noOv v.1)
  (c, fl ||| v.2)

/-- The value of an element of type t as an arithmetic instruction reads it. -/
def readV (t : Ty) (ftz : Bool) (bits : Nat) : FVal := (fmtOf t).val (ftzIn (ftzOf t ftz) bits)

/-- VADD on one element (R403). -/
def fAdd (t : Ty) (r : Rnd) (ftz : Bool) (a b : Nat) : Nat × Flags :=
  finish t r ftz (addV (r == .rdn) (readV t ftz a) (readV t ftz b))
/-- VSUB on one element (R403). -/
def fSub (t : Ty) (r : Rnd) (ftz : Bool) (a b : Nat) : Nat × Flags :=
  finish t r ftz (addV (r == .rdn) (readV t ftz a) (negV (readV t ftz b)))
/-- VMUL on one element (R403). -/
def fMul (t : Ty) (r : Rnd) (ftz : Bool) (a b : Nat) : Nat × Flags :=
  finish t r ftz (mulV (readV t ftz a) (readV t ftz b))
/-- VFMA on one element: one rounding (R329, R403). -/
def fFma (t : Ty) (r : Rnd) (ftz : Bool) (a b c : Nat) : Nat × Flags :=
  let p := mulV (readV t ftz a) (readV t ftz b)
  let q := addV (r == .rdn) p.1 (readV t ftz c)
  finish t r ftz (q.1, p.2 ||| q.2)

/-- The code of a magnitude's sign cleared. -/
def absBits (F : Fmt) (bits : Nat) : Nat := bits % F.signW

/-- VABS on one element: no flag, canonical NaN (R403). -/
def fAbs (t : Ty) (a : Nat) : Nat := if ((fmtOf t).val a).isNaN then (fmtOf t).nanCode else absBits (fmtOf t) a
/-- VNEG on one element: no flag, canonical NaN (R403). -/
def fNeg (t : Ty) (a : Nat) : Nat :=
  if ((fmtOf t).val a).isNaN then (fmtOf t).nanCode
  else if ((fmtOf t).val a).neg then absBits (fmtOf t) a else absBits (fmtOf t) a + (fmtOf t).signW

/-- VMIN (mx false) and VMAX (mx true) on one element (R330), operands as read under FTZ. -/
def fMinMax (t : Ty) (mx ftz : Bool) (a b : Nat) : Nat :=
  let a := ftzIn (ftzOf t ftz) a
  let b := ftzIn (ftzOf t ftz) b
  let x := (fmtOf t).val a
  let y := (fmtOf t).val b
  if x.isNaN && y.isNaN then (fmtOf t).nanCode
  else if x.isNaN then b
  else if y.isNaN then a
  else if mx then (if lt330 x y then b else a) else (if lt330 y x then b else a)

/-- VFCMP on f32: the result and its flags (R407, R330). -/
def fCmp (c : VfcmpCond) (ftz : Bool) (a b : Nat) : Bool × Flags :=
  let x := readV .f32 ftz a
  let y := readV .f32 ftz b
  let un := x.isNaN || y.isNaN
  let sig := if un then flagIV else noFlags
  match c with
  | .eq => (eqV x y, noFlags)
  | .ne => (!eqV x y, noFlags)
  | .lt => (ltV x y, noFlags)
  | .le => (ltV x y || eqV x y, noFlags)
  | .gt => (ltV y x, noFlags)
  | .ge => (ltV y x || eqV x y, noFlags)
  | .un => (un, noFlags)
  | .ord => (!un, noFlags)
  | .lts => (ltV x y, sig)
  | .les => (ltV x y || eqV x y, sig)
  | .gts => (ltV y x, sig)
  | .ges => (ltV y x || eqV x y, sig)

/-- One f32 function of R404. -/
def fUnary (f : FVal → FVal × Flags) (r : Rnd) (ftz : Bool) (a : Nat) : Nat × Flags :=
  finish .f32 r ftz (f (readV .f32 ftz a))

/-- RoundRNE(a + b) on f32 codes, subnormals honoured (R354). -/
def f32Add (a b : Nat) : Nat × Flags := fAdd .f32 .rne false a b
/-- RoundRNE(a - b) on f32 codes. -/
def f32Sub (a b : Nat) : Nat × Flags := fSub .f32 .rne false a b
/-- RoundRNE(a * b) on f32 codes. -/
def f32Mul (a b : Nat) : Nat × Flags := fMul .f32 .rne false a b
/-- RoundRNE(a / b) on f32 codes. -/
def f32Div (a b : Nat) : Nat × Flags := finish .f32 .rne false (divV (fmtF32.val a) (fmtF32.val b))

/-- Element j of width w of a 32-bit lane (R319). -/
def elem (w j : Nat) (lane : Word) : Nat := lane.toNat / 2 ^ (w * j) % 2 ^ w

/-- The 32-bit lane of its elements of width w, element 0 lowest (R319). -/
def packElems (w : Nat) : List Nat → Nat
  | [] => 0
  | x :: xs => x % 2 ^ w + 2 ^ w * packElems w xs

/-- A lane computed element by element, with the union of the flags (R403, R405). -/
def elemwise (w : Nat) (f : Nat → Nat × Flags) : Word × Flags :=
  let rs := (List.range (32 / w)).map f
  (BitVec.ofNat 32 (packElems w (rs.map (·.1))), rs.foldl (fun acc r => acc ||| r.2) noFlags)

/-- The integer of a code of an integer type (R319). -/
def intVal (t : Ty) (bits : Nat) : Int :=
  let b := bits % 2 ^ t.width
  if t.signed && decide (2 ^ (t.width - 1) ≤ b) then (b : Int) - 2 ^ t.width else b

/-- The smallest integer of a type. -/
def intMin (t : Ty) : Int := if t.signed then -(2 ^ (t.width - 1) : Nat) else 0
/-- The largest integer of a type. -/
def intMax (t : Ty) : Int := if t.signed then (2 ^ (t.width - 1) : Nat) - 1 else (2 ^ t.width : Nat) - 1
/-- An integer clamped to a type's range. -/
def clampInt (t : Ty) (x : Int) : Int := if x < intMin t then intMin t else if intMax t < x then intMax t else x
/-- The code of an integer modulo 2^w. -/
def intCode (w : Nat) (x : Int) : Nat := (x % (2 ^ w : Nat)).toNat

/-- Float to integer (R328). -/
def floatToInt (t : Ty) (r : Rnd) : FVal → Nat × Flags
  | .nan => (0, flagIV)
  | .inf s => (intCode t.width (if s then intMin t else intMax t), flagIV)
  | .fin s m e =>
    let (n, inexact) := roundAt r s m e 0
    let x : Int := if s then -(n : Int) else n
    if x < intMin t ∨ intMax t < x then (intCode t.width (clampInt t x), flagIV)
    else (intCode t.width x, if inexact then flagNX else noFlags)

/-- Float to E8M0 (R328). -/
def floatToE8M0 (r : Rnd) : FVal → Nat × Flags
  | .nan => (0xFF, flagIV)
  | .inf _ => (0xFF, flagIV)
  | .fin _ m e =>
    if m == 0 then (0, flagUF ||| flagNX)
    else
      let l := Nat.log2 m
      let ex : Int := (l : Int) + e
      let exact := m == 2 ^ l
      let up := match r with
        | .rne => decide (3 * 2 ^ l < 2 * m) || (2 * m == 3 * 2 ^ l && (ex + 127) % 2 == 1)
        | .rtz | .rdn => false
        | .rup => !exact
        | .sr k => decide (2 ^ 16 ≤ (m - 2 ^ l) * 2 ^ 16 / 2 ^ l + k)
      let ex2 := if up then ex + 1 else ex
      if 127 < ex2 then (0xFE, flagSAT ||| flagNX)
      else if ex2 < -127 then (0, flagUF ||| flagNX)
      else ((ex2 + 127).toNat, if exact then noFlags else flagNX)

/-- The value of an E8M0 code (R320). -/
def e8m0Val (bits : Nat) : FVal := if bits % 256 == 255 then .nan else .fin false 1 ((bits % 256 : Nat) - 127)

/-- The value of a code of a float type or of e8m0. -/
def fltVal (t : Ty) (bits : Nat) : FVal := if t == .e8m0 then e8m0Val bits else (fmtOf t).val bits

/-- VCVT and VPACK on one element (R328). -/
def convert (dt sy : Ty) (r : Rnd) (sat8 : Bool) (bits : Nat) : Nat × Flags :=
  let b := bits % 2 ^ sy.width
  if sy.isInt && dt.isInt then
    let x := intVal sy b
    let y := if sy.width < dt.width then x else clampInt dt x
    (intCode dt.width y, if x = y then noFlags else flagSAT)
  else if sy.isInt then
    let x := intVal sy b
    roundFin (fmtOf dt) r ⟨sat8, true⟩ (decide (x < 0)) x.natAbs 0
  else
    let v := fltVal sy b
    if dt.isInt then floatToInt dt r v
    else if dt == .e8m0 then floatToE8M0 r v
    else
      match v with
      | .nan => if dt == .e2m1 then (0, flagIV) else ((fmtOf dt).nanCode, noFlags)
      | .inf s =>
        if dt == .e5m2 && sat8 && sy != .e5m2 then ((fmtOf dt).maxCode + (if s then (fmtOf dt).signW else 0), flagSAT)
        else roundV (fmtOf dt) r ⟨sat8, true⟩ v
      | .fin .. => roundV (fmtOf dt) r ⟨sat8, true⟩ v

/-- VUNPACK on one element: exact (R412). -/
def unpackElem (dt sy : Ty) (bits : Nat) : Nat :=
  if sy.isInt then intCode dt.width (intVal sy bits) else (roundV fmtF32 .rne noOv (fltVal sy bits)).1

/-- One step of a wave's generator (R326). -/
def rngStep (s : Word) : Word :=
  let s := s ^^^ (s <<< 13)
  let s := s ^^^ (s >>> 17)
  s ^^^ (s <<< 5)

/-- The 16-bit number of a generator state (R326). -/
def rngNum (s : Word) : Nat := s.toNat / 2 ^ 16

/-- The exact sum of values, each with its flags: NaN and infinities follow IEEE 754 (R332 step 4). -/
def sumV : List (FVal × Flags) → FVal × Flags
  | [] => (.fin false 0 0, noFlags)
  | v :: vs =>
    let r := sumV vs
    let t := addV false v.1 r.1
    (t.1, v.2 ||| r.2 ||| t.2)

/-- One group added to an f32 accumulator: one RNE rounding; a zero group leaves it unchanged (R332, R333). -/
def accGroup (acc : Nat) (g : FVal × Flags) : Nat × Flags :=
  if g.1.isZero then (acc, g.2)
  else
    let t := addV false (fmtF32.val acc) g.1
    let (c, fl) := roundV fmtF32 .rne noOv t.1
    (c, fl ||| t.2 ||| g.2)

/-- The product of a list of values. -/
def prodV : List FVal → FVal × Flags
  | [] => (.fin false 1 0, noFlags)
  | v :: vs =>
    let r := prodV vs
    let t := mulV v r.1
    (t.1, r.2 ||| t.2)

/-- A block's contribution: P * s_a * s_b rounded once to f32 (R335 step 2). -/
def blockContrib (p : FVal × Flags) (sa sb : FVal) : Nat × Flags :=
  let t := prodV [p.1, sa, sb]
  let (c, fl) := roundV fmtF32 .rne noOv t.1
  (c, fl ||| t.2 ||| p.2)

/-- A contribution added to the accumulator: one RNE rounding, zero leaves it unchanged (R335 step 3, R333). -/
def accContrib (acc : Nat) (c : Nat × Flags) : Nat × Flags := accGroup acc (fmtF32.val c.1, c.2)

/-- acc * t_a * t_b rounded once to f32 (R335 step 4). -/
def tensorScale (acc ta tb : Nat) : Nat × Flags :=
  let t := prodV [fmtF32.val acc, fmtF32.val ta, fmtF32.val tb]
  let (c, fl) := roundV fmtF32 .rne noOv t.1
  (c, fl ||| t.2)

end Sys2Proof.Machine
end

