-- ==== Sys2Proof/Decode.lean ====
section
/-! DEFINITION. From bytes to instructions (R340 to R345, R352, R362 to R369, R397, R420, R448, R467), total, and after it
the encoder, written from the same tables.  `none` means that the bytes are no instruction: the step then raises ILLEGAL
(exact). -/
namespace Sys2Proof

/-- An instruction with its reserved-field test: refused when a reserved field is not zero or an operand is illegal (R352). -/
def req (reserved : Bool) (i : Instr) : Option Instr := if reserved && i.wf then some i else none

/-- The fields of the 64-bit format (R344). -/
structure F64 where
  op : Nat
  d : Nat
  a : Nat
  b : Nat
  c : Nat
  k : Nat
  inv : Nat
  ty : Nat
  mod : Nat
  aux : Nat
  deriving DecidableEq, Repr

/-- The fields cut out of a 64-bit instruction (R344). -/
def unpack64 (w : Nat) : F64 :=
  { op := w / 2 ^ 2 % 256, d := w / 2 ^ 10 % 256, a := w / 2 ^ 18 % 256, b := w / 2 ^ 26 % 256, c := w / 2 ^ 34 % 256,
    k := w / 2 ^ 42 % 8, inv := w / 2 ^ 45 % 2, ty := w / 2 ^ 46 % 16, mod := w / 2 ^ 50 % 64, aux := w / 2 ^ 56 % 256 }

/-- The mask operand of bits [45:42]. -/
def F64.mask (f : F64) : MaskOp := ⟨f.k, f.inv == 1⟩
/-- mask = 0 and invert = 0, as an instruction without a mask requires (R344). -/
def F64.noMask (f : F64) : Bool := f.k == 0 && f.inv == 0
/-- disp16: b holds bits [7:0] and c bits [15:8] (R420). -/
def F64.disp (f : F64) : BitVec 16 := BitVec.ofNat 16 (f.b + 256 * f.c)
/-- The ordering of aux8[4:0] (R369). -/
def F64.ord (f : F64) : MemOrd := ⟨f.aux / 8 % 4, f.aux % 8⟩
/-- The scale of aux8[6:5] (R420). -/
def F64.scale (f : F64) : Nat := f.aux / 32 % 4

/-- The operation of mod6[2:0] (R369). -/
def AtomOp.ofCode : Nat → AtomOp
  | 0 => .add | 1 => .min | 2 => .max | 3 => .and | 4 => .or | 5 => .xor | 6 => .exch | _ => .cas
/-- The code of an operation (R369). -/
def AtomOp.code : AtomOp → Nat
  | .add => 0 | .min => 1 | .max => 2 | .and => 3 | .or => 4 | .xor => 5 | .exch => 6 | .cas => 7
/-- VCMP conditions by code (R369). -/
def VcmpCond.ofCode : Nat → Option VcmpCond
  | 0 => some .eq | 1 => some .ne | 2 => some .lt | 3 => some .le | 4 => some .gt | 5 => some .ge | _ => none
/-- The code of a VCMP condition (R369). -/
def VcmpCond.code : VcmpCond → Nat
  | .eq => 0 | .ne => 1 | .lt => 2 | .le => 3 | .gt => 4 | .ge => 5
/-- VFCMP conditions by code (R369). -/
def VfcmpCond.ofCode : Nat → Option VfcmpCond
  | 0 => some .eq | 1 => some .ne | 2 => some .lt | 3 => some .le | 4 => some .gt | 5 => some .ge
  | 6 => some .un | 7 => some .ord | 8 => some .lts | 9 => some .les | 10 => some .gts | 11 => some .ges | _ => none
/-- The code of a VFCMP condition (R369). -/
def VfcmpCond.code : VfcmpCond → Nat
  | .eq => 0 | .ne => 1 | .lt => 2 | .le => 3 | .gt => 4 | .ge => 5
  | .un => 6 | .ord => 7 | .lts => 8 | .les => 9 | .gts => 10 | .ges => 11
/-- WAITC counters by code (R369). -/
def Ctr.ofCode : Nat → Option Ctr
  | 0 => some .gld | 1 => some .gst | 2 => some .scr | 3 => some .cpy | 4 => some .mtx | 5 => some .svc | _ => none
/-- The code of a counter (R369). -/
def Ctr.code : Ctr → Nat
  | .gld => 0 | .gst => 1 | .scr => 2 | .cpy => 3 | .mtx => 4 | .svc => 5
/-- CMP conditions by code (R365). -/
def CmpCond.ofCode : Nat → Option CmpCond
  | 0 => some .eq | 1 => some .ne | 2 => some .lt | 3 => some .ge | 4 => some .ltn | 5 => some .gen | _ => none
/-- The code of a CMP condition (R365). -/
def CmpCond.code : CmpCond → Nat
  | .eq => 0 | .ne => 1 | .lt => 2 | .ge => 3 | .ltn => 4 | .gen => 5
/-- BR conditions by code (R365). -/
def BrCond.ofCode : Nat → Option BrCond
  | 0 => some .eqz | 1 => some .nez | 2 => some .ltz | 3 => some .gez | 4 => some .gtz | 5 => some .lez | _ => none
/-- The code of a BR condition (R365). -/
def BrCond.code : BrCond → Nat
  | .eqz => 0 | .nez => 1 | .ltz => 2 | .gez => 3 | .gtz => 4 | .lez => 5
/-- BRM conditions by code (R365). -/
def BrmCond.ofCode : Nat → Option BrmCond
  | 0 => some .any | 1 => some .all | 2 => some .none | 3 => some .nall | _ => Option.none
/-- The code of a BRM condition (R365). -/
def BrmCond.code : BrmCond → Nat
  | .any => 0 | .all => 1 | .none => 2 | .nall => 3

/-- The 16-bit forms (R362). -/
def decode16 (h : Nat) : Option Instr :=
  let r := h / 2 ^ 6 % 32
  let s := h / 2 ^ 11 % 32
  match h / 2 % 32 with
  | 1 => req true (.add16 r s)
  | 2 => req true (.sub16 r s)
  | 3 => req true (.and16 r s)
  | 4 => req true (.or16 r s)
  | 5 => req true (.xor16 r s)
  | 6 => req true (.shl16 r s)
  | 7 => req true (.shr16 r s)
  | 8 => req true (.sra16 r s)
  | 9 => req true (.mul16 r s)
  | 10 => req true (.min16 r s)
  | 11 => req true (.max16 r s)
  | 12 => req true (.slt16 r s)
  | 13 => req true (.addSz16 r s)
  | 14 => req true (.addi16 r (BitVec.ofNat 5 s))
  | 15 => req true (.addiSz16 r (BitVec.ofNat 5 s))
  | 16 => req true (.andi16 r (BitVec.ofNat 5 s))
  | 17 => req true (.shli16 r s)
  | 18 => req true (.shri16 r s)
  | 19 => req true (.srai16 r s)
  | 20 => req true (.slti16 r (BitVec.ofNat 5 s))
  | 21 => req true (.kget16 r s)
  | 22 => req true (.kset16 r s)
  | 23 => req true (.clz16 r s)
  | 24 => req true (.popc16 r s)
  | 31 =>
    match r with
    | 0 => req (s == 0) .nop16
    | 1 => req (s == 0) .yield16
    | 2 => req (s == 0) .exit16
    | 3 => req (s == 0) .bkpt16
    | 4 => req (s == 0) .uiret16
    | 5 => req (s == 0) .ret16
    | _ => none
  | _ => none

/-- Major 0x01, by f (R364). -/
def decodeArith (f b a d : Nat) : Option Instr :=
  match f with
  | 0x00 => req true (.add d a b)
  | 0x01 => req true (.sub d a b)
  | 0x02 => req true (.and d a b)
  | 0x03 => req true (.or d a b)
  | 0x04 => req true (.xor d a b)
  | 0x05 => req true (.shl d a b)
  | 0x06 => req true (.shr d a b)
  | 0x07 => req true (.sra d a b)
  | 0x08 => req true (.mul d a b)
  | 0x09 => req true (.mulh d a b)
  | 0x0A => req true (.mulhn d a b)
  | 0x0B => req true (.div d a b)
  | 0x0C => req true (.divn d a b)
  | 0x0D => req true (.rem d a b)
  | 0x0E => req true (.remn d a b)
  | 0x10 => req true (.min d a b)
  | 0x11 => req true (.max d a b)
  | 0x12 => req true (.minn d a b)
  | 0x13 => req true (.maxn d a b)
  | 0x14 => req true (.slt d a b)
  | 0x15 => req true (.sltn d a b)
  | 0x18 => req (b == 0) (.clz d a)
  | 0x19 => req (b == 0) (.popc d a)
  | 0x1A => req (b == 0) (.brev d a)
  | 0x20 => req true (.add64 d a b)
  | 0x21 => req true (.sub64 d a b)
  | 0x22 => req true (.shl64 d a b)
  | 0x28 => req true (.lea d a b 0)
  | 0x29 => req true (.lea d a b 1)
  | 0x2A => req true (.lea d a b 2)
  | 0x2B => req true (.lea d a b 3)
  | _ => none

/-- Majors 0x3B and 0x3E, by the SYS function (R366). -/
def decodeSys (major fn a d : Nat) : Option Instr :=
  if major == 0x3B then
    if fn / 16 == 1 then req (a == 0) (.qgive d (fn % 16))
    else if fn / 16 == 2 then req (a == 0) (.qtake d (fn % 16))
    else if fn / 64 == 1 then req (a == 0) (.gjoin d (fn % 64))
    else if fn == 0x80 then req (a == 0) (.gleave d)
    else none
  else
    match fn with
    | 0 => req (a == 0 && d == 0) .nop
    | 1 => req (a == 0 && d == 0) .yield
    | 2 => req (a == 0 && d == 0) .exit
    | 3 => req (a == 0 && d == 0) .bkpt
    | 4 => req (a == 0 && d == 0) .uiret
    | 5 => req (a == 0 && d == 0) .ret
    | 6 => req (d == 0) (.jr a)
    | 7 => req (a == 0 && d == 0) .vreconv
    | 8 => req (a == 0 && d == 0) .resume
    | _ => none

/-- The 32-bit forms (R343, R363). -/
def decode32 (w : Nat) : Option Instr :=
  let d := w / 2 ^ 8 % 64
  let a := w / 2 ^ 14 % 64
  let b := w / 2 ^ 20 % 64
  let f := w / 2 ^ 26 % 64
  let imm := w / 2 ^ 20 % 4096
  let i12 := BitVec.ofNat 12 imm
  let off := BitVec.ofNat 14 (w / 2 ^ 18)
  let ba := w / 2 ^ 12 % 64
  let cond := w / 2 ^ 9 % 8
  let u := w / 2 ^ 8 % 2
  let off24 := BitVec.ofNat 24 (w / 2 ^ 8)
  match w / 4 % 64 with
  | 0x01 => decodeArith f b a d
  | 0x02 => req true (.sel d f a b)
  | 0x03 => req true (.mad64 d a b f)
  | 0x04 => req true (.bfx d a b f)
  | 0x05 => req true (.bfi d a b f)
  | 0x06 => (CmpCond.ofCode f).bind fun c => req true (.cmp c d a b)
  | 0x07 =>
    match f with
    | 0 => req true (.pand d a b)
    | 1 => req true (.por d a b)
    | 2 => req (b == 0) (.pnot d a)
    | _ => none
  | 0x08 => req true (.addi d a i12)
  | 0x09 => req true (.andi d a i12)
  | 0x0A => req true (.ori d a i12)
  | 0x0B => req true (.xori d a i12)
  | 0x0C => req true (.slti d a i12)
  | 0x0D => req true (.shli d a imm)
  | 0x0E => req true (.shri d a imm)
  | 0x0F => req true (.srai d a imm)
  | 0x10 => req true (.addi64 d a i12)
  | 0x11 => req true (.lui d (BitVec.ofNat 18 (w / 2 ^ 14)))
  | 0x18 => (BrCond.ofCode cond).bind fun c => req (u == 1) (.br c ba off)
  | 0x19 => req (u == 1 && cond < 2) (.brp (cond == 1) ba off)
  | 0x1A => (BrmCond.ofCode cond).bind fun c => req (u == 1) (.brm c ba off)
  | 0x1B => req (cond < 2) (.vbr (cond == 1) (u == 1) ba off)
  | 0x1C => req true (.jmp off24)
  | 0x1D => req true (.call off24)
  | 0x30 => req (a == 0) (.kget d imm)
  | 0x31 => req (d == 0) (.kset imm a)
  | 0x32 => req (a == 0) (.ctlr d imm)
  | 0x33 => req (d == 0) (.ctlw imm a)
  | 0x34 => req (d == 0) (.ctls imm a)
  | 0x35 => req (d == 0) (.ctlc imm a)
  | 0x36 => req (a == 0 && d == 0) (.trap imm)
  | 0x37 => req (a == 0 && d == 0) (.svc imm)
  | 0x3B => decodeSys 0x3B imm a d
  | 0x3E => decodeSys 0x3E imm a d
  | _ => none

/-- op8 0x10 to 0x1C: floating-point arithmetic (R397). -/
def decodeVFloat (f : F64) : Option Instr :=
  let t := Ty.ofCode f.ty
  let k := f.mask
  match f.op with
  | 0x10 => req (f.c == 0 && f.aux == 0) (.vadd t f.mod k f.d f.a f.b)
  | 0x11 => req (f.c == 0 && f.aux == 0) (.vsub t f.mod k f.d f.a f.b)
  | 0x12 => req (f.c == 0 && f.aux == 0) (.vmul t f.mod k f.d f.a f.b)
  | 0x13 => req (f.c == 0 && f.mod == 0 && f.aux == 0) (.vmin t k f.d f.a f.b)
  | 0x14 => req (f.aux == 0) (.vfma t f.mod k f.d f.a f.b f.c)
  | 0x15 => req (f.c == 0 && f.mod == 0 && f.aux == 0) (.vmax t k f.d f.a f.b)
  | 0x16 => req (f.b == 0 && f.c == 0 && f.mod == 0 && f.aux == 0) (.vabs t k f.d f.a)
  | 0x17 => req (f.b == 0 && f.c == 0 && f.mod == 0 && f.aux == 0) (.vneg t k f.d f.a)
  | 0x18 => req (f.b == 0 && f.c == 0 && f.ty == 0 && f.aux == 0) (.vrcp f.mod k f.d f.a)
  | 0x19 => req (f.b == 0 && f.c == 0 && f.ty == 0 && f.aux == 0) (.vrsq f.mod k f.d f.a)
  | 0x1A => req (f.b == 0 && f.c == 0 && f.ty == 0 && f.aux == 0) (.vsqrt f.mod k f.d f.a)
  | 0x1B => req (f.b == 0 && f.c == 0 && f.ty == 0 && f.aux == 0) (.vexp2 f.mod k f.d f.a)
  | 0x1C => req (f.b == 0 && f.c == 0 && f.ty == 0 && f.aux == 0) (.vlog2 f.mod k f.d f.a)
  | _ => none

/-- The shift amount of VSHL, VSHR and VSRA (R397, R406). -/
def F64.shAmt (f : F64) : ShAmt := if f.aux / 32 % 2 == 1 then .imm (f.aux % 32) else .reg f.b
/-- The reserved fields of a shift: b in the immediate form, the amount otherwise. -/
def F64.shOk (f : F64) : Bool :=
  f.c == 0 && f.ty == 0 && f.mod == 0 && f.aux < 64 && (if f.aux / 32 % 2 == 1 then f.b == 0 else f.aux == 0)

/-- op8 0x20 to 0x2E: integer arithmetic, logic and shifts (R397). -/
def decodeVInt (f : F64) : Option Instr :=
  let t := Ty.ofCode f.ty
  let k := f.mask
  match f.op with
  | 0x20 => req (f.c == 0 && f.mod == 0 && f.aux < 2) (.viadd (f.aux == 1) t k f.d f.a f.b)
  | 0x21 => req (f.c == 0 && f.mod == 0 && f.aux < 2) (.visub (f.aux == 1) t k f.d f.a f.b)
  | 0x22 => req (f.c == 0 && f.mod == 0 && (f.aux == 0 || f.aux == 2)) (.vimul (f.aux == 2) t k f.d f.a f.b)
  | 0x23 => req (f.mod == 0 && f.aux == 0) (.vimad t k f.d f.a f.b f.c)
  | 0x24 => req (f.c == 0 && f.mod == 0 && f.aux == 0) (.vimin t k f.d f.a f.b)
  | 0x25 => req (f.c == 0 && f.mod == 0 && f.aux == 0) (.vimax t k f.d f.a f.b)
  | 0x28 => req (f.c == 0 && f.ty == 0 && f.mod == 0 && f.aux == 0) (.vand k f.d f.a f.b)
  | 0x29 => req (f.c == 0 && f.ty == 0 && f.mod == 0 && f.aux == 0) (.vor k f.d f.a f.b)
  | 0x2A => req (f.c == 0 && f.ty == 0 && f.mod == 0 && f.aux == 0) (.vxor k f.d f.a f.b)
  | 0x2B => req (f.b == 0 && f.c == 0 && f.ty == 0 && f.mod == 0 && f.aux == 0) (.vnot k f.d f.a)
  | 0x2C => req f.shOk (.vshl k f.d f.a f.shAmt)
  | 0x2D => req f.shOk (.vshr k f.d f.a f.shAmt)
  | 0x2E => req f.shOk (.vsra k f.d f.a f.shAmt)
  | _ => none

/-- VSHUF's mode and its reserved fields (R397, R410). -/
def decodeShuf (f : F64) : Option Instr :=
  match f.mod with
  | 0 => req (f.c == 0 && f.ty == 0 && f.aux == 0) (.vshuf (.idx f.b) f.mask f.d f.a)
  | 1 => req (f.b == 0 && f.c == 0 && f.ty == 0) (.vshuf (.xor f.aux) f.mask f.d f.a)
  | 2 => req (f.b == 0 && f.c == 0 && f.ty == 0) (.vshuf (.up f.aux) f.mask f.d f.a)
  | 3 => req (f.b == 0 && f.c == 0 && f.ty == 0) (.vshuf (.down f.aux) f.mask f.d f.a)
  | _ => none

/-- VLANE's form (R410). -/
def decodeLane (f : F64) : Option Instr :=
  match f.aux with
  | 0 => req (f.c == 0 && f.ty == 0 && f.mod == 0 && f.noMask) (.vlane (.get f.d f.a f.b))
  | 1 => req (f.c == 0 && f.ty == 0 && f.mod == 0 && f.noMask) (.vlane (.put f.d f.a f.b))
  | 2 => req (f.a == 0 && f.b == 0 && f.c == 0 && f.ty == 0 && f.mod == 0) (.vlane (.id f.mask f.d))
  | _ => none

/-- op8 0x30 to 0x3C: compares, selection, moves, folds and lane movement (R397). -/
def decodeVMove (f : F64) : Option Instr :=
  let t := Ty.ofCode f.ty
  let k := f.mask
  match f.op with
  | 0x30 => (VcmpCond.ofCode f.mod).bind fun c => req (f.c == 0 && f.aux == 0) (.vcmp c t k f.d f.a f.b)
  | 0x31 => (VfcmpCond.ofCode f.mod).bind fun c => req (f.c == 0 && f.ty == 0 && f.aux == 0) (.vfcmp c k f.d f.a f.b)
  | 0x32 => req (f.ty == 0 && f.mod == 0 && f.aux == 0) (.vsel k f.d f.a f.b f.c)
  | 0x33 => req (f.b == 0 && f.c == 0 && f.ty == 0 && f.mod == 0 && f.aux == 0) (.vmov k f.d f.a)
  | 0x34 => req (f.b == 0 && f.c == 0 && f.ty == 0 && f.mod == 0 && f.aux == 0) (.vbcast k f.d f.a)
  | 0x38 => req (f.b == 0 && f.c == 0 && f.mod < 6 && f.aux == 0) (.vred (AtomOp.ofCode f.mod) t k f.d f.a)
  | 0x39 => decodeShuf f
  | 0x3A => req (f.b == 0 && f.c == 0 && f.mod < 6 && f.aux < 2) (.vscan (AtomOp.ofCode f.mod) (f.aux == 1) t k f.d f.a)
  | 0x3B => req (f.b == 0 && f.c == 0 && f.ty == 0 && f.mod == 0 && f.aux == 0) (.vballot k f.d f.a)
  | 0x3C => decodeLane f
  | _ => none

/-- VDOT's tensor-scale pair (R414). -/
def F64.dotTs (f : F64) : Option Nat := if f.mod / 4 == 1 then some (f.aux % 64) else none
/-- VDOT's reserved bits (R369, R413, R414). -/
def F64.dotOk (f : F64) : Bool := f.mod < 8 && f.aux < 128 && (f.mod / 4 == 1 || f.aux % 64 == 0)
/-- The second operand of MAND, MOR and MXOR (R418). -/
def F64.maskSrc (f : F64) : MaskSrc := if f.aux == 1 then .s f.b else .m f.b
/-- The reserved fields of the mask-register operations. -/
def F64.mskOk (f : F64) : Bool := f.noMask && f.c == 0 && f.ty == 0 && f.mod == 0

/-- op8 0x40 to 0x4D: conversions, dot products, keys and mask registers (R397). -/
def decodeVConv (f : F64) : Option Instr :=
  let t := Ty.ofCode f.ty
  let k := f.mask
  match f.op with
  | 0x40 => req (f.b == 0 && f.c == 0 && f.aux < 16) (.vcvt t (Ty.ofCode f.aux) f.mod k f.d f.a)
  | 0x41 => req (f.b == 0 && f.c == 0 && f.aux < 16) (.vpack t (Ty.ofCode f.aux) f.mod k f.d f.a)
  | 0x42 => req (f.b == 0 && f.c == 0 && f.mod == 0 && f.aux < 16) (.vunpack t (Ty.ofCode f.aux) k f.d f.a)
  | 0x43 => req f.dotOk (.vdot t (f.mod % 4) (f.aux / 64 == 1) f.dotTs k f.d f.a f.b f.c)
  | 0x44 => req (f.noMask && f.b == 0 && f.c == 0 && f.ty == 0 && f.mod == 0 && f.aux == 0) (.vunif f.d f.a)
  | 0x45 => req (f.mod == 0 && f.aux < 2) (.vmorton (f.aux == 1) t k f.d f.a f.b f.c)
  | 0x46 => req (f.c == 0 && f.ty == 0 && f.mod == 0) (.vhash f.aux k f.d f.a f.b)
  | 0x48 => req (f.mskOk && f.aux < 2) (.mand f.d f.a f.maskSrc)
  | 0x49 => req (f.mskOk && f.aux < 2) (.mor f.d f.a f.maskSrc)
  | 0x4A => req (f.mskOk && f.aux < 2) (.mxor f.d f.a f.maskSrc)
  | 0x4B => req (f.mskOk && f.b == 0 && f.aux == 0) (.mnot f.d f.a)
  | 0x4C => req (f.mskOk && f.b == 0 && f.aux == 0) (.mpop f.d f.a)
  | 0x4D => req (f.mskOk && f.b == 0 && f.aux == 0) (.mfirst f.d f.a)
  | _ => none

/-- The memory operand of a scratch access: mod6[5] chooses the .v form (R369, R420). -/
def F64.smem (f : F64) : SMem := if f.mod / 32 == 1 then .vec f.mask f.b f.scale else .disp f.disp
/-- The reserved fields of a scratch access: c in the .v form; mask and scale without .v. -/
def F64.smemOk (f : F64) : Bool :=
  f.aux < 128 && (if f.mod / 32 == 1 then f.c == 0 else f.noMask && f.scale == 0)

/-- op8 0x60 to 0x6E: loads, stores and scratch accesses (R420). -/
def decodeMem (f : F64) : Option Instr :=
  let t := Ty.ofCode f.ty
  let k := f.mask
  let w := f.mod % 2 == 1
  match f.op with
  | 0x60 => req (f.noMask && f.mod < 2 && f.aux < 32) (.ld t w f.ord f.d f.a f.disp)
  | 0x61 => req (f.noMask && f.mod < 2 && f.aux < 32) (.st t w f.ord f.d f.a f.disp)
  | 0x62 => req (f.mod < 2 && f.aux < 32) (.vld t w f.ord k f.d f.a f.disp)
  | 0x63 => req (f.mod < 2 && f.aux < 32) (.vst t w f.ord k f.d f.a f.disp)
  | 0x64 => req (f.c == 0 && f.mod < 2) (.vgather (f.aux / 128 == 1) t w f.scale f.ord k f.d f.a f.b)
  | 0x65 => req (f.c == 0 && f.mod < 2 && f.aux < 128) (.vscatter t w f.scale f.ord k f.d f.a f.b)
  | 0x68 => req (f.smemOk && f.mod % 32 < 2) (.sld t w f.ord f.smem f.d f.a)
  | 0x69 => req (f.smemOk && f.mod % 32 < 2) (.sst t w f.ord f.smem f.d f.a)
  | 0x6A => req (f.smemOk && f.mod % 32 < 2 && f.aux % 32 == 0) (.sldM t w f.smem f.d f.a)
  | 0x6B => req (f.smemOk && f.mod % 32 < 2 && f.aux % 32 == 0) (.sstM t w f.smem f.d f.a)
  | 0x6C => req (f.smemOk && f.mod % 32 < 2 && f.aux % 32 == 0) (.syncld w t f.smem f.d f.a)
  | 0x6D => req (f.smemOk && f.mod % 32 == 0 && f.aux % 32 == 0) (.syncst t f.smem f.d f.a)
  | 0x6E => req (f.smemOk && f.mod % 32 < 2 && f.aux % 32 == 0 && f.d == 0 && f.ty == 0) (.feset w f.smem f.a)
  | _ => none

/-- All fields but aux8 of an instruction that names only the given ones: the rest must be zero. -/
def F64.only (f : F64) (d a b c : Bool) : Bool :=
  f.noMask && f.ty == 0 && f.mod == 0 && (d || f.d == 0) && (a || f.a == 0) && (b || f.b == 0) && (c || f.c == 0)

/-- op8 0x70 to 0x87: atomics, fences, barriers, events, mailboxes, queues and cache control (R420). -/
def decodeSync (f : F64) : Option Instr :=
  let t := Ty.ofCode f.ty
  let k := f.mask
  let op := AtomOp.ofCode (f.mod % 8)
  match f.op with
  | 0x70 => req (f.noMask && f.mod < 16 && f.aux < 64)
      (.atom op (f.mod / 8 == 1) t (f.aux / 32 == 1) f.ord f.d f.a f.b f.c)
  | 0x71 => req (f.noMask && f.mod < 8 && f.aux < 64 && f.d == 0 && f.c == 0) (.red op t (f.aux / 32 == 1) f.ord f.a f.b)
  | 0x72 => req (f.mod < 16 && f.aux < 128) (.vatom op (f.mod / 8 == 1) t f.scale f.ord k f.d f.a f.b f.c)
  | 0x73 => req (f.mod < 8 && f.aux < 128 && f.d == 0) (.vredm op t f.scale f.ord k f.a f.b f.c)
  | 0x74 => req (f.only false false false false && f.aux < 32) (.fence (f.aux / 8) (f.aux % 8))
  | 0x78 => req (f.only false true false false) (.bar f.aux f.a)
  | 0x79 => req (f.only false true false false) (.bara f.aux f.a)
  | 0x7A => req (f.only false false false false) (.barw f.aux)
  | 0x7B => req (f.only false false false false && f.aux == 0) .mbar
  | 0x7C => req (f.only false true false false) (.evsig f.aux f.a)
  | 0x7D => req (f.only false true true false) (.evmsg f.aux f.a f.b)
  | 0x7E => (Ctr.ofCode f.mod).bind fun c =>
      req (f.noMask && f.ty == 0 && f.d == 0 && f.b == 0 && f.c == 0 && f.aux == 0) (.waitc c f.a)
  | 0x80 => req (f.only false true false false) (.mbw f.aux f.a)
  | 0x81 => req (f.only true false false false && f.aux == 0) (.mbstat f.d)
  | 0x82 => req (f.only true true true false && f.aux == 0) (.qpush f.d f.a f.b)
  | 0x83 => req (f.only true true true false && f.aux == 0) (.qpop f.d f.a f.b)
  | 0x84 => req (f.only true false true false && f.aux == 0) (.qstat f.d f.b)
  | 0x85 => req (f.only false true true true && f.aux == 0) (.cinv f.a f.disp)
  | 0x86 => req (f.only false true true true && f.aux == 0) (.cflush f.a f.disp)
  | 0x87 => req (f.only false true true true && f.aux == 0) (.pref f.a f.disp)
  | _ => none

/-- op8 0xA0 to 0xAF: the matrix array (R448). -/
def decodeMatrix (f : F64) : Option Instr :=
  let t := Ty.ofCode f.ty
  match f.op with
  | 0xA0 => req (f.only true false false false && f.aux == 0) (.macq f.d)
  | 0xA1 => req (f.only true false false false && f.aux == 0) (.mrel f.d)
  | 0xA2 => req (f.only true false false false) (.accalloc f.d f.aux)
  | 0xA3 => req (f.only false true false false && f.aux == 0) (.accfree f.a)
  | 0xA4 => req (f.only true false false false && f.aux == 0) (.acczero f.d)
  | 0xA5 => req (f.only true true true true && f.aux == 0) (.tmld f.d f.a f.disp)
  | 0xA6 => req (f.only true true true true && f.aux == 0) (.stset f.d f.a f.b f.c)
  | 0xA7 => req (f.only true true false false && f.aux == 0) (.stadv f.d f.a)
  | 0xA8 => req (f.only false true false false && f.aux < 16) (.rep f.a (f.aux + 1))
  | 0xA9 => req (f.only true true true true && f.aux < 16)
      (.mlds (f.aux % 4) (f.aux / 4 % 2 == 1) (f.aux / 8 == 1) f.d f.a f.b f.c)
  | 0xAA => req (f.only false false false false && f.aux == 0) .mflip
  | 0xAB => req (f.noMask && f.mod == 0 && f.aux < 128) (.mstream t f.d f.a f.b f.c f.aux)
  | 0xAC => req (f.noMask && f.mod == 0 && f.aux < 128) (.mstreamSp t f.d f.a f.b f.c f.aux)
  | 0xAD => req (f.only true true true true && f.aux < 4) (.mdrain (f.aux % 2 == 1) (f.aux / 2 == 1) f.d f.a f.b f.c)
  | 0xAE => req (f.only true true true true && f.aux < 4) (.mdrainAdd (f.aux % 2 == 1) (f.aux / 2 == 1) f.d f.a f.b f.c)
  | 0xAF => req (f.only true false false false && f.aux == 0) (.mstep f.d)
  | _ => none

/-- op8 0xC0 to 0xCE: travel, rays, services and transactions (R467). -/
def decodeTravel (f : F64) : Option Instr :=
  match f.op with
  | 0xC0 => req (f.noMask && f.ty == 0 && f.mod < 2) (.send (f.mod == 1) f.aux f.d f.a f.b f.c)
  | 0xC1 => req (f.noMask && f.ty == 0 && f.mod < 2 && f.d == 0 && f.a == 0 && f.c == 0 && f.aux == 0)
      (.migrate (f.mod == 1) f.b)
  | 0xC2 => req (f.only true true true false && f.aux == 0) (.seglook f.d f.a f.b)
  | 0xC3 => req (f.only false true false false && f.aux == 0) (.hitpush f.a)
  | 0xC4 => req (f.only true true false false && f.aux == 0) (.hitpop f.d f.a)
  | 0xC5 => req (f.only true true true true && f.aux == 0) (.boxt f.d f.a f.b f.c)
  | 0xC6 => req (f.only true true true false && f.aux < 2) (.trit (f.aux == 1) f.d f.a f.b)
  | 0xC8 => req (f.only false true false false) (.svreq f.aux f.a)
  | 0xC9 => req (f.only true false false false) (.svpop f.aux f.d)
  | 0xCA => req (f.only true true true false && f.aux == 0) (.launch f.d f.a f.b)
  | 0xCB => req (f.only false false false false && f.aux == 0) .mstone
  | 0xCC => req (f.only false true false false && f.aux == 0) (.tabort f.a)
  | 0xCD => req (f.only true false false false && f.aux == 0) (.tstat f.d)
  | 0xCE => req (f.only false true false false) (.prept f.a f.aux)
  | _ => none

/-- The 64-bit forms, by op8 (R367); LI alone uses the wide-immediate layout (R345, R376). -/
def decode64 (w : Nat) : Option Instr :=
  let f := unpack64 w
  if f.op == 0xF0 then req (f.a == 0 && w / 2 ^ 58 == 0) (.li f.d (BitVec.ofNat 32 (w / 2 ^ 26)))
  else if f.op < 0x10 then none
  else if f.op < 0x20 then decodeVFloat f
  else if f.op < 0x30 then decodeVInt f
  else if f.op < 0x40 then decodeVMove f
  else if f.op < 0x50 then decodeVConv f
  else if f.op < 0x60 then none
  else if f.op < 0x70 then decodeMem f
  else if f.op < 0x90 then decodeSync f
  else if f.op < 0xB0 then decodeMatrix f
  else decodeTravel f

/-- The value of bytes in little-endian order. -/
def leNat : List Byte → Nat
  | [] => 0
  | b :: bs => b.toNat + 256 * leNat bs

/-- The low n bytes of a number in little-endian order. -/
def leBytes : Nat → Nat → List Byte
  | 0, _ => []
  | n + 1, v => BitVec.ofNat 8 v :: leBytes n (v / 256)

/-- The length in bytes that the first halfword fixes (R340). -/
def lengthOf (h : Nat) : Nat := if h % 2 == 0 then 2 else if h % 4 == 1 then 4 else 8

/-- The instruction of a number whose low bits are its bytes, by its length (R340). -/
def decodeNat (w : Nat) : Option Instr :=
  if w % 2 == 0 then decode16 (w % 2 ^ 16)
  else if w % 4 == 1 then decode32 (w % 2 ^ 32)
  else decode64 (w % 2 ^ 64)

/-- The instruction at the head of a byte stream: none where the stream is too short or is no instruction (R340, R352). -/
def decode (bs : List Byte) : Option Instr :=
  match bs with
  | b0 :: b1 :: _ =>
    let n := lengthOf (leNat [b0, b1])
    if bs.length < n then none else decodeNat (leNat (bs.take n))
  | _ => none

/-- The length of an instruction's encoding in bytes; 0 for a hardware event, which has none (R340). -/
def Instr.len : Instr → Nat
  | .add16 .. | .sub16 .. | .and16 .. | .or16 .. | .xor16 .. | .shl16 .. | .shr16 .. | .sra16 .. | .mul16 ..
  | .min16 .. | .max16 .. | .slt16 .. | .addSz16 .. | .addi16 .. | .addiSz16 .. | .andi16 .. | .shli16 .. | .shri16 ..
  | .srai16 .. | .slti16 .. | .kget16 .. | .kset16 .. | .clz16 .. | .popc16 .. | .nop16 | .yield16 | .exit16 | .bkpt16
  | .uiret16 | .ret16 => 2
  | .add .. | .sub .. | .and .. | .or .. | .xor .. | .shl .. | .shr .. | .sra .. | .mul .. | .mulh .. | .mulhn ..
  | .div .. | .divn .. | .rem .. | .remn .. | .min .. | .max .. | .minn .. | .maxn .. | .slt .. | .sltn .. | .clz ..
  | .popc .. | .brev .. | .add64 .. | .sub64 .. | .shl64 .. | .lea .. | .sel .. | .mad64 .. | .bfx .. | .bfi ..
  | .cmp .. | .pand .. | .por .. | .pnot .. | .addi .. | .andi .. | .ori .. | .xori .. | .slti .. | .shli .. | .shri ..
  | .srai .. | .addi64 .. | .lui .. | .br .. | .brp .. | .brm .. | .vbr .. | .jmp .. | .call .. | .kget .. | .kset ..
  | .ctlr .. | .ctlw .. | .ctls .. | .ctlc .. | .trap .. | .svc .. | .qgive .. | .qtake .. | .gjoin .. | .gleave ..
  | .nop | .yield | .exit | .bkpt | .uiret | .ret | .jr .. | .vreconv | .resume => 4
  | .li .. | .vadd .. | .vsub .. | .vmul .. | .vmin .. | .vfma .. | .vmax .. | .vabs .. | .vneg .. | .vrcp ..
  | .vrsq .. | .vsqrt .. | .vexp2 .. | .vlog2 .. | .viadd .. | .visub .. | .vimul .. | .vimad .. | .vimin ..
  | .vimax .. | .vand .. | .vor .. | .vxor .. | .vnot .. | .vshl .. | .vshr .. | .vsra .. | .vcmp .. | .vfcmp ..
  | .vsel .. | .vmov .. | .vbcast .. | .vred .. | .vshuf .. | .vscan .. | .vballot .. | .vlane .. | .vcvt ..
  | .vpack .. | .vunpack .. | .vdot .. | .vunif .. | .vmorton .. | .vhash .. | .mand .. | .mor .. | .mxor ..
  | .mnot .. | .mpop .. | .mfirst .. | .ld .. | .st .. | .vld .. | .vst .. | .vgather .. | .vscatter .. | .sld ..
  | .sst .. | .sldM .. | .sstM .. | .syncld .. | .syncst .. | .feset .. | .atom .. | .red .. | .vatom ..
  | .vredm .. | .fence .. | .bar .. | .bara .. | .barw .. | .mbar | .evsig .. | .evmsg .. | .waitc .. | .mbw ..
  | .mbstat .. | .qpush .. | .qpop .. | .qstat .. | .cinv .. | .cflush .. | .pref .. | .macq .. | .mrel ..
  | .accalloc .. | .accfree .. | .acczero .. | .tmld .. | .stset .. | .stadv .. | .rep .. | .mlds .. | .mflip
  | .mstream .. | .mstreamSp .. | .mdrain .. | .mdrainAdd .. | .mstep .. | .send .. | .migrate .. | .seglook ..
  | .hitpush .. | .hitpop .. | .boxt .. | .trit .. | .svreq .. | .svpop .. | .launch .. | .mstone | .tabort ..
  | .tstat .. | .prept .. => 8
  | .packageColdReset | .functionLevelReset | .diePerst | .firmwareVerify | .recoveryImage | .bringupPass
  | .secondPass | .dieResetEnd | .tileQuarantine | .predictiveQuarantine | .throttleStep | .thermalStop
  | .thermalPowerOff | .thermalResume | .supervisorTimeout | .getVersion | .getCapabilities | .negotiateAlgorithms
  | .getDigests | .getCertificate | .challenge | .getMeasurements | .keyExchange | .finish | .unsupportedRequest
  | .tdispErrorEvent | .tdispRequest | .registerWrite | .readClear | .writeOneClear | .zonecfgWrite
  | .powercapWrite | .laybyEntryWrite | .load | .disable | .abort | .queueDisabled | .retry | .fail | .tlbinv
  | .tlbinvDone | .clearBootstep | .doorbellWrite | .fqreadWrite | .queueEntryWriteback | .bar2Write | .bar2Read
  | .flitForward | .creditReturn | .flitDamaged | .unattributedDrop | .forwardDiscard | .bridgeModuleFail
  | .portFrame | .portLinkDown | .portLinkRetrain | .responseTimeout | .threadPacketArrival | .inboxRefill
  | .slotClaim | .extentClaim | .extentReturn | .classTableRead | .transientRequest | .forwardedRequest
  | .tokenArrival | .transientRetry | .persistentEscalate | .persistentRequest | .activation | .deactivation
  | .activationTimeout | .recreation | .evacuationTimeout | .sliceEviction | .tokenReturn | .l1Recall
  | .l1Invalidate | .l1ShareRequest | .l1Eviction | .sliceRequest | .memoryRead | .memoryWrite | .farAtomic
  | .reductionMessage | .l1TlbMiss | .l2TlbLookup | .pageWalk | .delegatedFault | .serviceRequest | .decode
  | .emitPicture | .clearContext | .resize | .textureSample | .rasterise | .rasterOverflow | .serviceReply
  | .serviceTimeout | .admissionDecision | .launchMessage | .tileClaim | .launchStart | .placementHold
  | .tier1WindowClose | .preemptgrace | .switchOut | .restore | .compactorMove | .waveUrgent | .commitRequest
  | .commitGrant | .commitEnd | .sweep | .shadowMove | .readNote | .segdef | .segdrop | .scrset | .nofunc
  | .scrsetApply | .routeCacheMiss | .segmentForward | .pageIn | .pageInDone | .pageInRetry | .pressureSample
  | .pressureInterval | .replicaDone | .segmentEvict | .ownerBroadcast | .dropComplete | .creditRequest
  | .creditReturnMessage | .liveMigration | .signpostForward | .signpostRetire | .hitReservation
  | .hitRecordArrival | .remoteScratchRequest | .remoteScratchReply | .parkPass | .parkRetryResend | .syncTimeout
  | .localBlockZero | .copyAdvance | .copyDone | .copySuspend | .copyReplay | .userInterrupt
  | .barrierPhaseComplete | .meshBarrierRelease | .meshbarTimeout | .eventMessage | .mutexGrant | .accwaitTimeout
  | .arrayGrant | .lateFault | .trapHandling | .loadReply | .storeAck | .attachedComplete | .stageQueueTransfer
  | .indexConfirmation => 0

/-- The number of the fields of the 64-bit format (R344). -/
def pack64 (f : F64) : Nat :=
  3 + f.op * 2 ^ 2 + f.d * 2 ^ 10 + f.a * 2 ^ 18 + f.b * 2 ^ 26 + f.c * 2 ^ 34 + f.k * 2 ^ 42 + f.inv * 2 ^ 45 +
    f.ty * 2 ^ 46 + f.mod * 2 ^ 50 + f.aux * 2 ^ 56

/-- A 16-bit form (R342). -/
def enc16 (op r s : Nat) : Nat := op * 2 + r * 2 ^ 6 + s * 2 ^ 11
/-- Format S3 (R343). -/
def encS3 (major f b a d : Nat) : Nat := 1 + major * 4 + d * 2 ^ 8 + a * 2 ^ 14 + b * 2 ^ 20 + f * 2 ^ 26
/-- Formats SI and SYS (R343). -/
def encSI (major imm a d : Nat) : Nat := 1 + major * 4 + d * 2 ^ 8 + a * 2 ^ 14 + imm * 2 ^ 20
/-- Format B (R343). -/
def encB (major cond u a : Nat) (off : BitVec 14) : Nat :=
  1 + major * 4 + u * 2 ^ 8 + cond * 2 ^ 9 + a * 2 ^ 12 + off.toNat * 2 ^ 18
/-- One bit of an encoding. -/
def bit (b : Bool) : Nat := if b then 1 else 0
/-- An unmasked 64-bit form. -/
def enc64 (op d a b c ty mod aux : Nat) : Nat := pack64 ⟨op, d, a, b, c, 0, 0, ty, mod, aux⟩
/-- A masked 64-bit form. -/
def encK (op d a b c : Nat) (k : MaskOp) (ty mod aux : Nat) : Nat := pack64 ⟨op, d, a, b, c, k.k, bit k.inv, ty, mod, aux⟩
/-- A displacement form: disp16 in b and c (R420). -/
def encD (op d a : Nat) (off : BitVec 16) (k : MaskOp) (ty mod aux : Nat) : Nat :=
  encK op d a (off.toNat % 256) (off.toNat / 256) k ty mod aux
/-- aux8 of an ordering (R369). -/
def MemOrd.aux (o : MemOrd) : Nat := o.scope + 8 * o.code
/-- A scratch access (R420). -/
def encSM (op d a : Nat) (m : SMem) (ty mod aux : Nat) : Nat :=
  match m with
  | .disp off => encD op d a off ⟨0, false⟩ ty mod aux
  | .vec k b sc => encK op d a b 0 k ty (mod + 32) (aux + 32 * sc)
/-- A shift by register or immediate (R406). -/
def encSh (op d a : Nat) (k : MaskOp) : ShAmt → Nat
  | .reg b => encK op d a b 0 k 0 0 0
  | .imm n => encK op d a 0 0 k 0 0 (32 + n)
/-- VSHUF by mode (R410). -/
def encShuf (d a : Nat) (k : MaskOp) : ShufMode → Nat
  | .idx b => encK 0x39 d a b 0 k 0 0 0
  | .xor n => encK 0x39 d a 0 0 k 0 1 n
  | .up n => encK 0x39 d a 0 0 k 0 2 n
  | .down n => encK 0x39 d a 0 0 k 0 3 n
/-- VLANE by form (R410). -/
def encLane : LaneForm → Nat
  | .get d a b => enc64 0x3C d a b 0 0 0 0
  | .put d a b => enc64 0x3C d a b 0 0 0 1
  | .id k d => encK 0x3C d 0 0 0 k 0 0 2
/-- The mask-register operations by their second operand (R418). -/
def encMS (op d a : Nat) : MaskSrc → Nat
  | .m n => enc64 op d a n 0 0 0 0
  | .s n => enc64 op d a n 0 0 0 1

/-- The bits of an instruction, bit 0 first; 0 for a hardware event, which has no encoding. -/
def encodeNat : Instr → Nat
  | .add16 r s => enc16 1 r s
  | .sub16 r s => enc16 2 r s
  | .and16 r s => enc16 3 r s
  | .or16 r s => enc16 4 r s
  | .xor16 r s => enc16 5 r s
  | .shl16 r s => enc16 6 r s
  | .shr16 r s => enc16 7 r s
  | .sra16 r s => enc16 8 r s
  | .mul16 r s => enc16 9 r s
  | .min16 r s => enc16 10 r s
  | .max16 r s => enc16 11 r s
  | .slt16 r s => enc16 12 r s
  | .addSz16 r s => enc16 13 r s
  | .addi16 r i => enc16 14 r i.toNat
  | .addiSz16 r i => enc16 15 r i.toNat
  | .andi16 r i => enc16 16 r i.toNat
  | .shli16 r i => enc16 17 r i
  | .shri16 r i => enc16 18 r i
  | .srai16 r i => enc16 19 r i
  | .slti16 r i => enc16 20 r i.toNat
  | .kget16 r k => enc16 21 r k
  | .kset16 r k => enc16 22 r k
  | .clz16 r s => enc16 23 r s
  | .popc16 r s => enc16 24 r s
  | .nop16 => enc16 31 0 0
  | .yield16 => enc16 31 1 0
  | .exit16 => enc16 31 2 0
  | .bkpt16 => enc16 31 3 0
  | .uiret16 => enc16 31 4 0
  | .ret16 => enc16 31 5 0
  | .add d a b => encS3 1 0x00 b a d
  | .sub d a b => encS3 1 0x01 b a d
  | .and d a b => encS3 1 0x02 b a d
  | .or d a b => encS3 1 0x03 b a d
  | .xor d a b => encS3 1 0x04 b a d
  | .shl d a b => encS3 1 0x05 b a d
  | .shr d a b => encS3 1 0x06 b a d
  | .sra d a b => encS3 1 0x07 b a d
  | .mul d a b => encS3 1 0x08 b a d
  | .mulh d a b => encS3 1 0x09 b a d
  | .mulhn d a b => encS3 1 0x0A b a d
  | .div d a b => encS3 1 0x0B b a d
  | .divn d a b => encS3 1 0x0C b a d
  | .rem d a b => encS3 1 0x0D b a d
  | .remn d a b => encS3 1 0x0E b a d
  | .min d a b => encS3 1 0x10 b a d
  | .max d a b => encS3 1 0x11 b a d
  | .minn d a b => encS3 1 0x12 b a d
  | .maxn d a b => encS3 1 0x13 b a d
  | .slt d a b => encS3 1 0x14 b a d
  | .sltn d a b => encS3 1 0x15 b a d
  | .clz d a => encS3 1 0x18 0 a d
  | .popc d a => encS3 1 0x19 0 a d
  | .brev d a => encS3 1 0x1A 0 a d
  | .add64 d a b => encS3 1 0x20 b a d
  | .sub64 d a b => encS3 1 0x21 b a d
  | .shl64 d a b => encS3 1 0x22 b a d
  | .lea d a b k => encS3 1 (0x28 + k) b a d
  | .sel d c a b => encS3 2 c b a d
  | .mad64 d a b c => encS3 3 c b a d
  | .bfx d a p w => encS3 4 w p a d
  | .bfi d a p w => encS3 5 w p a d
  | .cmp c d a b => encS3 6 c.code b a d
  | .pand d a b => encS3 7 0 b a d
  | .por d a b => encS3 7 1 b a d
  | .pnot d a => encS3 7 2 0 a d
  | .addi d a i => encSI 0x08 i.toNat a d
  | .andi d a i => encSI 0x09 i.toNat a d
  | .ori d a i => encSI 0x0A i.toNat a d
  | .xori d a i => encSI 0x0B i.toNat a d
  | .slti d a i => encSI 0x0C i.toNat a d
  | .shli d a n => encSI 0x0D n a d
  | .shri d a n => encSI 0x0E n a d
  | .srai d a n => encSI 0x0F n a d
  | .addi64 d a i => encSI 0x10 i.toNat a d
  | .lui d i => 1 + 0x11 * 4 + d * 2 ^ 8 + i.toNat * 2 ^ 14
  | .br c a off => encB 0x18 c.code 1 a off
  | .brp f a off => encB 0x19 (bit f) 1 a off
  | .brm c a off => encB 0x1A c.code 1 a off
  | .vbr f u a off => encB 0x1B (bit f) (bit u) a off
  | .jmp off => 1 + 0x1C * 4 + off.toNat * 2 ^ 8
  | .call off => 1 + 0x1D * 4 + off.toNat * 2 ^ 8
  | .kget d k => encSI 0x30 k 0 d
  | .kset k a => encSI 0x31 k a 0
  | .ctlr d n => encSI 0x32 n 0 d
  | .ctlw n a => encSI 0x33 n a 0
  | .ctls n a => encSI 0x34 n a 0
  | .ctlc n a => encSI 0x35 n a 0
  | .trap c => encSI 0x36 c 0 0
  | .svc f => encSI 0x37 f 0 0
  | .qgive d j => encSI 0x3B (0x10 + j) 0 d
  | .qtake d j => encSI 0x3B (0x20 + j) 0 d
  | .gjoin d n => encSI 0x3B (0x40 + n) 0 d
  | .gleave d => encSI 0x3B 0x80 0 d
  | .nop => encSI 0x3E 0 0 0
  | .yield => encSI 0x3E 1 0 0
  | .exit => encSI 0x3E 2 0 0
  | .bkpt => encSI 0x3E 3 0 0
  | .uiret => encSI 0x3E 4 0 0
  | .ret => encSI 0x3E 5 0 0
  | .jr a => encSI 0x3E 6 a 0
  | .vreconv => encSI 0x3E 7 0 0
  | .resume => encSI 0x3E 8 0 0
  | .li d i => 3 + 0xF0 * 4 + d * 2 ^ 10 + i.toNat * 2 ^ 26
  | .vadd t rm k d a b => encK 0x10 d a b 0 k t.code rm 0
  | .vsub t rm k d a b => encK 0x11 d a b 0 k t.code rm 0
  | .vmul t rm k d a b => encK 0x12 d a b 0 k t.code rm 0
  | .vmin t k d a b => encK 0x13 d a b 0 k t.code 0 0
  | .vfma t rm k d a b c => encK 0x14 d a b c k t.code rm 0
  | .vmax t k d a b => encK 0x15 d a b 0 k t.code 0 0
  | .vabs t k d a => encK 0x16 d a 0 0 k t.code 0 0
  | .vneg t k d a => encK 0x17 d a 0 0 k t.code 0 0
  | .vrcp rm k d a => encK 0x18 d a 0 0 k 0 rm 0
  | .vrsq rm k d a => encK 0x19 d a 0 0 k 0 rm 0
  | .vsqrt rm k d a => encK 0x1A d a 0 0 k 0 rm 0
  | .vexp2 rm k d a => encK 0x1B d a 0 0 k 0 rm 0
  | .vlog2 rm k d a => encK 0x1C d a 0 0 k 0 rm 0
  | .viadd s t k d a b => encK 0x20 d a b 0 k t.code 0 (bit s)
  | .visub s t k d a b => encK 0x21 d a b 0 k t.code 0 (bit s)
  | .vimul h t k d a b => encK 0x22 d a b 0 k t.code 0 (2 * bit h)
  | .vimad t k d a b c => encK 0x23 d a b c k t.code 0 0
  | .vimin t k d a b => encK 0x24 d a b 0 k t.code 0 0
  | .vimax t k d a b => encK 0x25 d a b 0 k t.code 0 0
  | .vand k d a b => encK 0x28 d a b 0 k 0 0 0
  | .vor k d a b => encK 0x29 d a b 0 k 0 0 0
  | .vxor k d a b => encK 0x2A d a b 0 k 0 0 0
  | .vnot k d a => encK 0x2B d a 0 0 k 0 0 0
  | .vshl k d a n => encSh 0x2C d a k n
  | .vshr k d a n => encSh 0x2D d a k n
  | .vsra k d a n => encSh 0x2E d a k n
  | .vcmp c t k d a b => encK 0x30 d a b 0 k t.code c.code 0
  | .vfcmp c k d a b => encK 0x31 d a b 0 k 0 c.code 0
  | .vsel k d a b c => encK 0x32 d a b c k 0 0 0
  | .vmov k d a => encK 0x33 d a 0 0 k 0 0 0
  | .vbcast k d a => encK 0x34 d a 0 0 k 0 0 0
  | .vred op t k d a => encK 0x38 d a 0 0 k t.code op.code 0
  | .vshuf m k d a => encShuf d a k m
  | .vscan op e t k d a => encK 0x3A d a 0 0 k t.code op.code (bit e)
  | .vballot k d a => encK 0x3B d a 0 0 k 0 0 0
  | .vlane f => encLane f
  | .vcvt dt sy rm k d a => encK 0x40 d a 0 0 k dt.code rm sy.code
  | .vpack dt sy rm k d a => encK 0x41 d a 0 0 k dt.code rm sy.code
  | .vunpack dt sy k d a => encK 0x42 d a 0 0 k dt.code 0 sy.code
  | .vdot t blk se ts k d a b c => encK 0x43 d a b c k t.code (blk + 4 * bit ts.isSome) (ts.getD 0 + 64 * bit se)
  | .vunif d a => enc64 0x44 d a 0 0 0 0 0
  | .vmorton two t k d a b c => encK 0x45 d a b c k t.code 0 (bit two)
  | .vhash n k d a b => encK 0x46 d a b 0 k 0 0 n
  | .mand d a b => encMS 0x48 d a b
  | .mor d a b => encMS 0x49 d a b
  | .mxor d a b => encMS 0x4A d a b
  | .mnot d a => enc64 0x4B d a 0 0 0 0 0
  | .mpop d a => enc64 0x4C d a 0 0 0 0 0
  | .mfirst d a => enc64 0x4D d a 0 0 0 0 0
  | .ld t w o d a off => encD 0x60 d a off ⟨0, false⟩ t.code (bit w) o.aux
  | .st t w o d a off => encD 0x61 d a off ⟨0, false⟩ t.code (bit w) o.aux
  | .vld t w o k d a off => encD 0x62 d a off k t.code (bit w) o.aux
  | .vst t w o k d a off => encD 0x63 d a off k t.code (bit w) o.aux
  | .vgather nf t w sc o k d a b => encK 0x64 d a b 0 k t.code (bit w) (o.aux + 32 * sc + 128 * bit nf)
  | .vscatter t w sc o k d a b => encK 0x65 d a b 0 k t.code (bit w) (o.aux + 32 * sc)
  | .sld t w o m d a => encSM 0x68 d a m t.code (bit w) o.aux
  | .sst t w o m d a => encSM 0x69 d a m t.code (bit w) o.aux
  | .sldM t w m d a => encSM 0x6A d a m t.code (bit w) 0
  | .sstM t w m d a => encSM 0x6B d a m t.code (bit w) 0
  | .syncld take t m d a => encSM 0x6C d a m t.code (bit take) 0
  | .syncst t m d a => encSM 0x6D d a m t.code 0 0
  | .feset full m a => encSM 0x6E 0 a m 0 (bit full) 0
  | .atom op nr t w o d a b c => enc64 0x70 d a b c t.code (op.code + 8 * bit nr) (o.aux + 32 * bit w)
  | .red op t w o a b => enc64 0x71 0 a b 0 t.code op.code (o.aux + 32 * bit w)
  | .vatom op nr t sc o k d a b c => encK 0x72 d a b c k t.code (op.code + 8 * bit nr) (o.aux + 32 * sc)
  | .vredm op t sc o k a b c => encK 0x73 0 a b c k t.code op.code (o.aux + 32 * sc)
  | .fence kd sc => enc64 0x74 0 0 0 0 0 0 (sc + 8 * kd)
  | .bar n a => enc64 0x78 0 a 0 0 0 0 n
  | .bara n a => enc64 0x79 0 a 0 0 0 0 n
  | .barw n => enc64 0x7A 0 0 0 0 0 0 n
  | .mbar => enc64 0x7B 0 0 0 0 0 0 0
  | .evsig e a => enc64 0x7C 0 a 0 0 0 0 e
  | .evmsg e a b => enc64 0x7D 0 a b 0 0 0 e
  | .waitc c a => enc64 0x7E 0 a 0 0 0 c.code 0
  | .mbw n a => enc64 0x80 0 a 0 0 0 0 n
  | .mbstat d => enc64 0x81 d 0 0 0 0 0 0
  | .qpush d a b => enc64 0x82 d a b 0 0 0 0
  | .qpop d a b => enc64 0x83 d a b 0 0 0 0
  | .qstat d b => enc64 0x84 d 0 b 0 0 0 0
  | .cinv a off => encD 0x85 0 a off ⟨0, false⟩ 0 0 0
  | .cflush a off => encD 0x86 0 a off ⟨0, false⟩ 0 0 0
  | .pref a off => encD 0x87 0 a off ⟨0, false⟩ 0 0 0
  | .macq d => enc64 0xA0 d 0 0 0 0 0 0
  | .mrel d => enc64 0xA1 d 0 0 0 0 0 0
  | .accalloc d n => enc64 0xA2 d 0 0 0 0 0 n
  | .accfree a => enc64 0xA3 0 a 0 0 0 0 0
  | .acczero d => enc64 0xA4 d 0 0 0 0 0 0
  | .tmld d a off => encD 0xA5 d a off ⟨0, false⟩ 0 0 0
  | .stset d a b c => enc64 0xA6 d a b c 0 0 0
  | .stadv d a => enc64 0xA7 d a 0 0 0 0 0
  | .rep a len => enc64 0xA8 0 a 0 0 0 0 (len - 1)
  | .mlds blk se bm d a b c => enc64 0xA9 d a b c 0 0 (blk + 4 * bit se + 8 * bit bm)
  | .mflip => enc64 0xAA 0 0 0 0 0 0 0
  | .mstream t d a r c n => enc64 0xAB d a r c t.code 0 n
  | .mstreamSp t d a r c n => enc64 0xAC d a r c t.code 0 n
  | .mdrain ts z d a b c => enc64 0xAD d a b c 0 0 (bit ts + 2 * bit z)
  | .mdrainAdd ts z d a b c => enc64 0xAE d a b c 0 0 (bit ts + 2 * bit z)
  | .mstep d => enc64 0xAF d 0 0 0 0 0 0
  | .send seg cls d a b c => enc64 0xC0 d a b c 0 (bit seg) cls
  | .migrate seg b => enc64 0xC1 0 0 b 0 0 (bit seg) 0
  | .seglook d a b => enc64 0xC2 d a b 0 0 0 0
  | .hitpush a => enc64 0xC3 0 a 0 0 0 0 0
  | .hitpop d a => enc64 0xC4 d a 0 0 0 0 0
  | .boxt d a b c => enc64 0xC5 d a b c 0 0 0
  | .trit two d a b => enc64 0xC6 d a b 0 0 0 (bit two)
  | .svreq q a => enc64 0xC8 0 a 0 0 0 0 q
  | .svpop q d => enc64 0xC9 d 0 0 0 0 0 q
  | .launch d a b => enc64 0xCA d a b 0 0 0 0
  | .mstone => enc64 0xCB 0 0 0 0 0 0 0
  | .tabort a => enc64 0xCC 0 a 0 0 0 0 0
  | .tstat d => enc64 0xCD d 0 0 0 0 0 0
  | .prept a l => enc64 0xCE 0 a 0 0 0 0 l
  | .packageColdReset | .functionLevelReset | .diePerst | .firmwareVerify | .recoveryImage | .bringupPass
  | .secondPass | .dieResetEnd | .tileQuarantine | .predictiveQuarantine | .throttleStep | .thermalStop
  | .thermalPowerOff | .thermalResume | .supervisorTimeout | .getVersion | .getCapabilities | .negotiateAlgorithms
  | .getDigests | .getCertificate | .challenge | .getMeasurements | .keyExchange | .finish | .unsupportedRequest
  | .tdispErrorEvent | .tdispRequest | .registerWrite | .readClear | .writeOneClear | .zonecfgWrite
  | .powercapWrite | .laybyEntryWrite | .load | .disable | .abort | .queueDisabled | .retry | .fail | .tlbinv
  | .tlbinvDone | .clearBootstep | .doorbellWrite | .fqreadWrite | .queueEntryWriteback | .bar2Write | .bar2Read
  | .flitForward | .creditReturn | .flitDamaged | .unattributedDrop | .forwardDiscard | .bridgeModuleFail
  | .portFrame | .portLinkDown | .portLinkRetrain | .responseTimeout | .threadPacketArrival | .inboxRefill
  | .slotClaim | .extentClaim | .extentReturn | .classTableRead | .transientRequest | .forwardedRequest
  | .tokenArrival | .transientRetry | .persistentEscalate | .persistentRequest | .activation | .deactivation
  | .activationTimeout | .recreation | .evacuationTimeout | .sliceEviction | .tokenReturn | .l1Recall
  | .l1Invalidate | .l1ShareRequest | .l1Eviction | .sliceRequest | .memoryRead | .memoryWrite | .farAtomic
  | .reductionMessage | .l1TlbMiss | .l2TlbLookup | .pageWalk | .delegatedFault | .serviceRequest | .decode
  | .emitPicture | .clearContext | .resize | .textureSample | .rasterise | .rasterOverflow | .serviceReply
  | .serviceTimeout | .admissionDecision | .launchMessage | .tileClaim | .launchStart | .placementHold
  | .tier1WindowClose | .preemptgrace | .switchOut | .restore | .compactorMove | .waveUrgent | .commitRequest
  | .commitGrant | .commitEnd | .sweep | .shadowMove | .readNote | .segdef | .segdrop | .scrset | .nofunc
  | .scrsetApply | .routeCacheMiss | .segmentForward | .pageIn | .pageInDone | .pageInRetry | .pressureSample
  | .pressureInterval | .replicaDone | .segmentEvict | .ownerBroadcast | .dropComplete | .creditRequest
  | .creditReturnMessage | .liveMigration | .signpostForward | .signpostRetire | .hitReservation
  | .hitRecordArrival | .remoteScratchRequest | .remoteScratchReply | .parkPass | .parkRetryResend | .syncTimeout
  | .localBlockZero | .copyAdvance | .copyDone | .copySuspend | .copyReplay | .userInterrupt
  | .barrierPhaseComplete | .meshBarrierRelease | .meshbarTimeout | .eventMessage | .mutexGrant | .accwaitTimeout
  | .arrayGrant | .lateFault | .trapHandling | .loadReply | .storeAck | .attachedComplete | .stageQueueTransfer
  | .indexConfirmation => 0

/-- The bytes of an instruction in memory, little-endian (R340); none for a hardware event. -/
def encode (i : Instr) : List Byte := leBytes i.len (encodeNat i)

/-- What the decoder reads from a table word: nbits bits w, and every bit above them zero. -/
def decodeTableWord (nbits w : Nat) : Option Instr := decode (leBytes 8 (w % 2 ^ nbits))

end Sys2Proof
end

