-- ==== Sys2Proof/Config.lean ====
section
/-! DEFINITION. What the spec leaves to the implementation or gives no value for: opaque functions without a body, so that no
proof can rest on a value of them, and the constants of this package. -/
namespace Sys2Proof

/-- SHA-256 of a byte string (R31, R37, R310): the function is named by the spec and its algorithm lies outside it. -/
opaque Config.sha256 : List Byte → Nat
/-- The outcome of an ECDSA P-256 verification of an image (R31, R32). -/
opaque Config.imageSigned : List Byte → Bool
/-- The security version that an image carries (R31). -/
opaque Config.imageVersion : List Byte → Nat
/-- HMAC-SHA-256 under a key, first 8 bytes in digest order (R310). -/
opaque Config.hmac : Nat → List Byte → Nat
/-- An SPDM response body (R37), by die, request code and a nonce. -/
opaque Config.spdm : Nat → Nat → Nat → Nat
/-- The bytes of the boot ROM (R37), which the spec does not give. -/
opaque Config.bootRom : List Byte
/-- The IDE key that a key exchange yields (R145), by die and exchange. -/
opaque Config.ideKey : Nat → Nat
/-- The message type of a routing header (R43), by the event that the message brings about: no chapter gives the codes. -/
opaque Config.msgType : Instr → BitVec 6
/-- The SECDED code of a routing header (R43): 8 bits, whose code is not given. -/
opaque Config.secded : BitVec 72 → BitVec 8
/-- The key of a cold reset, from die 0's random source (R310), by the count of cold resets. -/
opaque Config.bootKey : Nat → Nat
/-- A sample of a decoded picture (R125), 8 or 10 bits: the codecs' algorithms lie outside the spec. By the request that decoded it, the
picture's number in it, and the sample's index. -/
opaque Config.pictureSample : Nat → Nat → Nat → Nat
/-- What a 10-bit sample becomes in 8 bits where rounding up leaves the range, and what an 8-bit sample becomes in 10 bits (R125): the
spec states no result. -/
opaque Config.topSample : Nat → Byte
/-- See topSample. -/
opaque Config.deepSample : Nat → Nat
/-- What a decode request finds in its bitstream (R125, R126), by request: an error; a key frame or IRAP picture; the reference slots that
it reads, and the slot that it writes; the bytes of a picture buffer; the pictures that it makes pending, each with its presentation
index, width, height and whether it has 10 bits; and whether it emits one. -/
opaque Config.streamErr : Nat → Bool
/-- See streamErr. -/
opaque Config.frameKey : Nat → Bool
/-- See streamErr. -/
opaque Config.frameRefs : Nat → List Nat
/-- See streamErr. -/
opaque Config.frameSlot : Nat → Nat
/-- See streamErr. -/
opaque Config.bufferBytes : Nat → Nat
/-- See streamErr. -/
opaque Config.framePics : Nat → List (Nat × Nat × Nat × Bool)
/-- See streamErr. -/
opaque Config.frameEmits : Nat → Bool
/-- RESULT of a decode that emits no picture, above its bit 0 (R122), by request. -/
opaque Config.emptyResult : Nat → Nat
/-- A sample of a resized picture whose filter reaches past the crop (R127), as a numerator and a denominator less one, by request and
sample: the spec does not say what lies there. -/
opaque Config.resizeEdge : Nat → Nat → Int × Nat
/-- Whether a texture descriptor is one whose fields are out of their ranges (R123, R128): its layout is not given. -/
opaque Config.descBad : List Byte → Bool
/-- The texels that a sample reads, each an address and a length (R128), by the descriptor's bytes and the sample's. -/
opaque Config.texels : List Byte → List Byte → List (Nat × Nat)
/-- A byte of a texture result (R128), by the descriptor's bytes, the sample's, the texels' and its index: the filter's precision is not
given. -/
opaque Config.textureByte : List Byte → List Byte → List Byte → Nat → Byte
/-- Which output words a poisoned input of a request affects (R123), by request and word index. -/
opaque Config.outPoison : Nat → Nat → Bool
/-- A byte of a stream context after a request (R125), whose format is not given, by request and byte index. -/
opaque Config.contextByte : Nat → Nat → Byte
/-- Which way a coordinate half way between two 16.8 numbers is snapped (R129), by its code: up in magnitude or not. -/
opaque Config.snapTie : Nat → Bool
/-- A value that the spec leaves open and that nothing constrains, fresh for each counter value. -/
opaque Config.freeWord : Nat → Word

end Sys2Proof
end

