-- ==== Sys2Proof/Machine/Store.lean ====
section
/-! DEFINITION. Sparse data as plain lists: maps from numbers in rising order, and byte memories in one canonical form. -/
namespace Sys2Proof.Machine

/-- A map from numbers: pairs in rising order of their keys. -/
abbrev FMap (α : Type) := List (Nat × α)

/-- The value at a key, if it is listed. -/
def fget? {α : Type} : FMap α → Nat → Option α
  | [], _ => none
  | (k, v) :: m, n => if n = k then some v else fget? m n

/-- The value at a key, or the given one where it is not listed. -/
def fget {α : Type} (m : FMap α) (n : Nat) (d : α) : α := (fget? m n).getD d

/-- The map with one key set; the order of the keys is kept. -/
def fset {α : Type} : FMap α → Nat → α → FMap α
  | [], n, v => [(n, v)]
  | (k, w) :: m, n, v => if n < k then (n, v) :: (k, w) :: m else if n = k then (n, v) :: m else (k, w) :: fset m n v

/-- The map with one key removed. -/
def fdel {α : Type} (m : FMap α) (n : Nat) : FMap α := m.filter (fun p => p.1 != n)

/-- A byte memory (R4): a list of cells. -/
abbrev Mem := List Host.Cell

/-- What an unlisted byte of memory reads as (R88 for HBM, R245 for scratch; a log entry for the others). -/
def unlistedByte : Byte := 0#8

/-- The canonical form: addresses strictly rising, and no entry equal to what an unlisted address reads as. -/
def Mem.wf : Mem → Bool
  | [] => true
  | (a, v) :: rest => v != unlistedByte && (match rest with | [] => true | (b, _) :: _ => a < b) && Mem.wf rest

/-- One byte. -/
def Mem.read : Mem → Nat → Byte
  | [], _ => unlistedByte
  | (a, v) :: m, n => if n = a then v else if n < a then unlistedByte else Mem.read m n

/-- One byte written: writing what an unlisted address reads as removes the entry. -/
def Mem.write : Mem → Nat → Byte → Mem
  | [], n, v => if v = unlistedByte then [] else [(n, v)]
  | (a, w) :: m, n, v =>
    if n < a then (if v = unlistedByte then (a, w) :: m else (n, v) :: (a, w) :: m)
    else if n = a then (if v = unlistedByte then m else (n, v) :: m)
    else (a, w) :: Mem.write m n v

/-- n bytes from an address up, as a little-endian number (R4). -/
def Mem.readN (m : Mem) (a : Nat) : Nat → Nat
  | 0 => 0
  | n + 1 => (m.read a).toNat + 256 * Mem.readN m (a + 1) n

/-- n bytes of a number written from an address up, little-endian (R4). -/
def Mem.writeN (m : Mem) (a : Nat) : Nat → Nat → Mem
  | 0, _ => m
  | n + 1, v => Mem.writeN (m.write a (BitVec.ofNat 8 v)) (a + 1) n (v / 256)

/-- A range set to what an unlisted address reads as. -/
def Mem.clear (m : Mem) (lo n : Nat) : Mem := m.filter (fun c => c.1 < lo || lo + n ≤ c.1)

end Sys2Proof.Machine
end

