-- ==== Sys2Proof/Machine/State.lean ====
section
/-! DEFINITION. Everything the spec gives the machine, as plain data, and its value after reset.  A map that lists nothing
for a key stands for the reset value of that key's entry. -/
namespace Sys2Proof.Machine

/-- Who raises a fault: only the step, and only when the module has no power. -/
inductive Fault where
  /-- Raised by the step when THERMAL_POWER_OFF has removed power and no package cold reset is under way (R29).  Safe: the
  machine stops where the hardware is off. -/
  | powerOff
  deriving DecidableEq, Repr

/-- Why an instruction has no meaning. -/
inductive Refusal where
  /-- Raised by exec's arm of an instruction that has no meaning yet.  Safe. -/
  | notModelled (mnemonic : String)
  deriving DecidableEq, Repr

/-- A hardware event and what it concerns (the model's own). -/
structure Event where
  what : Instr
  arg : Arg
  deriving DecidableEq, Repr

/-- A vector register (R246, R303): 32 lanes and a poison bit for each. Reset: zero, no poison. -/
structure VReg where
  lanes : Vector Word 32
  poison : BitVec 32
  deriving DecidableEq, Repr

/-- A stream register (R453): BASE, STRIDE, LIMIT and COUNT. Reset: zero. -/
structure Stream where
  base : BitVec 48
  stride : Word
  limit : Word
  count : Word
  deriving DecidableEq, Repr

/-- A fault record's content (R85). -/
structure FaultRec where
  pc : Nat
  launch : Nat
  ctx : Nat
  tile : Nat
  asid : Nat
  va : Nat
  acc : Nat
  kind : Nat
  level : Nat
  root : Bool
  deriving DecidableEq, Repr

/-- A register write kept by an attached entry until it completes (R300). -/
inductive RegWrite where
  | s (r : Nat) (v : Word) (p : Bool)
  | v (r : Nat) (v : VReg)
  | m (r : Nat) (v : Word)
  deriving DecidableEq, Repr

/-- What an attached matrix-array instruction does (R448). -/
inductive MKind where
  | tmld | acczero | mflip
  | mstream (sparse : Bool)
  | mlds
  | mdrain (add : Bool)
  deriving DecidableEq, Repr

/-- A matrix-array instruction as its entry keeps it (R300, R450). -/
structure MWork where
  kind : MKind
  /-- Its place in the order of dispatch on the package (the model's own). -/
  stamp : Nat
  /-- The accumulator tile, or TMLD's transfer-map register. -/
  acc : Nat
  row0 : Nat
  /-- Rows to perform. -/
  n : Nat
  /-- Addresses of MSTREAM's rows and scale records, or TMLD's address. -/
  rows : List Nat
  scales : List Nat
  /-- The transfer maps with their patch index. -/
  map : Option (BitVec 512 × Nat)
  smap : Option (BitVec 512 × Nat)
  ty : Ty
  blk : Nat
  se : Bool
  bm : Dword
  /-- Tensor scales (R463). -/
  ts : Option (Word × Word)
  z : Bool
  /-- Its MTX operation, or TMLD's read of another tile's scratch. -/
  id : Nat
  deriving DecidableEq, Repr

/-- What an attached entry will do when it completes (R298, R300). -/
inductive Work where
  | regs (ws : List RegWrite) (flags : BitVec 6)
  | mem (op : Nat)
  | matrix (w : MWork)
  deriving DecidableEq, Repr

/-- States of a SEQRING entry (R299). -/
inductive EntryState where
  | empty | issued | done | faulted
  deriving DecidableEq, Repr

/-- A SEQRING entry (R298, R299) with its kept operands. Reset: EMPTY, zero. -/
structure Entry where
  seq : Nat
  pc : BitVec 48
  state : EntryState
  unit : Nat
  doneMask : Word
  started : Bool
  rows : Nat
  fault : Option FaultRec
  work : Work
  deriving DecidableEq, Repr

/-- One raised operation of an in-flight counter (R262, R263), in issue order. -/
structure Flight where
  ctr : Ctr
  id : Nat
  back : Bool
  deriving DecidableEq, Repr

/-- What a context is doing (R199, R202, R295). -/
inductive Status where
  /-- No context here, or it has exited. -/
  | idle
  /-- Its next instruction may issue. -/
  | ready
  /-- It waits for something; the step that ends the wait makes it ready again. -/
  | waiting
  /-- It has trapped and waits for the supervisor. -/
  | trapped
  /-- It has stopped at PREPT for a tier-1 request. -/
  | stopped
  /-- It waits in MSTONE. -/
  | mstone
  deriving DecidableEq, Repr

/-- A queued user-level interrupt (R272). -/
structure UInt where
  handler : BitVec 48
  xfer : Nat
  deriving DecidableEq, Repr

/-- The repeat buffer (R456): the PC of the first body instruction, the PC past the last, the iterations left, and the bytes of
the body as a number, the first lowest. -/
structure Rep where
  first : BitVec 48
  stop : BitVec 48
  left : Nat
  code : Nat
  deriving DecidableEq, Repr

/-- The architectural registers of a context. -/
structure Regs where
  /-- PC (R340), 48 bits. Reset: DESIGN CHOICE 0 (log 3); at wave start ENTRY (R189). -/
  pc : BitVec 48
  /-- s0–s62, 32 bits each (R346). Reset: zero (R246). -/
  s : FMap Word
  /-- Poison of s0–s62 (R303). Reset: clear (R246). -/
  sp : BitVec 64
  /-- The predicate word pw, 32 bits (R346, R381). Reset: zero; DESIGN CHOICE (log 3). -/
  pw : Word
  /-- v0–v255 (R247). Reset: zero, no poison (R246). -/
  v : FMap VReg
  /-- m1–m7, 32 bits each (R246). Reset: zero. -/
  m : FMap Word
  /-- Execution mask, 32 bits (R246). Reset: all lanes. -/
  exec : Word
  /-- Divergence stack, 32 entries of PC and mask, top first (R249). Reset: empty. -/
  dstack : List (BitVec 48 × Word)
  /-- Q, the vector registers of the wave (R247). Reset: 8 × 2^QUOTA at start. -/
  q : Nat
  /-- The blocks that hold them, as granule base and granule count, lowest registers first (R195, R197). -/
  blocks : List (Nat × Nat)
  /-- st0–st7, 256 bits each (R453). Reset: zero. -/
  st : FMap Stream
  /-- tm0–tm15, 512 bits each (R454). Reset: zero (R246). -/
  tm : FMap (BitVec 512)
  deriving DecidableEq, Repr

/-- The control registers of a context (R274). -/
structure Ctl where
  /-- FPMODE (R336), 32 bits. Reset: 0x10 (SAT8 = 1). -/
  fpmode : Word
  /-- FPSTAT (R337), 32 bits. Reset: 0. -/
  fpstat : Word
  /-- WAVECTL (R274), 32 bits, bit 0 UIHOLD. Reset: 0. -/
  wavectl : Word
  /-- UIPC (R274), 64 bits: bit 63 VALID, bits [47:0] the saved PC. Reset: 0. -/
  uipc : Dword
  /-- XFERID (R274), 32 bits. Reset: 0. -/
  xferid : Word
  /-- MSC (R461), 32 bits. Reset: 0. -/
  msc : Word
  /-- RNGSEED (R327), 32 bits. Reset at wave start as R327 states; before: DESIGN CHOICE 1 (log 3). -/
  rngseed : Word
  /-- TRAPCAUSE (R295), 32 bits. Reset: 0. -/
  trapcause : Word
  /-- TRAPADDR (R295), 64 bits. Reset: 0. -/
  trapaddr : Dword
  /-- TRAPSEQ (R295), 32 bits. Reset: 0. -/
  trapseq : Word
  deriving DecidableEq, Repr

/-- A path thread's header (R212, R214), which it keeps between packets. -/
structure Header where
  thread : Nat
  seq : Nat
  opkg : Nat
  otile : Nat
  cls : Nat
  /-- The segment the thread is bound to (R214); 0 none. -/
  seg : Nat
  /-- It holds an open slot, no slot of its launch's reservation (R196). -/
  opn : Bool
  deriving DecidableEq, Repr

/-- A context: a wave (0–191) or a path slot (192 + slot) of a tile. -/
structure Ctx where
  status : Status
  /-- The launch index the context belongs to (R213). -/
  lidx : Nat
  /-- The wave's index in its launch on the tile, WAVEID[15:8] (R274). -/
  windex : Nat
  regs : Regs
  ctl : Ctl
  /-- The wave's gang, if any (R251). Reset: none. -/
  gang : Option Nat
  /-- The six in-flight counters as their raised operations in issue order (R262, R263). Reset: empty, all zero. -/
  flight : List Flight
  /-- The 16-bit dispatch sequence number (R298). Reset: 0. -/
  dseq : Nat
  /-- The SEQRING (R298, R299), 64 entries. Reset: EMPTY. -/
  ring : FMap Entry
  /-- The repeat buffer (R456). Reset: none. -/
  rep : Option Rep
  /-- Up to 8 queued user interrupts, oldest first (R272). Reset: none. -/
  uiq : List UInt
  /-- Replies held while the context is trapped, oldest first (R308). Reset: none. -/
  deferred : List Event
  hdr : Header
  /-- Scalars that a reply or an attached entry has yet to write, with the operation or sequence number (R349). -/
  busyS : List (Nat × Nat)
  /-- Vector registers likewise. -/
  busyV : List (Nat × Nat)
  /-- Mask registers likewise. -/
  busyM : List (Nat × Nat)
  /-- The phase of the last arrival at each named barrier (R254). -/
  barPhase : FMap Nat
  /-- The model's own: what a stalled instruction has already done, by its PC (it issues again until its wait ends). -/
  waitOn : FMap Nat
  /-- The model's own: the answer a stalled instruction was waiting for, by its PC, once it has come. -/
  answer : FMap (List Word)
  /-- The model's own: the PCs of stalled instructions whose uses of poison POISONZ has counted (R305). -/
  counted : List Nat
  /-- Tick of the last trap, while it is not taken (R297). -/
  trapT : Option Nat
  /-- A wave that has trapped behind its MSTONE, where it waits again once it is restarted (R300, R482). -/
  mst : Bool
  /-- Steps and overflow chunks since the last MSTEP (R462). Reset: 0. -/
  msteps : Nat
  mchunks : Nat
  /-- Urgent (R201), the tick of its admission (R200), and a YIELD in force (R387). -/
  urgent : Bool
  age : Nat
  yielded : Bool
  /-- The tile cycle after the one in which it last issued, 0 for none (R199), and the tick since which it has had a ready instruction
  (R201). -/
  issuedAt : Nat
  readyT : Option Nat
  /-- PREPT's live register count and mask of a stopped wave (R485). -/
  live : Nat
  liveAcc : Nat
  /-- The fault of the last memory trap, and the record, queue and index, that the context waits on (R85). -/
  frec : Option FaultRec
  onFault : Option (Nat × Nat)
  deriving DecidableEq, Repr

/-- A lane's access (R276, R423): its place, width, data, compare value and what it returned. -/
structure Elem where
  lane : Nat
  va : Nat
  /-- Its place and its leaf's class, once translated (R76). -/
  loc : Option Loc
  cls : Nat
  /-- The size of the page whose entry translated it (R84). -/
  page : Nat := 4096
  n : Nat
  data : Dword
  dpois : BitVec 2
  cmp : Dword
  /-- Performed, and its answer has come (R426). -/
  done : Bool
  back : Bool := false
  res : Dword
  rpois : BitVec 2
  deriving DecidableEq, Repr

/-- What an operation does at its place. -/
inductive OpKind where
  | load | store | atom | red | cinv | cflush | pref | fetch
  | scrLoad | scrStore | syncLoad (take : Bool) | syncStore | feset (full : Bool)
  | qpush | qpop | launch | service | copyRead | copyWrite
  deriving DecidableEq, Repr

/-- An operation in flight: its issuer and its lanes (R96, R262, R425, R430). -/
structure Op where
  tile : Nat
  ctx : Nat
  lidx : Nat
  pc : BitVec 48
  /-- The attached entry it serves, if any. -/
  seq : Option Nat
  kind : OpKind
  aop : AtomOp
  ty : Ty
  w64 : Bool
  ord : MemOrd
  elems : List Elem
  /-- The destination register, and whether it is a vector. -/
  dest : Nat
  vec : Bool
  /-- Error status (R61). -/
  err : Bool
  /-- A lane that cannot be translated returns poison (R428). -/
  nf : Bool
  /-- [1] when the instruction waits in place for the answer. -/
  aux : List Nat
  deriving DecidableEq, Repr

/-- A parked synchronising access (R265): its operation, the lane's element, and the word. -/
structure Park where
  id : Nat
  op : Nat
  lane : Nat
  off : Nat
  deriving DecidableEq, Repr

/-- A named barrier (R254, R255). Reset: IDLE, phase 0. -/
structure Barrier where
  opened : Bool
  n : Nat
  lidx : Nat
  arrived : List Nat
  queued : List (Nat × Nat × Nat)
  phase : Nat
  overrun : Bool
  deriving DecidableEq, Repr

/-- A gang (R251, R205). -/
structure Gang where
  lidx : Nat
  members : List Nat
  rank : Nat
  /-- The register pool by granule, with the contents of its 8 registers (R253). -/
  pool : FMap (List VReg)
  deriving DecidableEq, Repr

/-- A copy (R269 to R273): its block, its issuer, its cursor and its state. -/
structure Copy where
  id : Nat
  ctx : Nat
  lidx : Nat
  pc : BitVec 48
  src : Nat
  dst : Nat
  rowBytes : Nat
  rows : Nat
  spitch : Nat
  dpitch : Nat
  xfer : Nat
  flags : Nat
  lbuf : Nat
  handler : Nat
  /-- Destination bytes done. -/
  cursor : Nat
  /-- 0 QUEUED, 1 ACTIVE, 2 SUSPENDED, 3 REPLAY, 4 DONE; 5 and 6, ACTIVE and REPLAY with a fault about to be recorded. -/
  state : Nat
  bad : Bool
  /-- The words of the request in hand that have been read and not yet written, and its remote operation if one is out. -/
  buf : List (Word × Bool)
  op : Option Nat
  onFault : Option (Nat × Nat)
  deriving DecidableEq, Repr

/-- A row held in a line buffer (R271): its tag, which is its source address and its bytes, and its words with their poison. -/
structure LineRow where
  src : Nat
  len : Nat
  words : List (Word × Bool)
  deriving DecidableEq, Repr

/-- A plane of the matrix array (R447): its tag and its weights and scales. -/
structure Plane where
  /-- type4 code of the tag; none is NONE. -/
  ty : Option Ty
  blk : Nat
  se : Bool
  bm : Dword
  /-- Weights by k × 32 + c. -/
  w : FMap Nat
  /-- Scales by block × 32 + c. -/
  sc : FMap Nat
  deriving DecidableEq, Repr

/-- A reply-queue record (R121): reserved, then placed. -/
structure Reply where
  id : Nat
  lidx : Nat
  words : Option (List Word)
  /-- Tick of its placement. -/
  t : Nat
  /-- Its request has timed out: its words are poisoned (R61, R124). -/
  bad : Bool := false
  deriving DecidableEq, Repr

/-- A segment copy in a tile's segment area (R223, R232). -/
structure SegCopy where
  seg : Nat
  base : Nat
  size : Nat
  ready : Bool
  pin : Bool
  use : Nat
  /-- It is being evicted: no packet starts on it any more (R232). -/
  leaving : Bool
  deriving DecidableEq, Repr

/-- A directory entry (R226, R227), with its place in the slice. -/
structure DirEntry where
  slot : Nat
  state : Nat
  ty : Nat
  pin : Bool
  size : Nat
  owners : List Nat
  press : Nat
  noted : Bool
  home : Nat
  hsel : Nat
  back : Nat
  /-- Tiles whose acknowledgement of the last change is outstanding (R227). -/
  acks : List Nat
  deriving DecidableEq, Repr

/-- A launch's resources on a tile (R195). -/
structure Share where
  lidx : Nat
  /-- Local block: offset and size in bytes. -/
  lbase : Nat
  lsize : Nat
  acc : Nat
  pslots : Nat
  packets : Nat
  /-- Free credits of the tile's share (R216) and waiting requests, oldest first (R217). -/
  credits : Nat
  creditQ : List (Nat × Nat)
  /-- The class table, once read (R215). -/
  classes : Option (List Nat)
  /-- VIOLCNT (R274). -/
  viol : Nat
  /-- The launch has ended here and its block is being zeroed (R245). -/
  ended : Bool
  /-- Its waves have been started here (R189). -/
  started : Bool
  /-- The tile lies outside the launch's set: only packets of the launch are here (R196, R215). -/
  guest : Bool
  /-- Wave contexts reserved, granules that its waves have yet to be given, and whether the launch is switched out, its packet
  reservation alone left (R195, R208). -/
  waves : Nat
  grans : Nat
  away : Bool
  deriving DecidableEq, Repr

/-- An L1 line's state (R90): the MOESI state, the dirty sectors and the last transactional reader (R89). -/
structure L1Line where
  /-- 0 I, 1 S, 2 E, 3 O, 4 M. -/
  st : Nat
  valid : BitVec 2
  dirty : BitVec 2
  mark : Option Nat
  /-- Order of the last use (R89). -/
  use : Nat
  deriving DecidableEq, Repr

/-- A leaf as a walk gives it or a TLB holds it (R72, R82): the frame of the 4 KiB units from which its span begins. -/
structure Leaf where
  cls : Nat
  home : Nat
  hsel : Nat
  frame : Nat
  x : Bool
  w : Bool
  r : Bool
  /-- Page size in bytes. -/
  size : Nat
  /-- The bytes that this entry translates: its page, or a part of it (R82, R172; log 65). -/
  span : Nat := 4096
  /-- When it entered its L1 TLB (the model's own: the oldest entry makes room). -/
  since : Nat := 0
  deriving DecidableEq, Repr

/-- A violation-log entry (R307). -/
structure Violation where
  pc : Nat
  ctx : Nat
  srctile : Nat
  lidx : Nat
  wr : Bool
  addr : Nat
  deriving DecidableEq, Repr

/-- A trap that the supervisor of a tile has in hand (R392). -/
structure Hand where
  ctx : Nat
  cause : Nat
  deriving DecidableEq, Repr

/-- The synchronisation units of a tile. -/
structure Sync where
  /-- k0–k15, 32 bits (R250). Reset: zero. -/
  k : FMap Word
  /-- KSETs not yet visible to all: tile cycle, register, the value before, and whether a wave issued it (R250). -/
  kpend : List (Nat × Nat × Word × Bool)
  /-- Writes of the tile's control registers in the latest tile cycle that had one: the cycle, register, the value before, and whether a
  wave issued it (R395). -/
  ctlPend : List (Nat × Nat × Word × Bool)
  /-- b0–b31 (R254, R255). Reset: IDLE. -/
  bar : FMap Barrier
  /-- Event lines 0–63: PENDING and VALUE (R257). Reset: zero. -/
  ev : FMap (Bool × Word)
  /-- The tile cycle of the latest EVSIG of a line (R257). -/
  evLocal : FMap Nat
  /-- Contexts waiting on event lines, mutexes and barriers: key (line, 64 + mutex, 128 + barrier) and context. -/
  waiters : List (Nat × Nat)
  /-- Mutexes 0–15: the holder (R258). Reset: free. -/
  mutex : FMap Nat
  /-- MBARCFG, 32 bits (R259). Reset: 0x0010_0000 (MBCNT = 1). -/
  mbarcfg : Word
  /-- MBTMO, 32 bits (R261). Reset: 0x0010_0000. -/
  mbtmo : Word
  /-- Contexts counted in the open mesh-barrier phase (R260). Reset: none. -/
  mbArr : List Nat
  /-- Contexts waiting in MBAR, with the tick of their MBAR and whether their phase has completed (R260, R261). -/
  mbWait : List (Nat × Nat × Bool)
  /-- MBAR arrivals that belong to the next phase, oldest first (R260). -/
  mbNext : List Nat
  /-- The tile has arrived, and the release tick of a completed phase (R260). -/
  mbDone : Bool
  mbRelease : Option Nat
  /-- FETMO, 32 bits (R266). Reset: 0x0001_0000. -/
  fetmo : Word
  /-- The park table, 64 entries, oldest first (R265). Reset: empty. -/
  park : List Park
  parkId : Nat
  deriving DecidableEq, Repr

/-- The packet and hit machinery of a tile. -/
structure Travel where
  /-- The inbox ring, oldest first, and the place of each packet in it (R54, R241). Reset: empty. -/
  inbox : List Packet
  inAt : List Nat
  /-- The lay-by, oldest first (R54, R55), and the place of each packet: the tile whose lay-by it lies in, and its number there.  Those
  without a place wait in the network interface for an extent. Reset: empty. -/
  layby : List Packet
  laid : List (Nat × Nat)
  /-- Borrowed extents: the tile and the number of each (R55); and whether a claim is under way. Reset: none. -/
  extents : List (Nat × Nat)
  claiming : Bool
  /-- The hit queue, oldest first: the tick and the record's words (R238), and the place of each in the queue. Reset: empty. -/
  hits : List (Nat × List Word)
  hitAt : List Nat
  /-- Hit-queue reservations granted and not yet used, and waiting requesters (R238). -/
  hitRes : Nat
  hitQ : List (Nat × Nat)
  /-- The route cache (R228): segment, usable owners and what SEGLOOK reports; most recent last. Reset: empty. -/
  routes : List (Nat × List Nat × Nat × Nat × Nat)
  /-- Directory slice, 512 entries by segment number (R225). Reset: free. -/
  dir : FMap DirEntry
  /-- Segment copies in the segment area (R223). Reset: none. -/
  segs : List SegCopy
  /-- Packets held outside the inbox by MSTONE (R482). -/
  heldPk : List Packet
  /-- The last queued-packet sample (R230, R231). Reset: 0. -/
  sample : Nat
  deriving DecidableEq, Repr

/-- The matrix array, accumulators and gangs of a tile. -/
structure Matrix where
  /-- Gangs by number (R251). Reset: unused. -/
  gangs : FMap Gang
  /-- The gang that owns the array (R204). Reset: none. -/
  owner : Option Nat
  /-- Waiting MACQ requests: gang and context, next first (R204). -/
  macq : List (Nat × Nat)
  /-- Active and shadow planes (R447). Reset: tag NONE, zero. -/
  active : Plane
  shadow : Plane
  /-- Accumulator tiles by tile × 2048 + row × 32 + column, FP32 codes (R447). Reset: +0. -/
  acc : FMap Nat
  /-- Accumulator tiles held, by tile: the gang (R205). -/
  accOwner : FMap Nat
  /-- Waiting ACCALLOCs: context, gang, count, tick (R205). -/
  accQ : List (Nat × Nat × Nat × Nat)
  /-- Load, compute and drain queues: context and sequence number, next first (R450). -/
  loadQ : List (Nat × Nat)
  compQ : List (Nat × Nat)
  drainQ : List (Nat × Nat)
  deriving DecidableEq, Repr

/-- The caches, copies, service replies and register file of a tile. -/
structure Units where
  /-- L1 lines by line key, and copies of shadow lines by their version and line key (R89, R155). Reset: none held. -/
  l1 : FMap L1Line
  /-- Lines of the instruction cache, 64 KiB (R2, R341), oldest first. Reset: none held. -/
  ic : List Nat
  /-- L1 TLB (R82) by asid × 2^36 + first page of the entry's span. Reset: empty. -/
  tlb : FMap Leaf
  /-- Walk credits in use, of 8, and whether the translation port holds a missing access until one is free (R83). Reset: 0. -/
  credits : Nat
  stalled : Bool
  /-- A translation fault found for a waiting access: asid, page, access kind and the record (R85). -/
  xfault : List (Nat × Nat × Nat × FaultRec)
  /-- Walks asked for and not yet answered: asid, page, access kind. -/
  walks : List (Nat × Nat × Nat)
  /-- Mailboxes MB0–MB3: the copy each holds (R268). Reset: EMPTY. -/
  mb : FMap Copy
  mbLast : Nat
  /-- Suspended and replaying copies (R273). -/
  susp : List Copy
  /-- Line buffers: rows by buffer, tagged by source address and row bytes, least recently used first (R271). -/
  lbufs : FMap (List LineRow)
  /-- Reply queues 0–7, oldest first (R121). Reset: empty. -/
  replies : FMap (List Reply)
  /-- Allocated granules of the register file (R197): base, count and the wave or 256 + gang that holds them. -/
  gran : List (Nat × Nat × Nat)
  /-- Compactor requests waiting, oldest first (R198): block size as j of 2^j granules, and the wave whose QTAKE asks, or 256
  for an admission. -/
  compact : List (Nat × Nat)
  /-- Violations refused since die reset (R307); the log's entries lie in scratch. Reset: 0. -/
  vcount : Nat
  deriving DecidableEq, Repr

/-- The issue ports and the rotation of a tile (R199 to R204).  A time here is the tile cycle after the one it names, 0 for none.  Reset:
nothing has issued. -/
structure Issue where
  /-- The scalar port's last issue and the wave that issued. -/
  scalarAt : Nat
  scalarW : Nat
  /-- The vector port's. -/
  vectorAt : Nat
  vectorW : Nat
  /-- The slots of the current rotation, its cycle, and the path pipeline's last issue (R202). -/
  rot : List Nat
  rotI : Nat
  pathAt : Nat
  /-- The test unit's last request (R204). -/
  testAt : Nat
  deriving DecidableEq, Repr

/-- A tile (R240 to R273) but for its scratch bytes, which lie in one package map. -/
structure Tile where
  /-- Contexts by number (R246). Reset: idle. -/
  ctxs : FMap Ctx
  /-- SCRATCHCFG's RW fields INBOX and SEGU (R242). Reset: 1 and 12. -/
  inboxU : Nat
  segU : Nat
  /-- A pending SCRSET: INBOX and SEGU (R243). Reset: none. -/
  scrset : Option (Nat × Nat)
  sync : Sync
  trav : Travel
  mx : Matrix
  un : Units
  issue : Issue
  /-- Launches admitted on the tile (R195). Reset: none. -/
  shares : List Share
  /-- Signposts kept here: forwarded tile and new node, with markers outstanding (R235). Reset: none. -/
  signposts : List (Nat × Nat × Nat)
  hand : Option Hand
  /-- Stopped by quarantine (R22). Reset: false. -/
  stopped : Bool
  /-- Corrected errors in the current interval (R315). Reset: 0. -/
  corrected : Nat
  deriving DecidableEq, Repr

/-- What waits on a line of a slice (R96): an operation's lanes, or an access that a unit of the die makes in an event. -/
inductive Link where
  | op (id : Nat)
  | unit (write : Bool) (ev : Event)
  deriving DecidableEq, Repr

/-- A slice's holding of a line (R91, R100). Reset: no tokens. -/
structure SliceLine where
  tok : Nat
  own : Bool
  dv : Bool
  /-- Directory: 0 none, 1 shared, 2 exclusive, 3 owned (R91). -/
  dstate : Nat
  owner : Nat
  sharers : BitVec 64
  /-- Locked for commit by this slot (R165). -/
  lock : Option Nat
  /-- Requester of the active persistent entry (R104); 4 is the home's, for a census (R109). -/
  persist : Option Nat
  /-- The die's own persistent request (R105): 0 none, 1 CREDIT, 2 QUEUED, 3 ACTIVE, 4 RECOVER; and, while it is active, the requests that
  were linked at its activation and are yet to be performed (R104). -/
  pers : Nat
  due : List Link
  /-- Failed transient attempts, whether a write is wanted, the tick of the first attempt, and its number (R102). -/
  tries : Nat
  want : Option Bool
  since : Nat
  att : Nat
  /-- Requests linked on the line, in their order of arrival (R96), and the unit's event that the line is kept for. -/
  linked : List Link
  kept : Option Event
  /-- Tiles whose acknowledgement of an invalidation, recall or share request is outstanding, the tile whose copy stays, and the events
  that wait for them (R91 to R93, R97). -/
  acks : List Nat
  but : Option Nat
  waits : List Event
  /-- The O holder has supplied its sectors for the request at the head (R92). -/
  supplied : Bool
  /-- Order of the last use (R95). -/
  use : Nat
  deriving DecidableEq, Repr

/-- A line's home metadata (R88). Reset: HINT 0, HTOK 4, HOWN 1, POISON 0. -/
structure HomeLine where
  hint : BitVec 4
  htok : Nat
  hown : Bool
  poison : Bool
  deriving DecidableEq, Repr

/-- A persistent arbiter (R103 to R105, R107, R109): its table of die and line, oldest first; what the head is in: 0 QUEUED, 1 ACTIVE,
2 DEACTIVATING, 3 RECOVERING; the places whose acknowledgement of a deactivation is outstanding, dies 0 to 3 and 4 for the home; and
the census entries ahead of the table, with the die whose loss they serve, and how far the first is: 0 waiting, 1 active,
2 deactivating. -/
structure Arbiter where
  table : List (Nat × Nat)
  phase : Nat
  acks : List Nat
  census : List (Nat × Option Nat)
  walk : Nat
  deriving DecidableEq, Repr

/-- A service request in a unit (R118, R119). -/
structure SvcReq where
  id : Nat
  tile : Nat
  ctx : Nat
  lidx : Nat
  pc : Nat
  words : List Word
  die : Nat
  unit : Nat
  /-- The issuer's address space, and whether it is transactional. -/
  asid : Nat
  txn : Bool
  /-- Its launch has ended: the unit finishes it, and its reply is discarded (R124). -/
  dead : Bool
  /-- A rasteriser's progress (R129): the triangle in hand, its blocks written, records written, triangles discarded, whether poison
  was read, records by bin, and the tick since which a full ring holds it up. -/
  tri : Nat
  blk : Nat
  recs : Nat
  disc : Nat
  pois : Bool
  bins : FMap Nat
  wait : Option Nat
  deriving DecidableEq, Repr

/-- A decoded picture that waits for its emission (R125): its presentation index, its size, whether it has 10 bits, and the request and the
number in it that made it. -/
structure Picture where
  index : Nat
  w : Nat
  h : Nat
  deep : Bool
  id : Nat
  n : Nat
  deriving DecidableEq, Repr

/-- A stream context as the decoders use it (R125, R126): the decoder that holds it, the pending pictures, and the reference slots marked
missing.  Reset: free and empty. -/
structure StreamCtx where
  lock : Option Nat
  pics : List Picture
  missing : List Nat
  deriving DecidableEq, Repr

/-- The host-side registers of a die (R131). -/
structure Bar0 where
  /-- DIEORIENT.PKG (R11). Reset: 0. -/
  pkg : Nat
  /-- QTBASE, 64 bits (R131). Reset: DESIGN CHOICE 0 (log 3). -/
  qtbase : Dword
  /-- ASROOT0–255, 64 bits (R73). Reset: 0. -/
  asroot : FMap Dword
  /-- PORTMAP0–31, 32 bits (R67). Reset: 0. -/
  portmap : FMap Word
  /-- TLBINVBASE, TLBINVSIZE and TLBINVCMD.BUSY (R131). Reset: DESIGN CHOICE 0 (log 3). -/
  tlbBase : Dword
  tlbSize : Dword
  tlbBusy : Bool
  /-- TLBINVCMD's ALL and ASID (R131), as last written. Reset: DESIGN CHOICE 0 (log 3). -/
  tlbCmd : Nat
  /-- BAR2CFG, 64 bits (R143). Reset: 0. -/
  bar2cfg : Dword
  /-- THERMSTAT (R147): CAPPED, HOT, TJ, LEVEL. Reset: 0. -/
  capped : Bool
  hot : Bool
  tj : Nat
  level : Nat
  /-- HOSTERR (R147): BADREG, BADDOOR, BAR2FLT, TDISPREJ. Reset: 0. -/
  badreg : Nat
  baddoor : Nat
  bar2flt : Nat
  tdisprej : Nat
  /-- COHCNT (R115): PERSIST, RECREATE, POISONED, ATOMERR. Reset: 0. -/
  persist : Nat
  recreate : Nat
  poisoned : Nat
  atomerr : Nat
  /-- COHLOG, 64 bits (R116). Reset: 0. -/
  cohlog : Dword
  /-- POWERCAP, watts (R131). Reset: 2,000. -/
  powercap : Nat
  /-- QCMD.BUSY (R136). Reset: 0. -/
  qcmdBusy : Bool
  /-- The size of BAR 2 as a power of two (R130). Reset: 30, 1 GiB. -/
  bar2Log : Nat
  /-- Ticks at which hardware last set HOT, COHLOG.VALID and each router's ERRLOG.VALID (R6; the model's own). Reset: none. -/
  hotT : Option Nat
  cohT : Option Nat
  errT : FMap Nat
  /-- QLOGIDX (R131) and the quarantine log, 256 entries of 64 bits (R148). Reset: 0. -/
  qlogidx : Nat
  qlog : FMap Dword
  /-- SVCCNT0–15, 64 bits (R148). Reset: 0. -/
  svccnt : FMap Dword
  /-- BOOTSTEP records 0–2047, 32 bits (R34). Reset: stored; a record never written reads 0. -/
  bootstep : FMap Word
  /-- Lay-by table (R138), 128 bits: EN, SIZEM1, BASE. Reset: SIZEM1 0x0F, else 0. -/
  layby : FMap (BitVec 128)
  /-- ERRCNT and ERRLOG per router (R59, R60). Reset: 0. -/
  errcnt : FMap Word
  errlog : FMap Word
  deriving DecidableEq, Repr

/-- A die (R9 to R41). -/
structure Die where
  /-- In service; left out at start-up (R36); in die reset with its step (R39); out of service (R23). Reset: no die in service before its bring-up (R38). -/
  inService : Bool
  leftOut : Bool
  resetting : Bool
  /-- Its reset has not ended step 5, its evacuation (R39, R41). -/
  evacuating : Bool
  /-- Bring-up passes of this reset with a die-level failure (R34). -/
  fails : Nat
  passes : Nat
  /-- Its bring-up is under way (R33). -/
  booting : Bool
  /-- Units that have failed at run time for good, by step and unit of R33: every pass finds them failed (R23, R40, R64). -/
  broken : List (Nat × Nat)
  /-- The measures that the passes of this bring-up have applied, by step and unit (R35). -/
  measures : List (Nat × Nat)
  /-- Tick at which the CYCLE counters of its nodes were last reset (R27). Reset: 0. -/
  cycle0 : Nat
  /-- The evacuation that the bound of R108 runs for, by the tick of its start. Reset: none. -/
  evacT : Option Nat
  stopped : Bool
  bar0 : Bar0
  /-- TDI state: 0 CONFIG_UNLOCKED, 1 CONFIG_LOCKED, 2 RUN, 3 ERROR (R145). Reset: 0. -/
  tdi : Nat
  /-- IDE (R39, R145): a key exchange under way, by its number, the link key, and the keys of the selective streams 0 to 3. Reset: none. -/
  ideX : Option Nat
  ideLink : Option Nat
  ideSel : FMap Nat
  /-- The last SPDM response (R37): code and the fields of its body. -/
  spdm : Option (Nat × List Nat)
  /-- Quarantined physical column by row (R19). Reset: none, unless start-up quarantined one. -/
  rowq : FMap Nat
  /-- Package channels mapped out at package cold reset (R35, R80), and those mapped out since, which read as poison. -/
  chans : List Nat
  deadChans : List Nat
  /-- It was left out at package cold reset, so that none of its channels is in a list (R80). Reset: listed. -/
  unlisted : Bool
  /-- Service units marked absent (R35). -/
  absent : List Nat
  /-- L2 TLB slices of the die, by slice and then as an L1 TLB (R82). Reset: empty. -/
  l2tlb : FMap (FMap Leaf)
  /-- Walks under way, at most 64, and those that wait for a walker: the address space and page of each (R82). Reset: none. -/
  walkers : List (Nat × Nat)
  walkQ : List (Nat × Nat)
  /-- Slice lines by line key (R95, R100). Reset: none. -/
  slice : FMap SliceLine
  /-- Requests that wait in a slice's ingress queue for an MSHR, by slice, oldest first (R96). Reset: none. -/
  ingress : FMap (List Arg)
  /-- Arbiter credits in use, by arbiter of the package, and the lines that wait for one (R103). Reset: none in use. -/
  arbUsed : FMap Nat
  arbWait : FMap (List Nat)
  /-- Read signatures by version tag × 256 + slice (R159), 1,024 bits. Reset: clear. -/
  sigs : FMap (BitVec 1024)
  /-- Lines of HOST memory held on the die: bytes and a poison mark, by bus address / 64 (R95, R304). -/
  hostHeld : FMap (List Byte × Bool)
  /-- The round-robin cursor of each level: last queue admitted from, and each queue's credit (R185). -/
  rrLast : FMap Nat
  rrCredit : FMap Nat
  /-- Ticks of the last decision (R187). -/
  decided : Nat
  /-- Claims that wait for this die's dispatcher to answer: the mesh cycle of arrival, the asking die and the launch index (R192,
  R210). Reset: none. -/
  claims : List (Nat × Nat × Nat)
  /-- The tick since which every sensor of a thermally stopped die reads below 92 °C (R30). -/
  cool : Option Nat
  deriving DecidableEq, Repr

/-- A queue (R134, R137): the device's copy of its entry and its doorbell page. -/
structure Queue where
  /-- 0 DISABLED, 1 ENABLED, 2 ERROR. Reset: DESIGN CHOICE 0 (log 3). -/
  qstate : Nat
  qerr : Nat
  readIdx : Nat
  writeIdx : Nat
  fqWrite : Nat
  fqRead : Nat
  disabling : Bool
  fvec : Nat
  evec : Nat
  cvec : Nat
  fqlog : Nat
  fqbase : Nat
  detcap : Nat
  attlim : Nat
  weight : Nat
  asid : Nat
  prioceil : Nat
  deleg : Bool
  order : Bool
  feed : Bool
  ringlog : Nat
  ringbase : Nat
  /-- Pending fault records: index, the record, and how many accesses wait (R85, R140). -/
  pending : List (Nat × FaultRec)
  /-- Ended records at or past READIDX (R142). -/
  ended : List Nat
  /-- The record, by launch tag, that has failed placement and the tick since which it has (R194). -/
  failT : Option (Nat × Nat)
  deriving DecidableEq, Repr

/-- A launch record as the dispatcher read it (R139). -/
structure Rec where
  entry : Nat
  waves : Nat
  x0 : Nat
  y0 : Nat
  w : Nat
  h : Nat
  quota : Nat
  acc : Nat
  loc : Nat
  pslots : Nat
  classtab : Nat
  args : Nat
  budget : Nat
  prio : Nat
  txn : Bool
  lenient : Bool
  msix : Bool
  persist : Bool
  ndep : Nat
  deps : List Nat
  detbase : Nat
  detsize : Nat
  lodseed : Word
  compaddr : Nat
  compval : Nat
  deriving DecidableEq, Repr

/-- The attempt block (R139, R141), the dispatcher's copy. -/
structure Attempt where
  state : Nat
  reason : Nat
  attempts : Nat
  phase : Nat
  addr : Nat
  addrpa : Bool
  tile : Nat
  pcode : Nat
  milestone : Nat
  drops : Nat
  viol : Nat
  poisonz : Nat
  deriving DecidableEq, Repr

/-- A shadow or delta line (R154, R164): by word, what is written and what is combined. -/
structure ShLine where
  va : Nat
  loc : Loc
  /-- Written bytes and their values (bit i of mask is byte i). -/
  mask : BitVec 64
  data : List Byte
  poison : Bool
  /-- Delta contributions per word: word index, operation, type and value. -/
  delta : List (Nat × AtomOp × Ty × Word)
  detour : Bool
  use : Nat
  deriving DecidableEq, Repr

/-- What a tile saved of a launch (R309 to R312): the contexts, gangs, accumulators, barriers, parked waits and local block behind the
image, whose bytes lie in memory. -/
structure Saved where
  tile : Nat
  ctxs : FMap Ctx
  gangs : FMap Gang
  owners : FMap Nat
  acc : FMap Nat
  /-- The gang that owned the array (R204). -/
  array : Option Nat
  /-- The requests for the array that were already waiting then. -/
  ahead : List (Nat × Nat)
  bars : FMap Barrier
  parks : List Park
  ops : FMap Op
  lbase : Nat
  lsize : Nat
  accs : Nat
  pslots : Nat
  /-- The local block: its bytes by scratch key, and the keys of its words that are FULL and poisoned. -/
  bytes : Mem
  full : List Nat
  spois : List Nat
  /-- The address of each 4 KiB block of the image, in order, and the count of boots and switch-outs that its tags bind. -/
  blocks : List Nat
  boot : Nat
  nth : Nat
  deriving DecidableEq, Repr

/-- An admitted or re-queued launch. -/
structure Launch where
  queue : Nat
  idx : Nat
  r : Rec
  att : Attempt
  /-- 0 PENDING, 1 RUNNING, 2 switched out, 3 ended. -/
  run : Nat
  /-- Commit (R165): 0 outside one, 1 to 3 the step it is in, 4 in steps 4 to 7; final or milestone. -/
  commit : Nat
  final : Bool
  /-- Abort recorded during commit steps 4–7 (R165): reason, address, ADDRPA, tile, PCODE. -/
  later : Option (Nat × Nat × Bool × Nat × Nat)
  slot : Option Nat
  gen : Nat
  sheltered : Bool
  conflicts : Nat
  sticky : Bool
  /-- The committer that matched it (R176). -/
  waitFor : Option Nat
  excl : Option Nat
  /-- Effective budget (R56). -/
  budget : Nat
  /-- Switch-out count (R310), and the open tier of a pre-emption request: 0 none, 1 to 3. -/
  swouts : Nat
  tier : Nat
  /-- What the tiles of a switched-out launch saved (R311). -/
  saved : List Saved
  /-- Pages of the detour area, by number, that its images use until its next commit or abort (R313). -/
  imgPages : List Nat
  deriving DecidableEq, Repr

/-- A placement that a dispatcher has in hand (R192): the launch at the origin being tried, its index, the dies still to be asked,
and the next origin to try. -/
structure Placing where
  launch : Launch
  lidx : Nat
  ask : List Nat
  next : Nat
  deriving DecidableEq, Repr

/-- A rectangle held for a record (R194): its launch tag and level. -/
structure Hold where
  tag : Nat
  prio : Nat
  x : Nat
  y : Nat
  w : Nat
  h : Nat
  deriving DecidableEq, Repr

/-- A pre-emption under way (R206): the record's launch tag, the victims left, and the tick of the request. -/
structure Preempt where
  tag : Nat
  victims : List Nat
  t : Nat
  deriving DecidableEq, Repr

/-- A mesh message (R43): payload, class, flits and the node it is at.  A physical node of the package bears the number
die × 272 + row × 17 + column (R19, R42, R131), and 1088 + p stands for the adapter of package port p. -/
structure Msg where
  id : Nat
  src : Place
  dst : Place
  /-- The node at which it entered the mesh (R52). -/
  from_ : Nat
  /-- The node it is routed to: that which held its destination when it was sent (R43, R235), or the port's attachment node. -/
  to_ : Nat
  vc : Nat
  cls : Nat
  flits : Nat
  lidx : Nat
  at_ : Nat
  /-- Where it stands at that node: 0 at its unit, not yet injected; 1 held for an earlier message of its pair (R235); l + 2 in the buffer
  of link l (R47). -/
  via : Nat
  /-- The other package it is bound for (R68). -/
  pkg : Option Nat
  hops : Nat
  payload : Event
  deriving DecidableEq, Repr

/-- A package port (R66): the next sequence number to give, the frames that wait for an acknowledgement, oldest first, with their number,
package and what arrives there, the consecutive failed replays, and the next sequence number to accept. -/
structure Port where
  txSeq : Nat
  replay : List (Nat × Nat × Event)
  fails : Nat
  rxSeq : Nat
  deriving DecidableEq, Repr

/-- A stage queue (R180, R181). Reset: not read. -/
structure StageQ where
  en : Bool
  asid : Nat
  base : Nat
  dlog : Nat
  elog : Nat
  pushed : Nat
  readyix : Nat
  popped : Nat
  freed : Nat
  prod : Nat
  cons : Nat
  /-- The bound launches by launch tag + 1; 0 none (a retry keeps its binding under a new handle). -/
  ptag : Nat
  ctag : Nat
  deriving DecidableEq, Repr

/-- A move in an agenda: a hardware event, an issue of a context, an instruction run by a tile's supervisor firmware, a posted
HOST store reaching system memory (R289), or time. -/
inductive Actor where
  | posted (i : Nat)
  | act (e : Event)
  | issue (tile ctx : Nat)
  | fw (tile : Nat) (i : Instr)
  | pass (n : Nat)
  deriving DecidableEq, Repr

/-- A posted write on its way to the host (R142, R169, R289): a HOST store's port, address and bytes; one that is ordered behind the
earlier ones of its port; and the vector of an interrupt, which carries no bytes. -/
structure Posted where
  port : Nat
  addr : Nat
  data : List Byte
  ordered : Bool := false
  vector : Option Nat := none
  deriving DecidableEq, Repr

/-- The memories. -/
structure Mems where
  /-- HBM, by channel × 2^31 + offset (R17, R79). Reset: zero (R88). -/
  hbm : Mem
  /-- Home metadata by line key (R88). Reset: as R88 states. -/
  home : FMap HomeLine
  /-- System memory, by bus address: every port leads to it (R76, R81). Outside the device: unlisted reads as 0 (log 2). -/
  sys : Mem
  /-- PCIe peer space (R76), likewise. -/
  peer : Mem
  /-- Scratch of every tile, by tile × 2^19 + offset (R240). Reset: zero (R245; log 2). -/
  scr : Mem
  /-- Words that are FULL, by word key (R264). Reset: EMPTY. -/
  full : FMap Bool
  /-- Words with poison (R304). Reset: none. -/
  spois : FMap Bool
  /-- Posted writes on their way, oldest first (R289). -/
  posted : List Posted
  deriving DecidableEq, Repr

/-- The package's transactions. -/
structure Txn where
  /-- Slots in use: the launch index (R149). Reset: free. -/
  slots : FMap Nat
  /-- Generations (R150). Reset: 0. -/
  gens : FMap Nat
  /-- Shadow and delta lines by version tag × 2^60 + line key (R150, R154). Reset: none. -/
  shadow : FMap ShLine
  /-- Detour pages bound (R156): by version tag, the frame of each page in order, and whether it holds delta lines. -/
  detPages : FMap (List (Nat × Bool))
  /-- Commit arbiter (R166): waiting slots, oldest first, and committing ones. -/
  waiting : List Nat
  committing : List Nat
  /-- W and R by version tag (R166). -/
  wsig : FMap (BitVec 1024)
  rsig : FMap (BitVec 1024)
  /-- Read-set lines by version tag (R158). -/
  readSet : FMap (List Nat)
  /-- Events that wait for a shadow way (R154), and the moves that wait for the answer to their fault record, by queue and index (R156). -/
  wayWait : List Event
  moving : List ((Nat × Nat) × Arg)
  /-- TCACFG (R153), read once after each ZONECFG write. -/
  tcacfg : Option Dword
  deriving DecidableEq, Repr

/-- The whole package. -/
structure State where
  /-- Ticks of 1/6 ns since cold reset: a tile cycle is 4, a mesh cycle 3 (R7). Reset: 0. -/
  now : Nat
  /-- The issuing context, tile and number, of the instruction being executed. -/
  cur : Nat × Nat
  /-- What the event being executed concerns (the model's own; an instruction of a thread does not read it). -/
  arg : Arg
  /-- Module power (R29). Reset: on. -/
  power : Bool
  /-- Forced next moves, host inputs included (the model's own). -/
  agenda : List Actor
  /-- Events ready to happen, oldest first (the model's own). -/
  pending : List Event
  /-- Events due at a tick (the model's own). -/
  timers : List (Nat × Event)
  /-- Choices that pick the next move; empty means the first (the model's own). -/
  sched : List Nat
  /-- Counter of free values (the model's own). -/
  free : Nat
  /-- Next operation and message number (the model's own). -/
  nextId : Nat
  tiles : FMap Tile
  dies : FMap Die
  mem : Mems
  /-- Operations in flight by number. -/
  ops : FMap Op
  /-- Mesh messages in flight (R43). -/
  msgs : List Msg
  /-- Credits on their way back, per link, channel and class (R47); those of the flits that a buffer holds are theirs. -/
  links : FMap Nat
  /-- The round-robin cursors of the routers' ports (R48): by port, lane and channel. Reset: none granted. -/
  rr : FMap Nat
  /-- Package ports (R66). Reset: nothing sent or accepted. -/
  ports : FMap Port
  queues : FMap Queue
  launches : FMap Launch
  /-- Launches waiting for a retry or a re-admission, by launch tag: the dispatcher's copies (R137, R176). -/
  requeued : FMap Launch
  /-- Placements in hand, by die (R192). -/
  placing : FMap Placing
  /-- Die resets in their order of arrival, the first under way (R40). -/
  resets : List Nat
  /-- The free list of lay-by extents, as management firmware keeps it in DIRECT memory (R55): each extent on loan, by tile and number, and the
  tile that has it.  Reset: none on loan. -/
  lent : List ((Nat × Nat) × Nat)
  /-- Freed launch indexes with the tiles still to confirm (R213). -/
  freed : FMap (List Nat)
  txn : Txn
  /-- Persistent arbiters by die × 4 + unit (R103). Reset: empty. -/
  arbs : FMap Arbiter
  /-- Service requests in units (R117). -/
  svc : List SvcReq
  /-- Stream contexts by address space and address (R125). Reset: none. -/
  streams : FMap StreamCtx
  /-- Stage queues by die × 64 + number (R180). -/
  stageQs : FMap StageQ
  /-- ZONECFG (R78), 32 bits. Reset: 0. -/
  zonecfg : Word
  /-- Tile exchange table, 8 pairs (R234). Reset: empty. -/
  exch : List (Nat × Nat)
  /-- Flash image and its rollback fuse (R31), recovery window (R32), recovery state. -/
  flash : List Byte
  rollback : Nat
  window : List Byte
  recovery : Bool
  /-- The image in flash has been verified since the last cold reset (R31), and the package number on the strap pins (R11).
  Reset: no; DESIGN CHOICE 0 (log 3). -/
  verified : Bool
  strap : Nat
  /-- The pool lists have been fixed since the last cold reset (R80). Reset: no. -/
  listed : Bool
  /-- Cold resets so far, which number the per-boot key (R310), and measurement 2: the image's digest and its security version (R31,
  R37). Reset: DESIGN CHOICE 0 (log 3). -/
  boots : Nat
  meas2 : Nat × Nat
  /-- Port links that are down (R66). -/
  portDown : FMap Nat
  /-- Messages sent to other packages: port, destination package, and what arrives there (R68). -/
  sent : List (Nat × Nat × Event)
  /-- Records as their dispatchers hold them, read once from the ring or sent by LAUNCH, by launch tag (R137, R188). -/
  copies : FMap Nat
  /-- Rectangles held for records (R194), and pre-emptions under way (R206). -/
  holds : List Hold
  preempts : List Preempt
  /-- Launches that have outlasted PREEMPTGRACE for a record: the launch tags of the record and of the launch (R209). -/
  outlast : List (Nat × Nat)
  /-- MSI-X vectors signalled: die and vector; thermal and port events: die and code. -/
  irqs : List (Nat × Nat)
  hostEvents : List (Nat × Nat)
  /-- Data returned to host reads (R131, R143); none is Completer Abort. -/
  hostRead : List (Option Nat)
  deriving DecidableEq, Repr

/-- A vector register at wave start: zero (R246). -/
def VReg.zero : VReg := ⟨Vector.replicate 32 0#32, 0#32⟩

/-- The registers of a context before anything starts it: zero, all lanes in the mask (R246; log 3). -/
def Regs.init : Regs :=
  { pc := 0, s := [], sp := 0, pw := 0, v := [], m := [], exec := 0xFFFFFFFF#32, dstack := [], q := 8, blocks := [],
    st := [], tm := [] }

/-- The control registers at their reset values (R274, R295, R327, R336, R337, R461). -/
def Ctl.init : Ctl :=
  { fpmode := 0x10#32, fpstat := 0, wavectl := 0, uipc := 0, xferid := 0, msc := 0, rngseed := 1#32, trapcause := 0,
    trapaddr := 0, trapseq := 0 }

/-- A path thread's header before a packet arrives. -/
def Header.init : Header := { thread := 0, seq := 0, opkg := 0, otile := 0, cls := 0, seg := 0, opn := false }

/-- A context that nothing has started. -/
def Ctx.init : Ctx :=
  { status := .idle, lidx := 0, windex := 0, regs := .init, ctl := .init, gang := none, flight := [], dseq := 0,
    ring := [], rep := none, uiq := [], deferred := [], hdr := .init, busyS := [], busyV := [], busyM := [],
    barPhase := [], waitOn := [], answer := [], counted := [], trapT := none, mst := false, msteps := 0, mchunks := 0, urgent := false, age := 0, yielded := false, issuedAt := 0, readyT := none,
    live := 0, liveAcc := 0, frec := none, onFault := none }

/-- An EMPTY SEQRING entry (R299). -/
def Entry.init : Entry :=
  { seq := 0, pc := 0, state := .empty, unit := 0, doneMask := 0, started := false, rows := 0, fault := none,
    work := .regs [] 0 }

/-- A named barrier at reset: IDLE (R254, R255). -/
def Barrier.init : Barrier :=
  { opened := false, n := 0, lidx := 0, arrived := [], queued := [], phase := 0, overrun := false }

/-- A plane with tag NONE (R447). -/
def Plane.none : Plane := { ty := Option.none, blk := 0, se := false, bm := 0, w := [], sc := [] }

/-- The synchronisation units at reset (R250, R254, R257 to R266). -/
def Sync.init : Sync :=
  { k := [], kpend := [], ctlPend := [], bar := [], ev := [], evLocal := [], waiters := [], mutex := [], mbarcfg := 0x00100000#32,
    mbtmo := 0x00100000#32, mbArr := [], mbWait := [], mbNext := [], mbDone := false, mbRelease := none,
    fetmo := 0x00010000#32, park := [], parkId := 0 }

/-- The packet and hit machinery at reset (R54, R225, R228, R238). -/
def Travel.init : Travel :=
  { inbox := [], inAt := [], layby := [], laid := [], extents := [], claiming := false, hits := [], hitAt := [], hitRes := 0, hitQ := [],
    routes := [], dir := [], segs := [], heldPk := [], sample := 0 }

/-- The matrix array at reset (R447). -/
def Matrix.init : Matrix :=
  { gangs := [], owner := none, macq := [], active := .none, shadow := .none, acc := [], accOwner := [], accQ := [],
    loadQ := [], compQ := [], drainQ := [] }

/-- The other units at reset. -/
def Units.init : Units :=
  { l1 := [], ic := [], tlb := [], credits := 0, stalled := false, xfault := [], walks := [], mb := [], mbLast := 3, susp := [],
    lbufs := [], replies := [], gran := [], compact := [], vcount := 0 }

/-- Nothing has issued. -/
def Issue.init : Issue :=
  { scalarAt := 0, scalarW := 0, vectorAt := 0, vectorW := 0, rot := [], rotI := 0, pathAt := 0, testAt := 0 }

/-- A tile at reset (R242 for SCRATCHCFG). -/
def Tile.init : Tile :=
  { ctxs := [], inboxU := 1, segU := 12, scrset := none, sync := .init, trav := .init, mx := .init, un := .init,
    issue := .init, shares := [], signposts := [], hand := none, stopped := false, corrected := 0 }

/-- An L1 line at reset: not held (R89). -/
def L1Line.init : L1Line := { st := 0, valid := 0, dirty := 0, mark := none, use := 0 }

/-- A slice's holding of a line at reset: no tokens (R88, R100). -/
def SliceLine.init : SliceLine :=
  { tok := 0, own := false, dv := false, dstate := 0, owner := 0, sharers := 0, lock := none, persist := none, pers := 0,
    due := [], tries := 0, want := none, since := 0, att := 0, linked := [], kept := none, acks := [], but := none, waits := [],
    supplied := false, use := 0 }

/-- A line's metadata as HBM training writes it (R88). -/
def HomeLine.init : HomeLine := { hint := 0, htok := 4, hown := true, poison := false }

/-- An arbiter at reset: no request (R104). -/
def Arbiter.init : Arbiter := { table := [], phase := 0, acks := [], census := [], walk := 0 }

/-- A die's registers at reset (R5, R131). -/
def Bar0.init : Bar0 :=
  { pkg := 0, qtbase := 0, asroot := [], portmap := [], tlbBase := 0, tlbSize := 0, tlbBusy := false, tlbCmd := 0, bar2cfg := 0,
    capped := false, hot := false, tj := 0, level := 0, badreg := 0, baddoor := 0, bar2flt := 0, tdisprej := 0,
    persist := 0, recreate := 0, poisoned := 0, atomerr := 0, cohlog := 0, powercap := 2000, qcmdBusy := false, bar2Log := 30, hotT := none, cohT := none, errT := [], qlogidx := 0, qlog := [], svccnt := [],
    bootstep := [], layby := [], errcnt := [], errlog := [] }

/-- A die right after package cold reset: its bring-up has not run (R33, R38; log 4). -/
def Die.init : Die :=
  { inService := false, leftOut := false, resetting := false, evacuating := false, fails := 0, passes := 0, booting := false, broken := [], measures := [], cycle0 := 0, evacT := none, stopped := false, bar0 := .init,
    tdi := 0, ideX := none, ideLink := none, ideSel := [], spdm := none, rowq := [], chans := [], deadChans := [], unlisted := false, absent := [], l2tlb := [], walkers := [], walkQ := [], slice := [], ingress := [], arbUsed := [], arbWait := [], sigs := [],
    hostHeld := [], rrLast := [], rrCredit := [], decided := 0, claims := [], cool := none }

/-- A stream context that nothing has used, as OP 2 leaves it (R125). -/
def StreamCtx.init : StreamCtx := { lock := none, pics := [], missing := [] }

/-- A queue at reset: DISABLED, indices zero (R134, R137; log 3). -/
def Queue.init : Queue :=
  { qstate := 0, qerr := 0, readIdx := 0, writeIdx := 0, fqWrite := 0, fqRead := 0, disabling := false, fvec := 0,
    evec := 0, cvec := 0, fqlog := 4, fqbase := 0, detcap := 0, attlim := 3, weight := 1, asid := 0, prioceil := 0,
    deleg := false, order := false, feed := false, ringlog := 4, ringbase := 0, pending := [], ended := [],
    failT := none }

/-- A record of zeros, with the least values its ranges allow where zero is out of range. -/
def Rec.init : Rec :=
  { entry := 0, waves := 1, x0 := 0, y0 := 0, w := 1, h := 1, quota := 0, acc := 0, loc := 0, pslots := 0, classtab := 0,
    args := 0, budget := 0, prio := 0, txn := false, lenient := false, msix := false, persist := false, ndep := 0,
    deps := [], detbase := 0, detsize := 0, lodseed := 0, compaddr := 0, compval := 0 }

/-- An attempt block cleared to PENDING (R481). -/
def Attempt.init : Attempt :=
  { state := 0, reason := 0, attempts := 0, phase := 0, addr := 0, addrpa := false, tile := 0, pcode := 0,
    milestone := 0, drops := 0, viol := 0, poisonz := 0 }

/-- No launch. -/
def Launch.init : Launch :=
  { queue := 0, idx := 0, r := .init, att := .init, run := 0, commit := 0, final := false, later := none, slot := none,
    gen := 0, sheltered := false, conflicts := 0, sticky := false, waitFor := none, excl := none, budget := 0,
    swouts := 0, tier := 0, saved := [], imgPages := [] }

/-- A shadow line before its first write. -/
def ShLine.init : ShLine :=
  { va := 0, loc := .dev 0 0, mask := 0, data := List.replicate 64 0#8, poison := false, delta := [], detour := false,
    use := 0 }

/-- A stage queue before its descriptor is read (R180). -/
def StageQ.init : StageQ :=
  { en := false, asid := 0, base := 0, dlog := 0, elog := 0, pushed := 0, readyix := 0, popped := 0, freed := 0,
    prod := 0, cons := 0, ptag := 0, ctag := 0 }

/-- The memories after HBM training (R88) and die reset of the tiles (R245, R264). -/
def Mems.init : Mems :=
  { hbm := [], home := [], sys := [], peer := [], scr := [], full := [], spois := [], posted := [] }

/-- The package's transactions at package cold reset (R149, R150). -/
def Txn.init : Txn :=
  { slots := [], gens := [], shadow := [], detPages := [], waiting := [], committing := [], wsig := [], rsig := [], readSet := [],
    wayWait := [], moving := [], tcacfg := none }

/-- A port whose link has been trained (R65, R66). -/
def Port.init : Port := { txSeq := 0, replay := [], fails := 0, rxSeq := 0 }

/-- The machine right after a package cold reset (R38): every register at its reset value, nothing running, and the
verification of the firmware about to begin (R31; log 4). -/
def State.reset : State :=
  { now := 0, cur := (0, 0), arg := {}, power := true, agenda := [], pending := [⟨.firmwareVerify, {}⟩], timers := [], sched := [], free := 0,
    nextId := 1, tiles := [], dies := [], mem := .init, ops := [], msgs := [], links := [], rr := [], ports := [], queues := [], launches := [], requeued := [],
    placing := [], resets := [], lent := [], freed := [], txn := .init, arbs := [], svc := [], streams := [], stageQs := [], zonecfg := 0,
    exch := [], flash := [], rollback := 0, window := [], recovery := false, verified := false, strap := 0, listed := false, boots := 1, meas2 := (0, 0), portDown := [],
    sent := [], copies := [], holds := [], preempts := [], outlast := [], irqs := [], hostEvents := [], hostRead := [] }

end Sys2Proof.Machine
end

