-- ==== Sys2Proof/Machine/Ops.lean ====
section
/-! DEFINITION. The named operations over the state that the meanings share: reading and writing tiles, contexts, dies, queues and
launches; geometry; the memories and translation; messages; taking a trap and returning from one. -/
namespace Sys2Proof.Machine

/-! ### Reading and writing the parts of the state -/

/-- A tile by logical number. -/
def State.tile (s : State) (t : Nat) : Tile := fget s.tiles t Tile.init
/-- A tile replaced. -/
def State.setTile (s : State) (t : Nat) (x : Tile) : State := { s with tiles := fset s.tiles t x }
/-- A tile changed. -/
def State.updTile (s : State) (t : Nat) (f : Tile → Tile) : State := s.setTile t (f (s.tile t))
/-- A context of a tile. -/
def Tile.ctx (x : Tile) (c : Nat) : Ctx := fget x.ctxs c Ctx.init
/-- A context of a tile replaced. -/
def Tile.setCtx (x : Tile) (c : Nat) (k : Ctx) : Tile := { x with ctxs := fset x.ctxs c k }
/-- A context. -/
def State.ctx (s : State) (t c : Nat) : Ctx := (s.tile t).ctx c
/-- A context replaced. -/
def State.setCtx (s : State) (t c : Nat) (k : Ctx) : State := s.setTile t ((s.tile t).setCtx c k)
/-- A context changed. -/
def State.updCtx (s : State) (t c : Nat) (f : Ctx → Ctx) : State := s.setCtx t c (f (s.ctx t c))
/-- The issuing context. -/
def State.me (s : State) : Ctx := s.ctx s.cur.1 s.cur.2
/-- The issuing context replaced. -/
def State.setMe (s : State) (k : Ctx) : State := s.setCtx s.cur.1 s.cur.2 k
/-- The issuing context changed. -/
def State.updMe (s : State) (f : Ctx → Ctx) : State := s.setMe (f s.me)
/-- The issuing tile. -/
def State.myTile (s : State) : Tile := s.tile s.cur.1
/-- Changes of a tile's parts. -/
def State.updSync (s : State) (t : Nat) (f : Sync → Sync) : State := s.updTile t fun x => { x with sync := f x.sync }
/-- The travel part of a tile changed. -/
def State.updTrav (s : State) (t : Nat) (f : Travel → Travel) : State := s.updTile t fun x => { x with trav := f x.trav }
/-- The matrix part of a tile changed. -/
def State.updMx (s : State) (t : Nat) (f : Matrix → Matrix) : State := s.updTile t fun x => { x with mx := f x.mx }
/-- The issue ports of a tile changed. -/
def State.updIssue (s : State) (t : Nat) (f : Issue → Issue) : State := s.updTile t fun x => { x with issue := f x.issue }
/-- The other units of a tile. -/
def State.updUn (s : State) (t : Nat) (f : Units → Units) : State := s.updTile t fun x => { x with un := f x.un }
/-- A die. -/
def State.die (s : State) (d : Nat) : Die := fget s.dies d Die.init
/-- A die replaced. -/
def State.setDie (s : State) (d : Nat) (x : Die) : State := { s with dies := fset s.dies d x }
/-- A die changed. -/
def State.updDie (s : State) (d : Nat) (f : Die → Die) : State := s.setDie d (f (s.die d))
/-- A die's host registers changed. -/
def State.updBar0 (s : State) (d : Nat) (f : Bar0 → Bar0) : State := s.updDie d fun x => { x with bar0 := f x.bar0 }
/-- A queue. -/
def State.queue (s : State) (q : Nat) : Queue := fget s.queues q Queue.init
/-- A queue changed. -/
def State.updQueue (s : State) (q : Nat) (f : Queue → Queue) : State := { s with queues := fset s.queues q (f (s.queue q)) }
/-- A launch by index. -/
def State.launch (s : State) (l : Nat) : Launch := fget s.launches l Launch.init
/-- A launch changed. -/
def State.updLaunch (s : State) (l : Nat) (f : Launch → Launch) : State :=
  { s with launches := fset s.launches l (f (s.launch l)) }
/-- The memories changed. -/
def State.updMem (s : State) (f : Mems → Mems) : State := { s with mem := f s.mem }
/-- The transactions changed. -/
def State.updTxn (s : State) (f : Txn → Txn) : State := { s with txn := f s.txn }
/-- An operation in flight. -/
def State.op? (s : State) (i : Nat) : Option Op := fget? s.ops i
/-- An operation replaced. -/
def State.setOp (s : State) (i : Nat) (o : Op) : State := { s with ops := fset s.ops i o }
/-- An operation ended. -/
def State.delOp (s : State) (i : Nat) : State := { s with ops := fdel s.ops i }
/-- An event made ready to happen. -/
def State.pend (s : State) (i : Instr) (a : Arg) : State := { s with pending := s.pending ++ [⟨i, a⟩] }
/-- An event due after so many ticks. -/
def State.after (s : State) (ticks : Nat) (i : Instr) (a : Arg) : State :=
  { s with timers := s.timers ++ [(s.now + ticks, ⟨i, a⟩)] }
/-- Ticks of a tile cycle and of a mesh cycle (R7). -/
def tileTicks : Nat := 4
/-- Ticks of a mesh cycle (R7). -/
def meshTicks : Nat := 3
/-- Ticks of a millisecond: 6,000,000 of 1/6 ns (R29). -/
def msTicks : Nat := 6000000
/-- The current tile cycle (R26). -/
def State.tileCycle (s : State) : Nat := s.now / tileTicks
/-- An MSI-X vector of a die signalled. -/
def State.irq (s : State) (d v : Nat) : State := { s with irqs := s.irqs ++ [(d, v)] }
/-- A fresh number for an operation or a message. -/
def State.fresh (s : State) : Nat × State := (s.nextId, { s with nextId := s.nextId + 1 })
/-- A free value (a word that the spec leaves open) and the state that has drawn it. -/
def State.freeW (s : State) : Word × State := (Config.freeWord s.free, { s with free := s.free + 1 })
/-- A counter that saturates. -/
def sat (mx n : Nat) : Nat := if mx < n then mx else n
/-- Bits [hi:lo] of a number. -/
def bits (a hi lo : Nat) : Nat := a / 2 ^ lo % 2 ^ (hi + 1 - lo)
/-- A bit of a number as a Bool. -/
def bitB (a i : Nat) : Bool := a / 2 ^ i % 2 == 1
/-- The signed value of the low n bits of a number. -/
def sgn (n a : Nat) : Int := if 2 ^ (n - 1) ≤ a % 2 ^ n then ((a % 2 ^ n : Nat) : Int) - (2 ^ n : Nat) else (a % 2 ^ n : Nat)

/-! ### Geometry (R10 to R20) -/

/-- Package coordinates of a tile number (R12). -/
def tileX (t : Nat) : Nat := t % 32
/-- Package row of a tile number (R12). -/
def tileY (t : Nat) : Nat := t / 32 % 32
/-- The die of a logical tile (R12). -/
def dieOf (t : Nat) : Nat := if tileY t < 16 then (if tileX t < 16 then 0 else 1) else (if tileX t < 16 then 3 else 2)
/-- Die-local column of a tile, the inverse of R13. -/
def locX (t : Nat) : Nat :=
  match dieOf t with
  | 0 => tileX t
  | 1 => tileY t
  | 2 => 31 - tileX t
  | _ => 31 - tileY t
/-- Die-local row of a tile, the inverse of R13. -/
def locY (t : Nat) : Nat :=
  match dieOf t with
  | 0 => tileY t
  | 1 => 31 - tileX t
  | 2 => 31 - tileY t
  | _ => tileX t
/-- The tile at a die-local position (R13). -/
def tileAt (d lx ly : Nat) : Nat :=
  match d with
  | 0 => ly * 32 + lx
  | 1 => lx * 32 + (16 + (15 - ly))
  | 2 => (16 + (15 - ly)) * 32 + (16 + (15 - lx))
  | _ => (16 + (15 - lx)) * 32 + ly
/-- The node's logical tile after the exchange table (R234). -/
def State.exchanged (s : State) (t : Nat) : Nat :=
  match s.exch.find? (fun p => p.1 == t || p.2 == t) with
  | some (a, b) => if a == t then b else a
  | none => t
/-- The physical column of a die-local logical column in a row (R19). -/
def Die.physCol (x : Die) (ly lx : Nat) : Nat :=
  match fget? x.rowq ly with
  | some q => if lx < q then lx else lx + 1
  | none => lx
/-- The die-local logical column at a physical column of a row (R19); the quarantined column is the one whose tile moved off it. -/
def Die.logCol (x : Die) (ly px : Nat) : Nat :=
  match fget? x.rowq ly with
  | some q => if px ≤ q then px else px - 1
  | none => px
/-- TILEPHYS of the node that runs a tile (R24, R25). -/
def State.tilephys (s : State) (t : Nat) : Nat :=
  let e := s.exchanged t
  let d := dieOf e
  let ly := locY e
  let x := s.die d
  let q := fget? x.rowq ly
  (if q.isSome then 2 ^ 19 else 0) + q.getD 0x1F * 2 ^ 14 + x.physCol ly (locX e) * 2 ^ 9 + ly * 2 ^ 5 + d
/-- Whether a tile's die takes work: in service, not left out, not being reset (R14, R23, R39). -/
def State.dieUp (s : State) (d : Nat) : Bool :=
  let x := s.die d
  x.inService && !x.leftOut && !x.resetting
/-- A die's function and management controller take work (R23, R36, R39): its bring-up has ended, and it is not left out. -/
def State.dieHost (s : State) (d : Nat) : Bool :=
  let x := s.die d
  !x.leftOut && !x.resetting && !x.booting && (x.inService || x.passes != 0)
/-- Whether the function of a die is there to be accessed (R36, R130), die 0's alone in recovery state (R32). -/
def State.enumerated (s : State) (d : Nat) : Bool := if s.recovery then d == 0 else s.dieHost d || (s.die d).tdi == 3
/-- A die's tiles are missing (R14, R23): it is left out or out of service. -/
def State.tilesGone (s : State) (d : Nat) : Bool :=
  let x := s.die d
  x.leftOut || (!x.inService && !x.resetting)
/-- The logical tile that holds a line's slice on a die: H(A) (R87). -/
def hashH (a : Nat) : Nat :=
  Nat.xor (Nat.xor (Nat.xor (bits a 13 6) (bits a 21 14)) (Nat.xor (bits a 29 22) (bits a 37 30)))
    (Nat.xor (bits a 45 38) (bits a 51 46))
/-- The die-local slice of an address (R87). -/
def sliceTile (d a : Nat) : Nat := tileAt d (hashH a % 16) (hashH a / 16)
/-- The reversal of a 10-bit value (R159). -/
def rev10 (v : Nat) : Nat := (List.range 10).foldl (fun acc i => acc + v / 2 ^ i % 2 * 2 ^ (9 - i)) 0
/-- h1 of R159. -/
def hashH1 (a : Nat) : Nat :=
  Nat.xor (Nat.xor (bits a 15 6) (bits a 25 16)) (Nat.xor (Nat.xor (bits a 35 26) (bits a 45 36)) (bits a 51 46))
/-- h2 of R159. -/
def hashH2 (a : Nat) : Nat :=
  Nat.xor (Nat.xor (rev10 (bits a 15 6)) (bits a 25 16))
    (Nat.xor (Nat.xor (rev10 (bits a 35 26)) (bits a 45 36)) (bits a 51 46 * 16))
/-- The signature of one address: its two bits (R159). -/
def sigOf (a : Nat) : BitVec 1024 := BitVec.twoPow 1024 (hashH1 a) ||| BitVec.twoPow 1024 (hashH2 a)
/-- Whether an address matches a signature: both bits are set (R159). -/
def sigHas (g : BitVec 1024) (a : Nat) : Bool := g.getLsbD (hashH1 a) && g.getLsbD (hashH2 a)
/-- The home tile of a segment number (R225). -/
def State.segHome (s : State) (n : Nat) : Nat :=
  let h := Nat.xor (Nat.xor (bits n 9 0) (bits n 19 10)) (bits n 23 20)
  let cands := [h, Nat.xor h 0x210, Nat.xor h 0x010, Nat.xor h 0x200]
  (cands.find? fun t => s.dieUp (dieOf t)).getD h

/-! ### Device memory: pools, bytes, poison (R78 to R81, R88, R110) -/

/-- Bytes of one channel's key range. -/
def chanSpan : Nat := 2 ^ 31
/-- Zone base and size of a home policy, in bytes (R78, R79). -/
def State.zone (s : State) (home : Nat) : Nat × Nat :=
  let zi := bits s.zonecfg.toNat 4 0 * 2 ^ 26
  let zd := bits s.zonecfg.toNat 12 8 * 2 ^ 26
  match home with
  | 0 => (0, zi)
  | 1 => (zi, zd)
  | _ => (zi + zd, 1536 * 2 ^ 20 - (zi + zd))
/-- Whether every channel of the package is in its lists. -/
def State.allChans (s : State) : Bool := s.dies.all fun p => p.2.chans.isEmpty && !p.2.unlisted
/-- The pool of a home policy, in increasing package channel number (R79, R80). -/
def State.pool (s : State) (home hsel : Nat) : List Nat :=
  let base := match home with
    | 0 => List.range 256
    | 1 => (List.range 64).map (· + 64 * hsel)
    | _ => (List.range 32).map (· + 32 * hsel)
  if s.allChans then base
  else base.filter fun c => let x := s.die (c / 64); !x.unlisted && !x.chans.contains c
/-- The channel key of a pool address, if it lies in the pool (R79). -/
def State.poolKey (s : State) (home hsel a : Nat) : Option Nat :=
  let l := s.pool home hsel
  let z := s.zone home
  if a < l.length * z.2 then
    let g := a / 256
    some (l.getD (g % l.length) 0 * chanSpan + z.1 + g / l.length * 256 + a % 256)
  else none
/-- The home die of a channel key (R79). -/
def homeDie (key : Nat) : Nat := key / chanSpan / 64
/-- The line number of a channel key. -/
def lineOf (key : Nat) : Nat := key / 64
/-- The home die of a line. -/
def lineDie (line : Nat) : Nat := homeDie (line * 64)
/-- The memory-controller node of a line (R17). -/
def lineCtl (line : Nat) : Nat := line * 64 / chanSpan % 64 / 4
/-- The arbiter of a line, as die × 4 + unit (R103). -/
def lineArb (line : Nat) : Nat := lineDie line * 4 + lineCtl line / 4
/-- A line's home metadata (R88). -/
def State.home (s : State) (line : Nat) : HomeLine := fget s.mem.home line HomeLine.init
/-- A line's home metadata changed. -/
def State.updHome (s : State) (line : Nat) (f : HomeLine → HomeLine) : State :=
  s.updMem fun m => { m with home := fset m.home line (f (s.home line)) }
/-- A slice's holding of a line. -/
def State.sliceLine (s : State) (d line : Nat) : SliceLine := fget (s.die d).slice line SliceLine.init
/-- A slice's holding changed. -/
def State.updSlice (s : State) (d line : Nat) (f : SliceLine → SliceLine) : State :=
  s.updDie d fun x => { x with slice := fset x.slice line (f (s.sliceLine d line)) }
/-- A line reads as poison: its POISON bit, or a channel mapped out since the pools were fixed (R80, R110). -/
def State.linePoison (s : State) (line : Nat) : Bool :=
  (s.home line).poison || (s.die (lineDie line)).deadChans.contains (line * 64 / chanSpan)
/-- n bytes of device memory. -/
def State.devRead (s : State) (key n : Nat) : Nat := s.mem.hbm.readN key n
/-- n bytes written to device memory; a poisoned value sets POISON, a clean whole line clears it (R110, R304). -/
def State.devWrite (s : State) (key n v : Nat) (pois : Bool) : State :=
  let s := s.updMem fun m => { m with hbm := m.hbm.writeN key n v }
  if pois then s.updHome (lineOf key) fun h => { h with poison := true }
  else if n == 64 then s.updHome (lineOf key) fun h => { h with poison := false }
  else s

/-! ### Page tables (R72 to R77, R85, R171, R172) -/

/-- How a walk ends: a leaf for one 4 KiB page, or a fault's KIND, LEVEL and ROOT (R85). -/
inductive Walk where
  | ok (l : Leaf)
  | bad (kind level : Nat) (root : Bool)
  deriving DecidableEq, Repr

/-- A bad entry at a level (R74); level 4 is ASROOT. -/
def badEntry (e lvl : Nat) : Bool :=
  let home := bits e 8 7
  let hsel := bits e 11 9
  let leaf := bitB e 1
  let frame := bits e 55 16
  bits e 15 13 != 0 || home == 3 || (home == 0 && hsel != 0) || (home == 1 && 4 ≤ hsel) || (bitB e 12 && lvl != 0) ||
  (if leaf then
    3 ≤ lvl || (bitB e 3 && !bitB e 2) || (2 ≤ bits e 6 5 && home == 2) || frame % 512 ^ lvl != 0
   else lvl == 0 || bits e 6 2 != 0)

/-- The frame substitution table (R171): the frame to use in place of FROM. -/
def State.substFrame (s : State) (home hsel frm : Nat) : Nat :=
  let i0 := Nat.xor (Nat.xor (bits frm 19 0) (bits frm 35 20)) ((home * 8 + hsel) * 2 ^ 15)
  let rec probe : Nat → Nat → Nat
    | 0, _ => frm
    | n + 1, i =>
      match s.poolKey 0 0 (0x100000 + 16 * (i % 2 ^ 20)) with
      | none => frm
      | some k =>
        let e := s.devRead k 16
        if !bitB e 127 then frm
        else if bits e 117 116 == home && bits e 115 113 == hsel && bits e 99 64 == frm then bits e 35 0
        else probe n (i + 1)
  probe 8 i0

/-- The level of a leaf by its page size (R72). -/
def Leaf.level (l : Leaf) : Nat := if l.size < 2 ^ 21 then 0 else if l.size < 2 ^ 30 then 1 else 2
/-- The leaf an entry gives for a page of an address, with the substitution of R172 or, with named, the frame that it names. -/
def State.leafOf (s : State) (named : Bool) (e lvl va : Nat) : Leaf :=
  let page := bits e 55 16 + va / 4096 % 512 ^ lvl
  let home := bits e 8 7
  let hsel := bits e 11 9
  let cls := bits e 6 5
  let page := if cls < 2 && !named then s.substFrame home hsel (page / 16) * 16 + page % 16 else page
  { cls := cls, home := home, hsel := hsel, frame := page, x := bitB e 4, w := bitB e 3, r := bitB e 2,
    size := if lvl == 0 && bitB e 12 then 65536 else 4096 * 512 ^ lvl }

/-- A walk from a table of a level (R72): the entry is read, and the walk ends or goes down.  Where the address of the table itself lies
outside its pool, LEVEL is that of the table that cannot be read (DESIGN CHOICE, log 70; R85 speaks of the table whose entry stopped it). -/
def State.walkFrom (s : State) (named : Bool) (va : Nat) : Nat → Nat → Nat → Nat → Walk
  | 0, _, _, _ => .bad 2 0 false
  | n + 1, home, hsel, frame =>
    match s.poolKey home hsel (frame * 4096 + va / 4096 / 512 ^ n % 512 * 8) with
    | none => .bad 4 n false
    | some k =>
      let e := s.devRead k 8
      if !bitB e 0 then .bad 0 n false
      else if badEntry e n then .bad 2 n false
      else if bitB e 1 then
        let l := s.leafOf named e n va
        if l.cls < 2 && (s.poolKey l.home l.hsel (l.frame * 4096 + va % 4096)).isNone then .bad 4 n false else .ok l
      else s.walkFrom named va n (bits e 8 7) (bits e 11 9) (bits e 55 16)

/-- The walk of an address in an address space by a die's ASROOT (R72, R73). -/
def State.walkWith (s : State) (named : Bool) (d asid va : Nat) : Walk :=
  let root := (fget (s.die d).bar0.asroot asid 0#64).toNat
  if !bitB root 0 then .bad 0 3 true
  else if badEntry root 4 then .bad 2 3 true
  else s.walkFrom named va 4 (bits root 8 7) (bits root 11 9) (bits root 55 16)
/-- The places of the table entries that a walk reads from a table of a level down: what it may read before it ends (R82). -/
def State.walkKeys (s : State) (va : Nat) : Nat → Nat → Nat → Nat → List Nat
  | 0, _, _, _ => []
  | n + 1, home, hsel, frame =>
    match s.poolKey home hsel (frame * 4096 + va / 4096 / 512 ^ n % 512 * 8) with
    | none => []
    | some k =>
      let e := s.devRead k 8
      k :: (if !bitB e 0 || badEntry e n || bitB e 1 then [] else s.walkKeys va n (bits e 8 7) (bits e 11 9) (bits e 55 16))
/-- The places of the substitution table that the lookup of a frame reads (R171). -/
def State.substKeys (s : State) (home hsel frm : Nat) : List Nat :=
  let i0 := Nat.xor (Nat.xor (bits frm 19 0) (bits frm 35 20)) ((home * 8 + hsel) * 2 ^ 15)
  (List.range 8).filterMap fun j => s.poolKey 0 0 (0x100000 + 16 * ((i0 + j) % 2 ^ 20))
/-- The walk that an access makes: with the substitution of R172. -/
def State.walk (s : State) (d asid va : Nat) : Walk := s.walkWith false d asid va

/-- The lines of memory that a walk reads, as a walker reads them through the L2 (R82, R172). -/
def State.walkLines (s : State) (d asid va : Nat) : List Nat :=
  let root := (fget (s.die d).bar0.asroot asid 0#64).toNat
  let tables := if !bitB root 0 || badEntry root 4 then [] else s.walkKeys va 4 (bits root 8 7) (bits root 11 9) (bits root 55 16)
  let table := match s.walkWith true d asid va with
    | .ok l => if l.cls < 2 then s.substKeys l.home l.hsel (l.frame / 16) else []
    | .bad .. => []
  ((tables ++ table).map lineOf).eraseDups
/-- The entry that a TLB holds for a leaf of a walk (R82): its whole page, where no frame of the page has a substitute, else the 64 KiB
frame of the address.  DESIGN CHOICE (log 65): pages with CONT = 1 are held one by one (R75). -/
def State.wholePage (s : State) (d asid va : Nat) (l : Leaf) : Leaf :=
  let part (n frame : Nat) : Leaf := { l with frame := frame - va % n / 4096, span := n }
  if l.size ≤ 65536 then l
  else if 2 ≤ l.cls then part l.size l.frame
  else
    match s.walkWith true d asid va with
    | .ok m =>
      let first := (m.frame - va % l.size / 4096) / 16
      if (List.range (l.size / 65536)).all fun i => s.substFrame l.home l.hsel (first + i) == first + i then part l.size m.frame
      else part 65536 l.frame
    | .bad .. => l

/-- Whether a leaf permits an access kind of R85. -/
def Leaf.permits (l : Leaf) (acc : Nat) : Bool :=
  match acc with
  | 0 | 5 => l.r
  | 1 | 2 | 3 | 6 => l.w
  | _ => l.x
/-- What a class forbids (R77, R269): PEER in a transaction; atomics and reductions on HOST in a transaction, or without a PCIe
AtomicOp form on HOST or PEER; fetch from HOST or PEER; copies of PEER. -/
def Leaf.forbids (l : Leaf) (acc : Nat) (txn form : Bool) : Bool :=
  (l.cls == 3 && (txn || acc == 5 || acc == 6)) ||
  (2 ≤ l.cls && (acc == 2 || acc == 3) && ((l.cls == 2 && txn) || !form)) || (2 ≤ l.cls && acc == 4)
/-- The place an address of a leaf names (R79, R81): HOST and PEER through the issuing die's port or that of HSEL. -/
def State.locOf (s : State) (l : Leaf) (d va : Nat) : Option Loc :=
  let a := l.frame * 4096 + va % l.span
  match l.cls with
  | 0 | 1 => (s.poolKey l.home l.hsel a).map fun k => .dev k a
  | 2 => some (.host (if l.home == 0 then d else l.hsel) a)
  | _ => some (.peer (if l.home == 0 then d else l.hsel) a)

/-- A translation outside a tile's TLB, as the walkers of a die make it (R73): the leaf and the place, or the fault. -/
def State.translate (s : State) (d asid va acc : Nat) (txn form : Bool) : Except (Nat × Nat × Bool) (Leaf × Loc) :=
  match s.walk d asid va with
  | .bad k l r => .error (k, l, r)
  | .ok l =>
    if !l.permits acc then .error (1, l.level, false)
    else if l.forbids acc txn form then .error (3, l.level, false)
    else match s.locOf l d va with
      | some p => .ok (l, p)
      | none => .error (4, l.level, false)

/-- The key in a TLB of the entry of a span that holds an address. -/
def tlbKey (asid va span : Nat) : Nat := asid * 2 ^ 36 + va / span * span / 4096 % 2 ^ 36
/-- The spans of TLB entries: a page of 4 KiB, of 64 KiB, of 2 MiB or of 1 GiB (R75, R82). -/
def tlbSpans : List Nat := [2 ^ 12, 2 ^ 16, 2 ^ 21, 2 ^ 30]
/-- The entry of a TLB that holds an address (R82). -/
def tlbFind (m : FMap Leaf) (asid va : Nat) : Option Leaf :=
  tlbSpans.findSome? fun n => (fget? m (tlbKey asid va n)).filter fun l => l.span == n

/-! ### HOST and PEER memory (R95, R289, R304) -/

/-- The key of a HOST line on a die: its bus address, whichever port carries it (R81, R87, R165). -/
def hostKey (a : Nat) : Nat := a / 64
/-- n bytes of system memory at a bus address; every port leads to the same memory (R76, R81). -/
def State.sysRead (s : State) (a n : Nat) : Nat := s.mem.sys.readN a n
/-- The line of HOST memory as a die holds it: read from system memory when it is not held (R289). -/
def State.hostFill (s : State) (d a : Nat) : State :=
  let k := hostKey a
  match fget? (s.die d).hostHeld k with
  | some _ => s
  | none =>
    let bs := (List.range 64).map fun i => s.mem.sys.read (a / 64 * 64 + i)
    s.updDie d fun x => { x with hostHeld := fset x.hostHeld k (bs, false) }
/-- n bytes of a HOST line as the die holds it, with its poison mark (R304). -/
def State.hostLoad (s : State) (d a n : Nat) : Nat × Bool :=
  match fget? (s.die d).hostHeld (hostKey a) with
  | some (bs, p) => (leNat ((bs.drop (a % 64)).take n), p)
  | none => (s.sysRead a n, false)
/-- Bytes of a list replaced from an index on. -/
def patchBytes (bs : List Byte) (i : Nat) (new : List Byte) : List Byte := bs.take i ++ new ++ bs.drop (i + new.length)
/-- A HOST store: the held copy is updated, and the bytes leave as a posted store (R95, R289, R304). -/
def State.hostWrite (s : State) (d port a n v : Nat) (pois : Bool) : State :=
  let k := hostKey a
  let new := leBytes n v
  let s := match fget? (s.die d).hostHeld k with
    | some (bs, p) =>
      s.updDie d fun x =>
        { x with hostHeld := fset x.hostHeld k (patchBytes bs (a % 64) new, pois || (p && n != 64)) }
    | none =>
      if pois then
        let bs := (List.range 64).map fun i => s.mem.sys.read (a / 64 * 64 + i)
        s.updDie d fun x => { x with hostHeld := fset x.hostHeld k (patchBytes bs (a % 64) new, true) }
      else s
  s.updMem fun m => { m with posted := m.posted ++ [{ port := port, addr := a, data := new }] }
/-- Bytes written from an address up. -/
def Mem.writeBytes (m : Mem) (a : Nat) : List Byte → Mem
  | [] => m
  | b :: bs => Mem.writeBytes (m.write a b) (a + 1) bs
/-- A posted write may reach the host: one that is ordered only once every earlier one of its port has (R142, R169). -/
def State.mayLand (s : State) (i : Nat) : Bool :=
  match s.mem.posted[i]? with
  | none => false
  | some p => !p.ordered || !(s.mem.posted.take i).any fun q => q.port == p.port
/-- What a posted write does on reaching the host (R289): its bytes enter system memory, or its interrupt is signalled. -/
def State.arrive (s : State) (p : Posted) : State :=
  let s := s.updMem fun m => { m with sys := m.sys.writeBytes p.addr p.data }
  match p.vector with
  | some v => s.irq p.port v
  | none => s
/-- One posted write reaches the host (R289). -/
def State.land (s : State) (i : Nat) : State :=
  if s.mayLand i then
    match s.mem.posted[i]? with
    | none => s
    | some p => (s.updMem fun m => { m with posted := m.posted.eraseIdx i }).arrive p
  else s
/-- Every posted write reaches the host, oldest first: a flushing read on each port (R289). -/
def State.flushPosted (s : State) : State :=
  s.mem.posted.foldl (fun s p => s.arrive p) (s.updMem fun m => { m with posted := [] })
/-- An interrupt that follows the posted writes of its port (R142). -/
def State.irqBehind (s : State) (d v : Nat) : State :=
  if s.mem.posted.any fun p => p.port == d then
    s.updMem fun m => { m with posted := m.posted ++ [{ port := d, addr := 0, data := [], ordered := true, vector := some v }] }
  else s.irq d v

/-! ### Scratch (R240, R244, R264, R304, R306) -/

/-- The key of a scratch byte. -/
def scrKey (t off : Nat) : Nat := t * 2 ^ 19 + off
/-- n bytes of a tile's scratch. -/
def State.scrRead (s : State) (t off n : Nat) : Nat := s.mem.scr.readN (scrKey t off) n
/-- The full/empty bit of a word. -/
def State.scrFull (s : State) (t off : Nat) : Bool := fget s.mem.full (scrKey t off / 4) false
/-- The poison bit of a word. -/
def State.scrPois (s : State) (t off : Nat) : Bool := fget s.mem.spois (scrKey t off / 4) false
/-- A word's full/empty bit set. -/
def State.setFull (s : State) (t off : Nat) (b : Bool) : State :=
  s.updMem fun m => { m with full := if b then fset m.full (scrKey t off / 4) true else fdel m.full (scrKey t off / 4) }
/-- A word's poison bit set. -/
def State.setSpois (s : State) (t off : Nat) (b : Bool) : State :=
  s.updMem fun m => { m with spois := if b then fset m.spois (scrKey t off / 4) true else fdel m.spois (scrKey t off / 4) }
/-- n bytes written to scratch with the poison of the word (R304). -/
def State.scrWrite (s : State) (t off n v : Nat) (pois : Bool) : State :=
  (s.updMem fun m => { m with scr := m.scr.writeN (scrKey t off) n v }).setSpois t off pois

/-! ### Packets, directory entries and hit records as bytes (R211, R212, R226, R238, R241) -/

/-- A packet's header (R212). -/
def packetHeader (p : Packet) : BitVec 128 :=
  0#1 ++ BitVec.ofNat 13 p.lidx ++ BitVec.ofNat 24 p.thread ++ BitVec.ofNat 8 p.seq ++ BitVec.ofNat 8 p.opkg ++ BitVec.ofNat 10 p.otile ++
    0#1 ++ BitVec.ofBool p.tv ++ BitVec.ofNat 6 p.tslot ++ p.rpc ++ BitVec.ofBool p.res ++ BitVec.ofNat 6 p.cls ++ BitVec.ofBool p.dkind ++
    BitVec.ofNat 24 p.dest
/-- Words as one little-endian number. -/
def wordsNat : List Word → Nat
  | [] => 0
  | w :: ws => w.toNat + 2 ^ 32 * wordsNat ws
/-- A packet's 64 bytes as a little-endian number (R211): the header, s0 to s9, pw, and zero. -/
def packetImage (p : Packet) : Nat :=
  (packetHeader p).toNat + wordsNat ((List.range 10).map fun i => p.s.getD i 0#32) * 2 ^ 128 + p.pw.toNat * 2 ^ 448
/-- A directory entry's 16 bytes as a number (R226). -/
def DirEntry.word (n : Nat) (e : DirEntry) : Nat :=
  n % 2 ^ 24 * 2 ^ 104 + e.state % 8 * 2 ^ 101 + e.ty % 4 * 2 ^ 99 + e.pin.toNat * 2 ^ 98 + e.size % 128 * 2 ^ 91 +
    e.owners.length % 8 * 2 ^ 88 + ((List.range 4).map fun i => e.owners.getD i 0 % 1024 * 2 ^ (48 + 10 * i)).sum +
    e.press % 64 * 2 ^ 42 + e.home % 4 * 2 ^ 40 + e.hsel % 8 * 2 ^ 37 + e.back % 2 ^ 36
/-- The elements of a list whose fellows in another list have a property. -/
def keepWith {α β : Type} (f : α → Bool) (xs : List α) (ys : List β) : List β := ((xs.zip ys).filter fun z => f z.1).map (·.2)
/-- The packets of a tile's inbox and lay-by that have a property stay, at their places. -/
def Travel.keep (v : Travel) (f : Packet → Bool) : Travel :=
  { v with inbox := v.inbox.filter f, inAt := keepWith f v.inbox v.inAt, layby := v.layby.filter f, laid := keepWith f v.layby v.laid }
/-- The place after the last one taken of n in a ring, passing over those in use (R241). -/
def ringNext (used : List Nat) (n : Nat) : Nat :=
  let start := match used.getLast? with | some i => i + 1 | none => 0
  (((List.range n).map fun k => (start + k) % n).find? fun i => !used.contains i).getD 0
/-- Packets an inbox holds (R241). -/
def Tile.inboxCap (x : Tile) : Nat := 256 * (x.inboxU + 1)
/-- A packet enters a tile's inbox ring (R54, R211, R241). -/
def State.inboxPut (s : State) (t : Nat) (p : Packet) : State :=
  let x := s.tile t
  let i := ringNext x.trav.inAt x.inboxCap
  (s.updMem fun m => { m with scr := m.scr.writeN (scrKey t (0x8000 + 64 * i)) 64 (packetImage p) }).updTrav t fun v =>
    { v with inbox := v.inbox ++ [p], inAt := v.inAt ++ [i] }
/-- Records of a hit queue (R238). -/
def hitDepth : Nat := 256
/-- A record enters a tile's hit queue (R238, R241). -/
def State.hitPut (s : State) (t : Nat) (ws : List Word) : State :=
  let i := ringNext (s.tile t).trav.hitAt hitDepth
  (s.updMem fun m => { m with scr := m.scr.writeN (scrKey t (0x4000 + 64 * i)) 64 (wordsNat ws) }).updTrav t fun v =>
    { v with hits := v.hits ++ [(s.now, ws)], hitAt := v.hitAt ++ [i] }
/-- A directory entry at a tile, and in the tile's directory slice (R226, R241). -/
def State.putDir (s : State) (h n : Nat) (e : DirEntry) : State :=
  (s.updMem fun m => { m with scr := m.scr.writeN (scrKey h (16 * e.slot)) 16 (e.word n) }).updTrav h fun v =>
    { v with dir := fset v.dir n e }
/-- A directory entry of a tile freed: its NUM becomes zero (R226, R227). -/
def State.freeDir (s : State) (h n : Nat) : State :=
  match fget? (s.tile h).trav.dir n with
  | none => s
  | some e => (s.updMem fun m => { m with scr := m.scr.writeN (scrKey h (16 * e.slot)) 16 0 }).updTrav h fun v =>
      { v with dir := fdel v.dir n }
/-- The lowest free place of a tile's directory slice. -/
def Travel.dirSlot (v : Travel) : Nat := ((List.range 512).find? fun i => v.dir.all fun p => p.2.slot != i).getD 0

/-- Offset of the segment area (R241). -/
def Tile.segBase (x : Tile) : Nat := 0x8000 + 16384 * (x.inboxU + 1)
/-- Offset of the local area (R241). -/
def Tile.locBase (x : Tile) : Nat := x.segBase + 16384 * x.segU
/-- A launch's share of a tile, while it has not ended there. -/
def Tile.share? (x : Tile) (l : Nat) : Option Share := x.shares.find? fun h => h.lidx == l && !h.ended
/-- A share changed. -/
def Tile.updShare (x : Tile) (l : Nat) (f : Share → Share) : Tile :=
  { x with shares := x.shares.map fun h => if h.lidx == l && !h.ended then f h else h }
/-- Whether R244 allows an access of n bytes of a launch at an offset of a tile; sys is the system slot. -/
def Tile.allows (x : Tile) (l off n : Nat) (write sys : Bool) : Bool :=
  if off < 0x4000 then sys
  else if off < x.segBase then false
  else if off < x.locBase then !write || sys
  else match x.share? l with
    | some h => h.lbase ≤ off && off + n ≤ h.lbase + h.lsize && h.lsize != 0
    | none => false

/-! ### Launches, error policy and traps (R174, R178, R294, R295, R306) -/

/-- The launch of a context. -/
def State.launchOf (s : State) (t c : Nat) : Launch := s.launch (s.ctx t c).lidx
/-- POLICY is LENIENT. -/
def State.lenient (s : State) (l : Nat) : Bool := (s.launch l).r.lenient
/-- The address space of a launch: that of its queue (R69). -/
def State.asidOf (s : State) (l : Nat) : Nat := (s.queue (s.launch l).queue).asid
/-- The sticky error flag set (R178). -/
def State.stick (s : State) (l : Nat) : State := s.updLaunch l fun x => { x with sticky := true }
/-- Poisoned lanes counted in POISONZ (R178, R305). -/
def State.countPois (s : State) (l n : Nat) : State :=
  if n == 0 then s else s.updLaunch l fun x => { x with att := { x.att with poisonz := sat 0xFFFFFFFF (x.att.poisonz + n) } }
/-- A violation-log entry (R307). -/
def Violation.word (v : Violation) : Nat :=
  v.addr % 2 ^ 48 + v.wr.toNat * 2 ^ 48 + v.lidx % 2 ^ 13 * 2 ^ 49 + v.srctile % 2 ^ 10 * 2 ^ 62 + v.ctx % 2 ^ 8 * 2 ^ 72 +
    2 ^ 80 + v.pc % 2 ^ 48 / 2 * 2 ^ 81
/-- Scratch offset of the violation log (R307). -/
def vlogBase : Nat := 0x3F80
/-- A violation refused on a tile (R306, R307): logged there, counted for the launch on the requesting tile, and the launch's
error policy applied. -/
def State.violate (s : State) (at_ req ctx l pc addr : Nat) (wr : Bool) : State :=
  let off := vlogBase + 16 * ((s.tile at_).un.vcount % 8)
  let s := s.updMem fun m => { m with scr := m.scr.writeN (scrKey at_ off) 16 (Violation.word ⟨pc, ctx, req, l, wr, addr⟩) }
  let s := s.updUn at_ fun u => { u with vcount := u.vcount + 1 }
  let s := s.updTile req fun x => x.updShare l fun h => { h with viol := sat 0xFFFF (h.viol + 1) }
  let s := s.updLaunch l fun x => { x with att := { x.att with viol := sat 0xFFFF (x.att.viol + 1) } }
  if s.lenient l then s else s.stick l

/-- Trap causes (R294). -/
def causeIllegal : Nat := 1
/-- UNIFORMITY (R294). -/
def causeUniformity : Nat := 2
/-- MISALIGN (R294). -/
def causeMisalign : Nat := 3
/-- PAGE_FAULT (R294). -/
def causePageFault : Nat := 4
/-- ACCESS (R294). -/
def causeAccess : Nat := 5
/-- DIVSTACK (R294). -/
def causeDivstack : Nat := 6
/-- SYNC_TIMEOUT (R294). -/
def causeSyncTimeout : Nat := 7
/-- BAR_MISMATCH (R294). -/
def causeBarMismatch : Nat := 8
/-- MESHBAR_TIMEOUT (R294). -/
def causeMeshbar : Nat := 9
/-- POISON_USE (R294). -/
def causePoison : Nat := 10
/-- LATE_VECTOR (R294). -/
def causeLateVector : Nat := 11
/-- LATE_MATRIX (R294). -/
def causeLateMatrix : Nat := 12
/-- UNCORRECTABLE (R294). -/
def causeUncorrectable : Nat := 13
/-- BKPT (R294). -/
def causeBkpt : Nat := 14
/-- SVC (R294). -/
def causeSvc : Nat := 15

/-- TRAPCAUSE (R295). -/
def trapcauseWord (cause acc kind : Nat) : Word :=
  BitVec.ofNat 32 ((if cause == 11 || cause == 12 then 2 ^ 31 else 0) + acc % 16 * 2 ^ 12 + kind % 16 * 2 ^ 8 + cause % 32)

/-- Ticks in which a supervisor takes a trap (R297). -/
def supervisorTicks : Nat := 2 ^ 20 * tileTicks
/-- Taking a trap (R294, R295, R297): the trap registers are written, the context stops, and the supervisor of the tile is asked.
TRAPSEQ is seq with SV = 1 when a late entry is named, else zero. -/
def State.trap (s : State) (t c cause acc kind addr : Nat) (seq : Option Nat) : State :=
  let s := s.updCtx t c fun k =>
    { k with status := .trapped, trapT := some s.now, mst := k.status == .mstone,
             ctl := { k.ctl with trapcause := trapcauseWord cause acc kind, trapaddr := BitVec.ofNat 64 (addr % 2 ^ 48),
                                 trapseq := match seq with
                                   | some n => BitVec.ofNat 32 (2 ^ 16 + n)
                                   | none => 0 } }
  (s.pend .trapHandling { tile := t, ctx := c }).after supervisorTicks .supervisorTimeout { tile := t, ctx := c, val := s.now }

/-- RaiseTrap for the issuing context, exact (R354). -/
def State.raise (s : State) (cause acc kind addr : Nat) : State := s.trap s.cur.1 s.cur.2 cause acc kind addr none
/-- ILLEGAL (exact) at the PC (R352). -/
def State.illegal (s : State) : State := s.raise causeIllegal 0 0 s.me.regs.pc.toNat
/-- ACCESS raised by a check on an operand that is no address: TRAPADDR the PC, KIND 0xF (R295). -/
def State.accessOp (s : State) : State := s.raise causeAccess 0 0xF s.me.regs.pc.toNat
/-- POISON_USE under STRICT: the sticky flag is set (R178, R305). -/
def State.poisonUse (s : State) : State := (s.stick s.me.lidx).raise causePoison 0 0 s.me.regs.pc.toNat

/-- Whether a context number is a path slot: the path-thread register set and no lanes (R348). -/
def isPath (c : Nat) : Bool := 192 ≤ c
/-- The system slot's context number (slot 30). -/
def sysCtx : Nat := 222
/-- The context number that an operation bears when its launch has been stopped, and the launch index (the model's own, R174). -/
def orphanCtx : Nat := 254
/-- The number of no context. -/
def noCtx : Nat := 255
/-- No launch has this index. -/
def orphanLaunch : Nat := 8192
/-- The context number of the copy slot (slot 31). -/
def copyCtx : Nat := 223

/-! ### Advancing the issuing context -/

/-- Where control goes after an instruction of len bytes that does not transfer it, with the repeat buffer (R340, R456). -/
def Ctx.seqPc (k : Ctx) (len : Nat) : Ctx :=
  let pc := k.regs.pc
  let n := pc + BitVec.ofNat 48 len
  match k.rep with
  | none => { k with regs := { k.regs with pc := n } }
  | some r =>
    if n = r.stop then
      if 1 < r.left then { k with regs := { k.regs with pc := r.first }, rep := some { r with left := r.left - 1 } }
      else { k with regs := { k.regs with pc := n }, rep := none }
    else { k with regs := { k.regs with pc := n } }

/-- What a stalled instruction had done is forgotten once it completes. -/
def Ctx.settle (k : Ctx) : Ctx :=
  { k with waitOn := fdel k.waitOn k.regs.pc.toNat, answer := fdel k.answer k.regs.pc.toNat,
           counted := k.counted.filter (· != k.regs.pc.toNat) }

/-- The instruction completes and control goes to the next one (R340). -/
def Ctx.retire (k : Ctx) (len : Nat) : Ctx := k.settle.seqPc len
/-- The instruction completes and control goes to an address (R386). -/
def Ctx.jump (k : Ctx) (pc : BitVec 48) : Ctx := let k := k.settle; { k with regs := { k.regs with pc := pc } }
/-- The issuing context completes its instruction. -/
def State.retire (s : State) (len : Nat) : State := s.updMe (·.retire len)
/-- What this instruction has already done while it waits; 0 nothing. -/
def State.waited (s : State) : Nat := fget s.me.waitOn s.me.regs.pc.toNat 0
/-- The answer this instruction was waiting for. -/
def State.answered (s : State) : Option (List Word) := fget? s.me.answer s.me.regs.pc.toNat
/-- The instruction waits, having done part of its work. -/
def State.waitWith (s : State) (code : Nat) : State :=
  s.updMe fun k => { k with waitOn := fset k.waitOn k.regs.pc.toNat code }
/-- A waiting path thread is runnable again (R202). -/
def Ctx.wake (k : Ctx) : Ctx := if k.status == .waiting then { k with status := .ready } else k
/-- The instruction waits for an answer: a wave stalls, and a path thread leaves the rotation (R202). -/
def State.waitOut (s : State) (code : Nat) : State :=
  (s.waitWith code).updMe fun k =>
    { k with answer := fdel k.answer k.regs.pc.toNat, status := if isPath s.cur.2 then .waiting else k.status }
/-- The issuing instruction as a message names it: its context and its PC, since an interrupt may be taken while it waits. -/
def State.token (s : State) : Nat := s.cur.2 + 256 * s.me.regs.pc.toNat
/-- The token of a request with a number, by which an answer that comes too late is told (R61). -/
def State.tokenOf (s : State) (id : Nat) : Nat := s.token + 2 ^ 56 * id
/-- An answer for a waiting instruction: that of a token, or the one at the context's PC; one whose request is no longer waited for is
discarded (R61). -/
def State.answer (s : State) (t c : Nat) (ws : List Word) : State :=
  let k := s.ctx t (c % 256)
  let pc := if 256 ≤ c then c / 256 % 2 ^ 48 else k.regs.pc.toNat
  if 2 ^ 56 ≤ c && fget k.waitOn pc 0 != c / 2 ^ 56 then s
  else s.updCtx t (c % 256) fun k => { k with answer := fset k.answer pc ws }.wake

/-- A context's waiting instruction fails with an exact trap: what it had done is forgotten. -/
def State.failWait (s : State) (t c cause acc kind : Nat) : State :=
  let s := s.updCtx t c (·.settle)
  s.trap t c cause acc kind (s.ctx t c).regs.pc.toNat none

/-! ### Counters (R262, R263) -/

/-- The value of a counter: the operations of its path since the oldest that has not returned. -/
def Ctx.counter (k : Ctx) (c : Ctr) : Nat := ((k.flight.filter fun f => f.ctr == c).dropWhile fun f => f.back).length
/-- A counter raised by an operation. -/
def Ctx.raiseCtr (k : Ctx) (c : Ctr) (id : Nat) : Ctx := { k with flight := k.flight ++ [⟨c, id, false⟩] }
/-- An operation returned: it lowers its counter once every earlier one has returned. -/
def Ctx.lower (k : Ctx) (id : Nat) : Ctx :=
  let fl := k.flight.map fun f => if f.id == id then { f with back := true } else f
  { k with flight := fl.filter fun f => !f.back || (fl.filter fun g => g.ctr == f.ctr && !g.back && g.id < f.id) != [] }
/-- All six counters are zero. -/
def Ctx.quiet (k : Ctx) : Bool :=
  [Ctr.gld, .gst, .scr, .cpy, .mtx, .svc].all fun c => k.counter c == 0
/-- INFLIGHT (R263). -/
def Ctx.inflight (k : Ctx) : Nat :=
  k.counter .gld + k.counter .gst * 2 ^ 6 + k.counter .scr * 2 ^ 12 + k.counter .cpy * 2 ^ 18 + k.counter .mtx * 2 ^ 24 +
    k.counter .svc * 2 ^ 30

/-! ### Messages (R43, R44, R52) -/

/-- A physical node by its die, column and row (R19, R42). -/
def nodeAt (d px row : Nat) : Nat := d * 272 + row * 17 + px
/-- Die, row and column of a node. -/
def nodeDie (n : Nat) : Nat := n / 272
/-- Row of a node. -/
def nodeRow (n : Nat) : Nat := n % 272 / 17
/-- Physical column of a node. -/
def nodePx (n : Nat) : Nat := n % 272 % 17
/-- The node at a logical position under the current remap (R19). -/
def State.nodeOf (s : State) (t : Nat) : Nat := nodeAt (dieOf t) ((s.die (dieOf t)).physCol (locY t) (locX t)) (locY t)
/-- The node is in pass-through (R19). -/
def State.passes (s : State) (n : Nat) : Bool := fget? (s.die (nodeDie n)).rowq (nodeRow n) == some (nodePx n)
/-- The logical position at which routes see a node (R44, R529): one in pass-through stands at the logical column of its number. -/
def State.nodeTile (s : State) (n : Nat) : Nat :=
  tileAt (nodeDie n) (min 15 ((s.die (nodeDie n)).logCol (nodeRow n) (nodePx n))) (nodeRow n)
/-- The attachment node of a port for a destination tile (R42, R65). -/
def portNode (p dst : Nat) : Nat := nodeAt (p / 2) 0 ((if p % 2 == 0 then 4 else 10) + dst % 2)
/-- The node that holds a place (R42, R43, R234): a tile's context may have been exchanged, a slice stays at its position, and an edge unit
at its physical node. -/
def State.routerOf (s : State) : Place → Nat
  | .tile t => s.nodeOf (s.exchanged t)
  | .slice t => s.nodeOf t
  | .memctl d c => nodeAt d c 0
  | .service d u => nodeAt d 0 u
  | .pcie d => nodeAt d 0 7
  | .port p => portNode p 0
  | .mgmt d => nodeAt d 0 15
/-- The route between two nodes runs y first (R45): its x-first path would enter a die that is left out. -/
def State.yFirst (s : State) (src dst : Nat) : Bool := (s.die (dieOf (tileY (s.nodeTile src) * 32 + tileX (s.nodeTile dst)))).leftOut
/-- A message that waits at a node for its injection, bound for another node (R43 to R46); one from a package port waits in the port's
adapter. -/
def State.launchMsg (s : State) (src dst : Place) (from_ to_ : Nat) (pkg : Option Nat) (vc flits l : Nat) (entered : Bool) (i : Instr) (a : Arg) :
    State :=
  let (n, s) := s.fresh
  let cls := (s.yFirst from_ to_).toNat + 2 * entered.toNat
  { s with msgs := s.msgs ++ [{ id := n, src := src, dst := dst, from_ := from_, to_ := to_, vc := vc, cls := cls, flits := flits, lidx := l,
                                at_ := from_, via := 0, pkg := pkg, hops := 0, payload := ⟨i, a⟩ }] }
/-- A message sent from its source's node (R43). -/
def State.send (s : State) (src dst : Place) (vc flits l : Nat) (i : Instr) (a : Arg) : State :=
  s.launchMsg src dst (s.routerOf src) (s.routerOf dst) none vc flits l false i a

/-- A control register of a tile as it is in force in a tile cycle: a write of it takes effect in the next one (R395). -/
def Sync.inForce (y : Sync) (cycle n : Nat) (now : Word) : Word :=
  match y.ctlPend.find? fun p => p.1 == cycle && p.2.1 == n with
  | some p => p.2.2.1
  | none => now
/-- FETMO of a tile (R266). -/
def State.fetmo (s : State) (t : Nat) : Nat := let y := (s.tile t).sync; (y.inForce s.tileCycle 0x01C y.fetmo).toNat
/-- MBTMO of a tile (R261). -/
def State.mbtmo (s : State) (t : Nat) : Nat := let y := (s.tile t).sync; (y.inForce s.tileCycle 0x01B y.mbtmo).toNat
/-- This package's number, DIEORIENT.PKG of a die (R11). -/
def State.pkgOf (s : State) (d : Nat) : Nat := (s.die d).bar0.pkg
/-- CYCLE as a tile reads it, the counter of the node that runs it (R27); those of a die are reset together. -/
def State.cycle (s : State) (t : Nat) : Nat := (s.now - (s.die (dieOf (s.exchanged t))).cycle0) / tileTicks

end Sys2Proof.Machine
end

