-- ==== Sys2Proof/Machine/Operands.lean ====
section
/-! DEFINITION. Operand forms: scalars, pairs, predicate bits, vectors and masks as an instruction reads and writes them, the
checks of R346 to R348 that depend on the context, the waits of R349, and the uses of poison of R305. -/
namespace Sys2Proof.Machine

/-! ### Scalars and pairs (R346, R347) -/

/-- The scalars that a scalar field names: none for sz. -/
def sr (r : Nat) : List Nat := if r = 63 then [] else [r]
/-- The scalars that a pair field names: none for sz. -/
def xr (r : Nat) : List Nat := if r = 63 then [] else [r, r + 1]
/-- The scalars of a scalar field, or of a pair field in the .w64 form. -/
def sxr (w64 : Bool) (r : Nat) : List Nat := if w64 then xr r else sr r
/-- The scalars of a block of n from r up (R469): none for sz. -/
def sblk (r n : Nat) : List Nat := if r = 63 then [] else (List.range n).map (r + ·)

/-- The poison bit of a scalar (R303). -/
def Ctx.psn (k : Ctx) (r : Nat) : Bool := k.regs.sp.getLsbD r
/-- Whether any of some scalars is poisoned; a pair is poisoned if either half is (R303). -/
def Ctx.psnAny (k : Ctx) (rs : List Nat) : Bool := rs.any k.psn
/-- The bits of a scalar, whatever its poison; sz is zero. -/
def Ctx.raw (k : Ctx) (r : Nat) : Word := if r = 63 then 0#32 else fget k.regs.s r 0#32
/-- A scalar as a use reads it: zero where it is poisoned, which happens under LENIENT only (R305). -/
def Ctx.rd (k : Ctx) (r : Nat) : Word := if k.psnAny (sr r) then 0#32 else k.raw r
/-- A pair as a use reads it: s(r+1) : s(r) (R347). -/
def Ctx.rdx (k : Ctx) (r : Nat) : Dword :=
  if r = 63 then 0#64 else if k.psnAny (xr r) then 0#64 else k.raw (r + 1) ++ k.raw r
/-- The bits of a pair, whatever its poison. -/
def Ctx.rawx (k : Ctx) (r : Nat) : Dword := if r = 63 then 0#64 else k.raw (r + 1) ++ k.raw r
/-- A scalar, or a pair in the .w64 form, as a use reads it. -/
def Ctx.rdsx (k : Ctx) (w64 : Bool) (r : Nat) : Dword := if w64 then k.rdx r else (k.rd r).setWidth 64
/-- A poison word with one bit set or cleared. -/
def putBit (w : BitVec 64) (i : Nat) (b : Bool) : BitVec 64 :=
  if b then w ||| BitVec.twoPow 64 i else w &&& ~~~BitVec.twoPow 64 i
/-- A scalar written with a poison bit; a write to sz is discarded (R347). -/
def Ctx.wrP (k : Ctx) (r : Nat) (v : Word) (p : Bool) : Ctx :=
  if r = 63 then k else { k with regs := { k.regs with s := fset k.regs.s r v, sp := putBit k.regs.sp r p } }
/-- A scalar written with poison 0 (R370). -/
def Ctx.wr (k : Ctx) (r : Nat) (v : Word) : Ctx := k.wrP r v false
/-- A pair written with one poison bit in both halves. -/
def Ctx.wrxP (k : Ctx) (r : Nat) (v : Dword) (p : Bool) : Ctx :=
  if r = 63 then k else (k.wrP r (v.setWidth 32) p).wrP (r + 1) ((v >>> 32).setWidth 32) p
/-- A pair written with poison 0 in both halves (R370). -/
def Ctx.wrx (k : Ctx) (r : Nat) (v : Dword) : Ctx := k.wrxP r v false
/-- A predicate bit of pw (R346). -/
def Ctx.pbit (k : Ctx) (i : Nat) : Bool := k.regs.pw.getLsbD i
/-- A predicate bit written (R380, R381). -/
def Ctx.wrPbit (k : Ctx) (i : Nat) (b : Bool) : Ctx :=
  { k with regs := { k.regs with pw := if b then k.regs.pw ||| BitVec.twoPow 32 i else k.regs.pw &&& ~~~BitVec.twoPow 32 i } }
/-- Whether a reply or an attached entry has yet to write one of some scalars (R349). -/
def Ctx.busySAny (k : Ctx) (rs : List Nat) : Bool := rs.any fun r => k.busyS.any fun b => b.1 == r

/-! ### The context's checks and waits (R305, R347, R348, R349, R352) -/

/-- The context classes of R348. -/
inductive Class where
  | A | W | P | S
  deriving DecidableEq, Repr

/-- Whether a class is allowed in a context (R348): waves are 0 to 191, the path slots and the system slot lie above. -/
def Class.allows : Class → Nat → Bool
  | .A, _ => true
  | .W, c => !isPath c
  | .P, c => isPath c
  | .S, c => c == sysCtx

/-- The scalars a context may name: a path thread and the system slot have s0 to s15 (R347, R348). -/
def scalarsOk (c : Nat) (rs : List Nat) : Bool := !isPath c || rs.all (· < 16)

/-- Number of operands, each a list of scalars, that hold poison; one register named twice counts once (R305). -/
def Ctx.poisonedUses (k : Ctx) (uses : List (List Nat)) : Nat := (uses.eraseDups.filter k.psnAny).length

/-- The uses of poison of an instruction (R178, R305): none, and it goes on; under LENIENT each counts once in POISONZ and
reads as zero (an instruction that stalls counts when it is first tried); under STRICT POISON_USE at the PC, with no effect. -/
def State.useThen (s : State) (n : Nat) (f : State → State) : State :=
  if n = 0 then f s
  else if s.lenient s.me.lidx then
    if s.me.counted.contains s.me.regs.pc.toNat then f s
    else f ((s.countPois s.me.lidx n).updMe fun k => { k with counted := k.counted ++ [k.regs.pc.toNat] })
  else s.poisonUse

/-- The frame of a scalar instruction: class and registers checked first (R352), then the wait for every register it names
(R349; it stays where it is and issues again), then its uses (R305), then its effect. -/
def State.guard (s : State) (c : Class) (named : List Nat) (uses : List (List Nat)) (f : State → State) : State :=
  if !(c.allows s.cur.2 && scalarsOk s.cur.2 named) then s.illegal
  else if s.me.busySAny named then s
  else s.useThen (s.me.poisonedUses uses) f

/-- A scalar instruction that changes its context alone and goes on to the next (R370). -/
def State.scalar (s : State) (c : Class) (len : Nat) (named : List Nat) (uses : List (List Nat)) (f : Ctx → Ctx) : State :=
  s.guard c named uses fun s => (s.updMe f).retire len

/-! ### Vectors and masks (R246, R247, R303, R346, R347) -/

/-- A vector register. -/
def Ctx.vreg (k : Ctx) (r : Nat) : VReg := fget k.regs.v r VReg.zero
/-- A lane's bits. -/
def VReg.lane (v : VReg) (i : Nat) : Word := v.lanes.toList.getD i 0#32
/-- A lane's poison. -/
def VReg.bad (v : VReg) (i : Nat) : Bool := v.poison.getLsbD i
/-- A vector register made lane by lane from values and poison bits. -/
def VReg.make (f : Nat → Word × Bool) : VReg :=
  { lanes := Vector.ofFn fun i : Fin 32 => (f i).1,
    poison := (List.range 32).foldl (fun w i => if (f i).2 then w ||| BitVec.twoPow 32 i else w) 0#32 }
/-- A lane as a use reads it: zero where it is poisoned (R305). -/
def VReg.use (v : VReg) (i : Nat) : Word := if v.bad i then 0#32 else v.lane i
/-- A vector register written. -/
def Ctx.wrV (k : Ctx) (r : Nat) (v : VReg) : Ctx := { k with regs := { k.regs with v := fset k.regs.v r v } }
/-- A mask register: m0 is all ones (R347). -/
def Ctx.mreg (k : Ctx) (n : Nat) : Word := if n = 0 then 0xFFFFFFFF#32 else fget k.regs.m n 0#32
/-- A mask register written; a write to m0 is discarded (R347). -/
def Ctx.wrM (k : Ctx) (n : Nat) (v : Word) : Ctx :=
  if n = 0 then k else { k with regs := { k.regs with m := fset k.regs.m n v } }
/-- The lanes a mask operand selects among the lanes of the execution mask (R347, R400). -/
def Ctx.active (k : Ctx) (o : MaskOp) : Word := k.regs.exec &&& (if o.inv then ~~~k.mreg o.k else k.mreg o.k)
/-- The active lanes as a list, in increasing order. -/
def lanesOf (w : Word) : List Nat := (List.range 32).filter w.getLsbD
/-- The uniform tag (R248): all 32 lanes hold one value and one poison bit. -/
def VReg.uniform (v : VReg) : Bool :=
  (List.range 32).all fun i => v.lane i == v.lane 0 && v.bad i == v.bad 0
/-- Whether every vector register named lies below Q (R247). -/
def Ctx.vecsOk (k : Ctx) (vs : List Nat) : Bool := vs.all fun r => r < k.regs.q && r < 256
/-- A vector register, or a vector pair in the .w64 form. -/
def vyr (w64 : Bool) (r : Nat) : List Nat := if w64 then [r, r + 1] else [r]
/-- Whether an earlier operation has yet to write one of some vector registers (R349). -/
def Ctx.busyVAny (k : Ctx) (vs : List Nat) : Bool := vs.any fun r => k.busyV.any fun b => b.1 == r
/-- Whether an earlier operation has yet to write one of some mask registers (R349); m0 is never written. -/
def Ctx.busyMAny (k : Ctx) (ms : List Nat) : Bool := ms.any fun r => r != 0 && k.busyM.any fun b => b.1 == r

/-- The registers that an instruction names: scalars, vectors, masks. -/
structure Named where
  s : List Nat := []
  v : List Nat := []
  m : List Nat := []
  deriving DecidableEq, Repr

/-- Whether an instruction waits for one of its registers (R349). -/
def Ctx.busyAny (k : Ctx) (n : Named) : Bool := k.busySAny n.s || k.busyVAny n.v || k.busyMAny n.m
/-- Whether a context may name an instruction's registers (R247, R347): a path thread no vector or mask. -/
def State.namesOk (s : State) (n : Named) : Bool :=
  scalarsOk s.cur.2 n.s && (!isPath s.cur.2 || (n.v.isEmpty && n.m.isEmpty)) && s.me.vecsOk n.v
/-- Poisoned lanes of a vector register among some lanes (R305). -/
def Ctx.badLanes (k : Ctx) (r : Nat) (act : Word) : Word := (k.vreg r).poison &&& act
/-- Number of one bits. -/
def popc (w : Word) : Nat := (lanesOf w).length
/-- Number of poisoned uses of vector registers in the active lanes: each 32-bit lane of a register counts once (R303,
R305). -/
def Ctx.vecUses (k : Ctx) (vs : List Nat) (act : Word) : Nat :=
  (vs.eraseDups.map fun r => popc (k.badLanes r act)).sum

end Sys2Proof.Machine
end

