-- ==== Sys2Proof/Machine/Launches.lean ====
section
/-! DEFINITION. What the device does to a launch as a whole: its attempt block and completion, the release of its tiles, its
abort with the retry decision, fault records, and the signature test of a write (R85, R86, R133 to R142, R158 to R162, R174 to
R179, R181). -/
namespace Sys2Proof.Machine

/-- The die of a queue (R133). -/
def queueDie (q : Nat) : Nat := q / 32768
/-- The launch tag: 17 bits of queue and 15 of sequence (R133). -/
def tagOf (q i : Nat) : Nat := q * 2 ^ 15 + i % 2 ^ 15
/-- The launch tag of a launch. -/
def Launch.tag (x : Launch) : Nat := tagOf x.queue x.idx
/-- The launch handle, LAUNCHID of R274. -/
def handleOf (l : Nat) : Nat := 2 ^ 13 + l
/-- The version tag of a slot and generation (R150). -/
def vtag (slot gen : Nat) : Nat := slot * 1024 + gen
/-- The version tag of a launch that holds a slot. -/
def Launch.vtag? (x : Launch) : Option Nat := x.slot.map fun k => vtag k x.gen
/-- The tiles of a rectangle, in increasing tile number (R190). -/
def rectTiles (x0 y0 w h : Nat) : List Nat :=
  (List.range h).flatMap fun j => (List.range w).map fun i => (y0 + j) * 32 + (x0 + i)
/-- The tile set of a launch. -/
def Launch.tiles (x : Launch) : List Nat := rectTiles x.r.x0 x.r.y0 x.r.w x.r.h
/-- The die that holds a launch's shadow: that of its corner (R154). -/
def Launch.shadowDie (x : Launch) : Nat := dieOf (x.r.y0 * 32 + x.r.x0)
/-- The launches on the package, by index. -/
def State.running (s : State) : List (Nat × Launch) := s.launches.filter fun p => p.2.run == 1 || p.2.run == 2

/-! ### Accesses of the device's own agents -/

/-- n bytes at a place, with their poison (R110, R304). -/
def State.agentRead (s : State) (d : Nat) (p : Loc) (n : Nat) : Nat × Bool :=
  match p with
  | .dev k _ => (s.devRead k n, s.linePoison (lineOf k))
  | .host _ a => s.hostLoad d a n
  | .peer _ a => (s.mem.peer.readN a n, false)
  | .scr t off => (s.scrRead t off n, s.scrPois t off)
/-- n bytes written at a place. -/
def State.agentWrite (s : State) (d : Nat) (p : Loc) (n v : Nat) (pois : Bool) : State :=
  match p with
  | .dev k _ => s.devWrite k n v pois
  | .host port a => s.hostWrite d port a n v pois
  | .peer _ a => s.updMem fun m => { m with peer := m.peer.writeN a n v }
  | .scr t off => s.scrWrite t off n v pois

/-- Whether a slot can be matched: RUNNING or WAITING, a switched-out launch among them (R162, R208). -/
def Launch.matchable (x : Launch) : Bool := (x.run == 1 || x.run == 2) && x.commit != 4
/-- The key of a read signature: version tag and slice (R159). -/
def sigKey (tag a : Nat) : Nat := tag * 256 + hashH a
/-- Whether a die's slice of a line matches it for a version tag, by its signature, which the L1 marks that have come back are part of
(R159, R160). -/
def State.seenOn (s : State) (d tag a : Nat) : Bool := sigHas (fget (s.die d).sigs (sigKey tag a) 0#1024) a
/-- The launches that the test of a write finds at a die's slice (R162): own is the writer's; a sheltered launch never aborts with CONFLICT
(R177). -/
def State.matched (s : State) (d a : Nat) (own : Option Nat) : List Nat :=
  (s.launches.filter fun (p : Nat × Launch) =>
    p.2.matchable && !p.2.sheltered && some p.1 != own && (match p.2.vtag? with | some g => s.seenOn d g a | none => false)).map (·.1)

/-! ### Lines, and their copies on a die (R79, R87, R91, R155) -/

/-- The physical address of a device line: its place in the pool of its zone (R78, R79). -/
def State.lineAddr (s : State) (line : Nat) : Nat :=
  let chan := line * 64 / chanSpan
  let off := line * 64 % chanSpan
  let home := if off < (s.zone 0).2 then 0 else if off < (s.zone 2).1 then 1 else 2
  let l := s.pool home (if home == 1 then chan / 64 else chan / 32)
  (((off - (s.zone home).1) / 256) * l.length + l.findIdx (· == chan)) * 256 + off % 256
/-- Whether a line key names a device line. -/
def isDev (line : Nat) : Bool := line < 2 ^ 50
/-- The address that hashes a line by its key, whichever version of it (R87, R155). -/
def State.keyAddr (s : State) (line : Nat) : Nat :=
  let k := line % 2 ^ 60
  if isDev k then s.lineAddr k else k % 2 ^ 46 * 64
/-- The slice that holds a line on a die, as a place. -/
def State.slicePlace (s : State) (d line : Nat) : Place := .slice (sliceTile d (s.keyAddr line))
/-- The cluster of a tile (R91). -/
def clusterOf (t : Nat) : Nat := locY t / 2 * 8 + locX t / 2
/-- The key of a line's copy in an L1: that of the line, or that of a version of it (R155). -/
def l1Key (ver : Option Nat) (line : Nat) : Nat :=
  match ver with
  | none => line
  | some g => (g + 1) * 2 ^ 60 + line
/-- An L1's line. -/
def State.l1 (s : State) (t k : Nat) : L1Line := fget (s.tile t).un.l1 k L1Line.init
/-- An L1's line replaced. -/
def State.setL1 (s : State) (t k : Nat) (x : L1Line) : State := s.updUn t fun u => { u with l1 := fset u.l1 k x }
/-- A tile's copies of a line dropped: in its L1, and in its instruction cache (R341). -/
def State.dropL1 (s : State) (t k : Nat) : State :=
  s.updUn t fun u => { u with l1 := fdel u.l1 k, ic := u.ic.filter (· != k) }
/-- The tiles of a die that hold a line in their L1 or their instruction cache (R91, R341). -/
def State.l1Holders (s : State) (d k : Nat) : List Nat :=
  (s.tiles.filter fun p => dieOf p.1 == d && ((fget p.2.un.l1 k L1Line.init).st != 0 || p.2.un.ic.contains k)).map (·.1)
/-- The directory of a line when its L1 copies are gone (R91). -/
def SliceLine.noSharers (y : SliceLine) : SliceLine := { y with dstate := 0, owner := 0, sharers := 0#64 }

/-- A line enters a slot's read set on a die (R158, R159). -/
def State.addRead (s : State) (d tag a : Nat) : State :=
  let s := s.updDie d fun x =>
    { x with sigs := fset x.sigs (sigKey tag a) (fget x.sigs (sigKey tag a) 0#1024 ||| sigOf a) }
  s.updTxn fun t =>
    let l := fget t.readSet tag []
    if l.contains (a / 64) then t else { t with readSet := fset t.readSet tag (l ++ [a / 64]) }
/-- The mark that an L1 copy gives back when it is removed: it counts as a signature match of that slot, if it is RUNNING or WAITING
(R160). -/
def State.markMatch (s : State) (t line : Nat) : State :=
  match ((s.l1 t line).mark).bind fun k => fget? s.txn.slots k with
  | none => s
  | some l =>
    match (s.launch l).vtag? with
    | some g => if (s.launch l).matchable then s.addRead (dieOf t) g (s.keyAddr line) else s
    | none => s
/-- Every L1 copy of a line on a die removed at once, with its mark; dirty sectors are written back (R93, R160). -/
def State.dropL1s (s : State) (d line : Nat) : State :=
  ((s.l1Holders d line).foldl (fun s t => (s.markMatch t line).dropL1 t line) s).updSlice d line (·.noSharers)
/-- An event that carries tokens of a line. -/
def Event.carries (e : Event) (line : Nat) : Bool :=
  (e.what == .tokenArrival || e.what == .tokenReturn || e.what == .memoryRead) && e.arg.line == line
/-- All 4 tokens of a line gathered at a die, those in flight among them, and every L1 copy removed: what a commit (R165 step 5) and the
device's own stores do in one step (log 64). -/
def State.gatherTokens (s : State) (d line : Nat) : State :=
  let s := { s with msgs := s.msgs.filter fun m => !m.payload.carries line, pending := s.pending.filter fun e => !e.carries line }
  let s := [0, 1, 2, 3].foldl (fun s i =>
    let s := if (s.l1Holders i line).isEmpty then s else s.dropL1s i line
    if i == d || (s.sliceLine i line).tok == 0 then s
    else s.updSlice i line fun y => { y with tok := 0, own := false, dv := false }) s
  let s := s.updHome line fun h => { h with htok := 0, hown := false, hint := h.hint ||| BitVec.twoPow 4 d }
  s.updSlice d line fun y => { y with tok := 4, own := true, dv := true }
/-! ### Accesses of the units of a die (R90, R96, R100, R143, R165) -/

/-- Whether a unit's access to a line may be made now at a die's slice: no lock, no acknowledgement outstanding, the L1 copies and the
tokens that it needs (R90, R100, R165). -/
def SliceLine.free (y : SliceLine) (dev write : Bool) : Bool :=
  y.lock.isNone && y.acks.isEmpty && y.waits.isEmpty && (if write then y.dstate == 0 else decide (y.dstate ≤ 1)) &&
  (!dev || (if write then y.tok == 4 && y.dv else decide (1 ≤ y.tok) && y.dv))
/-- A unit's event no longer waits on any line of a die; lines that it held up are served again. -/
def State.unlink (s : State) (d : Nat) (ev : Event) : State :=
  let mine := fun (l : Link) => match l with | .unit _ e => e == ev | .op _ => false
  let ks := ((s.die d).slice.filter fun p => p.2.kept == some ev || p.2.linked.any mine).map (·.1)
  let s := s.updDie d fun x => { x with slice := x.slice.map fun p =>
    (p.1, { p.2 with linked := p.2.linked.filter fun l => !mine l, due := p.2.due.filter fun l => !mine l,
                     kept := if p.2.kept == some ev then none else p.2.kept }) }
  ks.foldl (fun s k => s.pend .sliceRequest { die := d, line := k }) s
/-- The accesses that a unit of a die makes in an event, by line, with whether they write: whether all may be made now; else the event
waits on the first line that may not, behind the requests linked there, and happens again (R96, R101, R165). -/
def State.linesFor (s : State) (d : Nat) (ls : List (Nat × Bool)) (ev : Event) : Bool × State :=
  let ready := fun (p : Nat × Bool) =>
    let y := s.sliceLine d p.1
    y.free (decide (p.1 < 2 ^ 50)) p.2 && (y.kept == some ev || (y.kept.isNone && y.linked.isEmpty))
  match ls.find? fun p => !ready p with
  | none => (true, s.unlink d ev)
  | some (k, w) =>
    let s := if (s.sliceLine d k).linked.contains (.unit w ev) then s
      else (s.unlink d ev).updSlice d k fun y => { y with linked := y.linked ++ [.unit w ev] }
    (false, s.pend .sliceRequest { die := d, line := k })
/-- The accesses that a unit makes in one event on the slices of several dies: die, line, and whether it writes. -/
def State.linesOn (s : State) (ls : List (Nat × Nat × Bool)) (ev : Event) : Bool × State :=
  ((ls.map (·.1)).eraseDups).foldl (fun (r : Bool × State) d =>
    if r.1 then r.2.linesFor d (((ls.filter fun l => l.1 == d).map (·.2)).eraseDups) ev else r) (true, s)
/-- The lines that n bytes at a place touch, at most two (R96): those of device and HOST memory. -/
def placeLines (p : Loc) (n : Nat) (write : Bool) : List (Nat × Bool) :=
  match p with
  | .dev k _ => (((List.range n).map fun i => (k + i) / 64).eraseDups).map fun l => (l, write)
  | .host _ a => (((List.range n).map fun i => 2 ^ 50 + (a + i) / 64).eraseDups).map fun l => (l, write)
  | _ => []

/-- n bytes that the device itself stores at a place, such as a completion value (R142): a device line's tokens are gathered, and the test
of R162 follows. -/
def State.agentLater (s : State) (d : Nat) (p : Loc) (n v : Nat) : State :=
  match p with
  | .dev k a =>
    let s := (placeLines p n true).foldl (fun s l => s.gatherTokens d l.1) s
    let s := s.agentWrite d p n v false
    if [0, 1, 2, 3].any fun i => !(s.matched i a none).isEmpty then s.pend .forwardedRequest { die := d, line := lineOf k, val := a, ok := true }
    else s
  | _ => s.agentWrite d p n v false

/-- A queue error that leaves the queue's state (R141, R142, R528): QERR and EVEC, and the entry written back. -/
def State.qerrSoft (s : State) (q code : Nat) : State :=
  let x := s.queue q
  ((s.updQueue q fun x => { x with qerr := code }).irq (queueDie q) x.evec).pend .queueEntryWriteback { q := q }
/-- A queue error that puts the queue in ERROR (R23, R86, R137, R481, R528). -/
def State.qerrHard (s : State) (q code : Nat) : State := (s.qerrSoft q code).updQueue q fun x => { x with qstate := 2 }

/-- The attempt block from bit 1792 up (R139): 28 bytes. -/
def Attempt.word (a : Attempt) : Nat :=
  a.attempts % 256 + a.reason % 256 * 2 ^ 8 + a.state % 4 * 2 ^ 16 + a.addrpa.toNat * 2 ^ 18 + a.phase % 16 * 2 ^ 19 +
    a.tile % 1024 * 2 ^ 24 + a.pcode % 2 ^ 16 * 2 ^ 40 + a.addr % 2 ^ 52 * 2 ^ 64 + a.milestone % 2 ^ 32 * 2 ^ 128 +
    a.drops % 2 ^ 16 * 2 ^ 160 + a.viol % 2 ^ 16 * 2 ^ 176 + a.poisonz % 2 ^ 32 * 2 ^ 192
/-- The address of a record of a ring (R133). -/
def Queue.recVa (x : Queue) (i : Nat) : Nat := x.ringbase + i % 2 ^ x.ringlog * 256
/-- The attempt block written to the record (R141): a write that faults or meets an uncorrectable error is lost, with QERR 10 and
EVEC. -/
def State.writeAttempt (s : State) (x : Launch) : State :=
  let q := s.queue x.queue
  let d := queueDie x.queue
  match s.translate d q.asid (q.recVa x.idx + 224) 1 false true with
  | .ok (l, p) =>
    if l.cls == 3 || (match p with | .dev k _ => s.linePoison (lineOf k) | _ => false) then s.qerrSoft x.queue 10
    else s.agentLater d p 28 x.att.word
  | .error _ => s.qerrSoft x.queue 10
/-- READIDX advances past every ended record at its head (R142). -/
def Queue.advance (x : Queue) : Nat → Queue
  | 0 => x
  | n + 1 =>
    if x.ended.contains x.readIdx then
      Queue.advance { x with readIdx := (x.readIdx + 1) % 2 ^ 32, ended := x.ended.filter (· != x.readIdx) } n
    else x
/-- A record of a queue has ended (R142); one that READIDX has already passed stays behind it (R136). -/
def State.endRecord (s : State) (q i : Nat) : State :=
  let x := s.queue q
  if 2 ^ 31 ≤ (i + 2 ^ 32 - x.readIdx) % 2 ^ 32 then s
  else
    (s.updQueue q fun x => { x with ended := x.ended ++ [i] }.advance (x.ended.length + 1)).pend .queueEntryWriteback
      { q := q }
/-- Whether a launch of a queue is on the package or waits for a re-admission. -/
def State.queueBusy (s : State) (q : Nat) : Bool :=
  s.launches.any (fun p => p.2.queue == q && (p.2.run == 1 || p.2.run == 2)) || s.requeued.any fun p => p.2.queue == q
/-- The dispatcher of a die looks for a candidate again. -/
def State.redispatch (s : State) : State :=
  [0, 1, 2, 3].foldl (fun s d => if s.dieHost d then s.pend .admissionDecision { die := d } else s) s

/-! ### Releasing a launch's tiles (R195, R213, R245, R252, R254, R258, R260, R267, R270) -/

/-- Gangs of a launch. -/
def Matrix.gangsOf (x : Matrix) (l : Nat) : List Nat := (x.gangs.filter fun p => p.2.lidx == l).map (·.1)
/-- A tile's context numbers of a launch. -/
def Tile.ctxsOf (x : Tile) (l : Nat) : List Nat :=
  (x.ctxs.filter fun p => p.2.lidx == l && p.2.status != .idle).map (·.1)
/-- The matrix part with the given gangs dissolved: array, accumulators and requests given up (R252). -/
def Matrix.dissolve (m : Matrix) (gs : List Nat) : Matrix :=
  { m with gangs := m.gangs.filter fun p => !gs.contains p.1,
           owner := m.owner.bind fun g => if gs.contains g then none else some g,
           macq := m.macq.filter fun p => !gs.contains p.1,
           accOwner := m.accOwner.filter fun p => !gs.contains p.2,
           accQ := m.accQ.filter fun p => !gs.contains p.2.1 }
/-- The array's queues without some contexts' instructions. -/
def Matrix.unqueue (m : Matrix) (cs : List Nat) : Matrix :=
  let f := fun (q : List (Nat × Nat)) => q.filter fun p => !cs.contains p.1
  { m with loadQ := f m.loadQ, compQ := f m.compQ, drainQ := f m.drainQ }
/-- The synchronisation units without a launch: its contexts' arrivals, waits and mutexes are discarded (R254, R258, R260). -/
def Sync.drop (y : Sync) (l : Nat) (cs : List Nat) (deadOps : List Nat) : Sync :=
  { y with bar := y.bar.map fun p =>
             if p.2.opened && p.2.lidx == l then
               (p.1, { p.2 with opened := false, arrived := [], queued := [], overrun := false })
             else (p.1, { p.2 with queued := p.2.queued.filter fun z => z.2.2 != l }),
           waiters := y.waiters.filter fun w => !cs.contains w.2,
           mutex := y.mutex.filter fun p => !cs.contains p.2,
           mbArr := if y.mbRelease.isSome then y.mbArr else y.mbArr.filter fun c => !cs.contains c,
           mbWait := y.mbWait.filter fun w => !cs.contains w.1,
           mbNext := y.mbNext.filter fun c => !cs.contains c,
           mbDone := y.mbDone && (y.mbRelease.isSome || !y.mbArr.any cs.contains),
           park := y.park.filter fun p => !deadOps.contains p.op }
/-- The packet and hit machinery without a launch (R174, R213). -/
def Travel.drop (v : Travel) (l : Nat) : Travel :=
  let stays := fun (h : Nat × List Word) => (h.2.getD 15 0#32).toNat % 2 ^ 13 != l
  { v.keep fun p => p.lidx != l with
      hits := v.hits.filter stays, hitAt := keepWith stays v.hits v.hitAt, heldPk := v.heldPk.filter fun p => p.lidx != l }
/-- The other units without a launch: its copies, replies and registers (R197, R270). -/
def Units.drop (u : Units) (l : Nat) (cs gs : List Nat) : Units :=
  { u with mb := u.mb.filter fun p => p.2.lidx != l, susp := u.susp.filter fun c => c.lidx != l,
           replies := u.replies.map fun p => (p.1, p.2.filter fun r => r.lidx != l),
           gran := u.gran.filter fun g => !(cs.contains g.2.2 || gs.any fun n => g.2.2 == 256 + n) }
/-- A tile without a launch; its block stays until it has been zeroed (R245). -/
def Tile.release (x : Tile) (l : Nat) (deadOps : List Nat) : Tile :=
  let cs := x.ctxsOf l
  let gs := x.mx.gangsOf l
  { x with ctxs := x.ctxs.filter fun p => !cs.contains p.1 && (isPath p.1 || p.2.lidx != l), sync := x.sync.drop l cs deadOps, trav := x.trav.drop l,
           mx := (x.mx.dissolve gs).unqueue cs, un := x.un.drop l cs gs,
           shares := (x.shares.filter fun h => h.lidx != l || h.lsize != 0).map fun h =>
             if h.lidx == l then { h with ended := true, acc := 0, pslots := 0, packets := 0, credits := 0, creditQ := [], waves := 0, grans := 0 }
             else h,
           hand := x.hand.bind fun h => if cs.contains h.ctx then none else some h }
/-- Events that a context of a tile was waiting for. -/
def Event.forCtx (e : Event) (t : Nat) (cs : List Nat) : Bool :=
  e.arg.tile == t && cs.contains e.arg.ctx &&
  (match e.what with
   | .trapHandling | .lateFault | .attachedComplete | .syncTimeout | .userInterrupt | .waveUrgent | .accwaitTimeout
   | .meshbarTimeout | .segdef | .segdrop | .scrset | .nofunc | .supervisorTimeout => true
   | _ => false)
/-- What is left of an operation when its launch is stopped: writes that lie in no shadow and are on their way, which R174 does not
discard, no longer for any context (R179). -/
def Op.orphan (o : Op) (txn : Bool) : Option Op :=
  let out := fun (e : Elem) => match e.loc with
    | some (.scr ..) | none => false
    | some _ => !e.done && !(txn && (e.cls == 0 || e.cls == 2))
  let es := o.elems.filter out
  let writes := match o.kind with | .store | .atom | .red => true | _ => false
  if writes && !es.isEmpty then some { o with ctx := orphanCtx, lidx := orphanLaunch, seq := none, aux := [], elems := es } else none
/-- Entries that are being dropped are looked at again, since the threads bound to them may be gone (R227). -/
def State.pokeDrops (s : State) : State :=
  s.tiles.foldl (fun s (p : Nat × Tile) =>
    (p.2.trav.dir.filter fun e => e.2.state == 4).foldl (fun s e => s.pend .dropComplete { tile := p.1, seg := e.1 }) s) s
/-- Every tile without a launch, its operations ended but for those writes, and its services and events gone (R174). -/
def State.releaseTiles (s : State) (l : Nat) : State :=
  let dead := (s.ops.filter fun p => p.2.lidx == l).map (·.1)
  let txn := (s.launch l).r.txn
  let stay := s.ops.filterMap fun p => if p.2.lidx == l then (p.2.orphan txn).map fun o => (p.1, o) else some p
  let gone := fun (e : Event) => s.tiles.any fun p => e.forCtx p.1 (p.2.ctxsOf l)
  let grants := s.tiles.filter fun p =>
    (match p.2.mx.owner with | some g => (p.2.mx.gangsOf l).contains g | none => false)
  let freedMx := s.tiles.flatMap fun p =>
    (p.2.sync.mutex.filter fun m => (p.2.ctxsOf l).contains m.2).map fun m => (p.1, m.1)
  let blocks := s.tiles.filter fun p => p.2.shares.any fun h => h.lidx == l && h.lsize != 0
  let s : State :=
    { s with tiles := s.tiles.map (fun p => (p.1, p.2.release l dead)),
             ops := stay, svc := s.svc.map (fun r => if r.lidx == l then { r with dead := true } else r),
             pending := s.pending.filter (fun e => !gone e), timers := s.timers.filter (fun e => !gone e.2) }
  let s := grants.foldl (fun s (p : Nat × Tile) => s.pend .arrayGrant { tile := p.1 }) s
  let s := freedMx.foldl (fun s (p : Nat × Nat) => s.pend .mutexGrant { tile := p.1, id := p.2 }) s
  let s := blocks.foldl (fun s (p : Nat × Tile) => s.pend .localBlockZero { tile := p.1, lidx := l }) s
  s.pokeDrops
/-- A launch index given back: its fault records are no longer pending (R140, R316), it is no victim of a
pre-emption (R210), and every tile has yet to confirm that it holds no packet of it (R213). -/
def State.freeIndex (s : State) (l : Nat) : State :=
  let ts := s.tiles.map (·.1)
  let s := s.updQueue (s.launch l).queue fun x => { x with pending := x.pending.filter fun p => p.2.launch != handleOf l }
  let s := { s with launches := fdel s.launches l, freed := fset s.freed l ts,
                    preempts := s.preempts.map fun (p : Preempt) => { p with victims := p.victims.filter (· != l) } }
  ts.foldl (fun s t => s.send (.tile t) (.mgmt (dieOf t)) 7 1 l .indexConfirmation { tile := t, lidx := l }) s

/-! ### Stage queues at commit and abort (R180, R181) -/

/-- The RO fields of a stage queue's descriptor (R180), written after every change. -/
def State.writeStage (s : State) (n : Nat) : State :=
  let x := fget s.stageQs n StageQ.init
  let a := 0x1000 + 0x1000 * (n / 64) + 64 * (n % 64)
  let v := x.prod % 2 ^ 32 + x.cons % 2 ^ 32 * 2 ^ 32 + x.pushed % 2 ^ 32 * 2 ^ 64 + x.readyix % 2 ^ 32 * 2 ^ 96 +
    x.popped % 2 ^ 32 * 2 ^ 128 + x.freed % 2 ^ 32 * 2 ^ 160
  match s.poolKey 0 0 (a + 40) with
  | some k => s.agentLater (n / 64) (.dev k (a + 40)) 24 v
  | none => s
/-- A stage queue changed, its descriptor written. -/
def State.updStage (s : State) (n : Nat) (f : StageQ → StageQ) : State :=
  { s with stageQs := fset s.stageQs n (f (fget s.stageQs n StageQ.init)) }.writeStage n
/-- The stage queues bound to a launch, changed: g when it is the producer, c when it is the consumer. -/
def State.stagesOf (s : State) (tag : Nat) (g c : StageQ → StageQ) : State :=
  s.stageQs.foldl (fun s (p : Nat × StageQ) =>
    let s := if p.2.ptag == tag + 1 then s.updStage p.1 g else s
    if p.2.ctag == tag + 1 then s.updStage p.1 c else s) s
/-- Commit step 7 (R181): HELD becomes READY, TAKEN becomes FREE. -/
def State.stageCommit (s : State) (l : Nat) : State :=
  s.stagesOf (s.launch l).tag (fun x => { x with readyix := x.pushed }) fun x => { x with freed := x.popped }
/-- Abort (R181): HELD returns to FREE, TAKEN is READY again. -/
def State.stageAbort (s : State) (l : Nat) : State :=
  s.stagesOf (s.launch l).tag (fun x => { x with pushed := x.readyix }) fun x => { x with popped := x.freed }
/-- The bindings of a launch that ends are released (R180). -/
def State.stageUnbind (s : State) (x : Launch) : State :=
  s.stagesOf x.tag (fun y => { y with prod := 0, ptag := 0 }) fun y => { y with cons := 0, ctag := 0 }
/-- A launch admitted again keeps its bindings under its new handle (R180, R213). -/
def State.stageRebind (s : State) (l : Nat) : State :=
  s.stagesOf (s.launch l).tag (fun y => { y with prod := handleOf l }) fun y => { y with cons := handleOf l }

/-! ### The end of a launch (R142) -/

/-- The HOST store just posted follows the earlier ones of its port (R142, R169). -/
def State.orderLast (s : State) (p : Loc) : State :=
  match p with
  | .host .. => s.updMem fun m => { m with posted := match m.posted.getLast? with
      | some q => m.posted.dropLast ++ [{ q with ordered := true }]
      | none => [] }
  | _ => s
/-- The completion store (R142): 8 bytes at COMPADDR, never shadowed; one that faults sets QERR 2. -/
def State.completionStore (s : State) (x : Launch) : State :=
  if x.r.compaddr == 0 then s
  else
    let d := queueDie x.queue
    match s.translate d (s.queue x.queue).asid x.r.compaddr 1 false true with
    | .ok (_, p) => (s.agentLater d p 8 x.r.compval).orderLast p
    | .error _ => s.qerrSoft x.queue 2
/-- A launch that waits for this one's commit may be placed again (R176). -/
def State.unwait (s : State) (l : Nat) : State :=
  let f := fun (x : Launch) => if x.waitFor == some l then { x with waitFor := none } else x
  { s with requeued := s.requeued.map fun p => (p.1, f p.2), launches := s.launches.map fun p => (p.1, f p.2) }
/-- Its slot given back (R149). -/
def State.freeSlot (s : State) (x : Launch) : State :=
  match x.slot with
  | none => s
  | some k => (s.updTxn fun t => { t with slots := fdel t.slots k, waiting := t.waiting.filter fun j => j != k,
                                          committing := t.committing.filter fun j => j != k }).pend .sweep
                { slot := k, gen := x.gen, val := x.shadowDie }
/-- The commit arbiter looks at its waiting requests again, in their order (R166). -/
def State.pokeCommits (s : State) : State := s.txn.waiting.foldl (fun s k => s.pend .commitGrant { slot := k }) s
/-- What follows the end of any launch: its record ended, a DISABLE completed, the dispatchers asked again. -/
def State.afterEnd (s : State) (x : Launch) : State :=
  let s := s.endRecord x.queue x.idx
  let s := if (s.queue x.queue).disabling && !s.queueBusy x.queue then s.pend .queueDisabled { q := x.queue } else s
  s.pokeCommits.redispatch
/-- LAUNCH_COMPLETION (R142): a launch that has committed for the last time. -/
def State.completeLaunch (s : State) (l : Nat) : State :=
  let x := s.launch l
  let x := { x with att := { x.att with state := 2 } }
  let s := s.writeAttempt x
  let s := s.completionStore x
  let s := if x.r.msix then s.irqBehind (queueDie x.queue) (s.queue x.queue).cvec else s
  let s := ((s.stageUnbind x).releaseTiles l).freeSlot x
  ((s.freeIndex l).unwait l).afterEnd x
/-- A launch that ends FAILED (R142); quiet raises no interrupt (R39, R136). -/
def State.failLaunch (s : State) (x : Launch) (quiet : Bool) : State :=
  let s := s.writeAttempt { x with att := { x.att with state := 3 } }
  let s := if quiet then s else s.irq (queueDie x.queue) (s.queue x.queue).evec
  ((s.stageUnbind x).freeSlot x).afterEnd x

/-! ### Abort and retry (R151, R174 to R179) -/

/-- Whether a reason counts as an attempt (R176). -/
def counted (reason : Nat) : Bool := reason != 5
/-- The launch as its retry keeps it, or none when it fails (R176, R177, R179). -/
def Launch.retry (x : Launch) (reason tile detcap attlim : Nat) (committer : Option Nat) : Option Launch :=
  let att := x.att
  if !x.r.txn || reason == 3 then none
  else if counted reason && attlim ≤ att.attempts then none
  else
    match reason with
    | 1 => some { x with conflicts := x.conflicts + 1, sheltered := decide (1 ≤ x.conflicts), waitFor := committer }
    | 2 => if detcap < 2 * x.r.detsize then none else some { x with r := { x.r with detsize := 2 * x.r.detsize } }
    | 4 => if x.r.lenient then some x else if x.excl.isSome then none else some { x with excl := some tile }
    | _ => some x
/-- LAUNCH_ABORT with RETRY_DECISION (R174, R176).  During commit steps 4 to 7 the cause is only recorded (R165).  quiet is
the abort of a queue or of a die reset, which ends the launch without an interrupt (R39, R136). -/
def State.abortWith (s : State) (l reason addr : Nat) (pa : Bool) (tile pcode : Nat) (quiet : Bool) (by_ : Option Nat) :
    State :=
  match fget? s.launches l with
  | none => s
  | some x =>
    if x.run != 1 && x.run != 2 then s
    else if x.commit == 4 then
      if x.later.isSome then s
      else s.updLaunch l fun x => { x with later := some (reason, addr, pa, tile, pcode) }
    else
      let att := { x.att with reason := reason, phase := x.commit, addr := addr % 2 ^ 52, addrpa := pa, tile := tile,
                              pcode := if reason == 6 then pcode else x.att.pcode,
                              attempts := if counted reason then x.att.attempts + 1 else x.att.attempts, state := 0 }
      let x := { x with att := att, commit := 0, run := 0, final := false, saved := [], imgPages := [], tier := 0, sticky := false }
      let s := (s.stageAbort l).releaseTiles l
      let s := s.updTxn fun t => { t with waiting := t.waiting.filter fun j => some j != x.slot }
      let s := s.freeIndex l
      let q := s.queue x.queue
      match (if quiet then none else x.retry reason tile q.detcap q.attlim by_) with
      | none => s.failLaunch x quiet
      | some x =>
        let s := s.writeAttempt x
        let s := match x.slot with
          | some k => s.pend .sweep { slot := k, gen := x.gen, val := x.shadowDie }
          | none => s
        { s with requeued := fset s.requeued x.tag x }.pokeCommits.redispatch
/-- An abort with a reason, an address and a reporting tile (R174). -/
def State.abortLaunch (s : State) (l reason addr : Nat) (pa : Bool) (tile : Nat) : State :=
  s.abortWith l reason addr pa tile 0 false none

/-! ### Read sets and the signature test (R158 to R162) -/

/-- The test of a write at a slice that it reaches (R162): every other slot that matches aborts with CONFLICT; own is the writer's
launch. -/
def State.testAt (s : State) (d a : Nat) (own : Option Nat) : State :=
  let by_ := own.bind fun l => if (s.launch l).commit == 4 then some l else none
  (s.matched d a own).foldl (fun s l => s.abortWith l 1 (a / 64 * 64) true (sliceTile d a) 0 false by_) s
/-- n bytes written at a place by a unit of a die that has the permission (R162): the write is tested at the die's slice. -/
def State.agentStore (s : State) (d : Nat) (p : Loc) (n v : Nat) (pois : Bool) : State :=
  let s := s.agentWrite d p n v pois
  match p with
  | .dev _ a => s.testAt d a none
  | _ => s

/-! ### Fault records (R85, R86, R140) -/

/-- The bits of a fault record (R85). -/
def FaultRec.word (f : FaultRec) : Nat :=
  1 + f.root.toNat * 2 ^ 5 + f.level % 4 * 2 ^ 6 + f.kind % 16 * 2 ^ 8 + f.acc % 16 * 2 ^ 12 + f.va % 2 ^ 48 * 2 ^ 48 +
    f.asid % 256 * 2 ^ 96 + f.tile % 1024 * 2 ^ 110 + f.ctx % 256 * 2 ^ 120 + f.launch % 2 ^ 32 * 2 ^ 128 +
    f.pc % 2 ^ 48 * 2 ^ 160
/-- How the writing of a fault record ends. -/
inductive Filed where
  /-- Written, or joined to the pending record, with its queue and index. -/
  | at (q i : Nat)
  /-- The fault queue is full: the access waits for space (R140). -/
  | full
  /-- It cannot be written: the access is answered FAIL (R86). -/
  | dead
  deriving DecidableEq, Repr
/-- FAULT_RECORD_WRITE (R85, R140) and FAULT_QUEUE_UNREACHABLE (R86). -/
def State.fileFault (s : State) (q : Nat) (f : FaultRec) : Filed × State :=
  let x := s.queue q
  let d := queueDie q
  if x.qstate == 2 then (.dead, s)
  else
    match x.pending.find? fun (p : Nat × FaultRec) => p.2.launch == f.launch && p.2.asid == f.asid && p.2.va / 4096 == f.va / 4096 &&
        p.2.kind == f.kind && p.2.acc == f.acc with
    | some p => (.at q p.1, s)
    | none =>
      if (x.fqWrite + 2 ^ 32 - x.fqRead) % 2 ^ 32 == 2 ^ x.fqlog then (.full, s)
      else
        let va := x.fqbase + 32 * (x.fqWrite % 2 ^ x.fqlog)
        match s.translate d x.asid va 1 false true, s.translate d x.asid (va + 16) 1 false true with
        | .ok (l, .dev k a), .ok (l2, .dev k2 a2) =>
          if l.cls != 1 || l2.cls != 1 || s.linePoison (lineOf k) || s.linePoison (lineOf k2) then
            (.dead, s.qerrHard q 4)
          else
            let s := (s.agentLater d (.dev k a) 16 (f.word % 2 ^ 128)).agentLater d (.dev k2 a2) 16 (f.word / 2 ^ 128)
            let s := s.updQueue q fun x =>
              { x with fqWrite := (x.fqWrite + 1) % 2 ^ 32, pending := x.pending ++ [(x.fqWrite, f)] }
            let s := s.irq d x.fvec
            (.at q x.fqWrite, if x.deleg then s.pend .delegatedFault { q := q, idx := x.fqWrite } else s)
        | _, _ => (.dead, s.qerrHard q 4)
/-- The record of an access of a context (R85). -/
def State.faultRec (s : State) (t c : Nat) (pc va acc kind level : Nat) (root : Bool) : FaultRec :=
  let l := (s.ctx t c).lidx
  { pc := pc, launch := handleOf l, ctx := c, tile := t, asid := s.asidOf l, va := va % 2 ^ 48, acc := acc, kind := kind,
    level := level, root := root }

end Sys2Proof.Machine
end

