-- ==== Sys2Proof/Machine/Access.lean ====
section
/-! DEFINITION. One access to memory: its translation at a tile, its place, what it reads and writes there (shadow lines
included), and an operation from its issue to its reply (R70, R76, R77, R82, R83, R154 to R164, R280, R423 to R437). -/
namespace Sys2Proof.Machine

/-! ### Translation at a tile (R70, R82, R83, R85) -/

/-- First address that is never translated (R69). -/
def windowBase : Nat := 0xFC0000000000
/-- Whether an address formed in 64 bits is one that a global access takes (R70). -/
def globalVa (va : Nat) : Bool := va < windowBase

/-- How a tile answers a translation. -/
inductive Tr where
  | ok (l : Leaf) (p : Loc)
  | miss
  | fault (f : FaultRec)
  deriving DecidableEq, Repr

/-- A translation of an access of a launch at a tile: a fault already found for it, the L1 TLB's entry with the checks of R76
and R77, or a miss (R82).  Permission is judged before class. -/
def State.translateFor (s : State) (l t c pc va acc : Nat) (form : Bool) : Tr :=
  let asid := s.asidOf l
  let rec_ := fun (kind level : Nat) => { s.faultRec t c pc va acc kind level false with launch := handleOf l, asid := asid }
  let u := (s.tile t).un
  match u.xfault.find? fun x => x.1 == asid && x.2.1 == va / 4096 && x.2.2.1 == acc with
  | some x => .fault { x.2.2.2 with pc := pc, ctx := c, launch := handleOf l, tile := t, va := va % 2 ^ 48 }
  | none =>
    match tlbFind u.tlb asid va with
    | none => .miss
    | some lf =>
      if !lf.permits acc then .fault (rec_ 1 lf.level)
      else if lf.forbids acc (s.launch l).r.txn form then .fault (rec_ 3 lf.level)
      else match s.locOf lf (dieOf t) va with
        | some p => .ok lf p
        | none => .fault (rec_ 4 lf.level)
/-- A translation of a context's access at its tile. -/
def State.tileTranslate (s : State) (t c pc va acc : Nat) (form : Bool) : Tr :=
  s.translateFor (s.ctx t c).lidx t c pc va acc form
/-- An L1 TLB miss takes a credit and asks the die's L2 TLB, unless the page is being walked; with no credit free the tile's
translation port holds it, and memory issue stalls (R83). -/
def State.askWalkFor (s : State) (asid t va acc : Nat) : State :=
  let u := (s.tile t).un
  if u.walks.any fun w => w.1 == asid && w.2.1 == va / 4096 then s
  else if 8 ≤ u.credits then s.updUn t fun u => { u with stalled := true }
  else
    (s.updUn t fun u => { u with credits := u.credits + 1, walks := u.walks ++ [(asid, va / 4096, acc)] }).pend .l1TlbMiss
      { tile := t, asid := asid, vpn := va / 4096, acc := acc }
/-- A miss of a context's access. -/
def State.askWalk (s : State) (t c va acc : Nat) : State := s.askWalkFor (s.asidOf (s.ctx t c).lidx) t va acc
/-- A fault that has been reported is no longer kept: the access translates again (R86). -/
def State.dropXfault (s : State) (t : Nat) (f : FaultRec) : State :=
  s.updUn t fun u => { u with xfault := u.xfault.filter fun x => !(x.1 == f.asid && x.2.1 == f.va / 4096 && x.2.2.1 == f.acc) }
/-- The cause of a translation fault: PAGE_FAULT for kinds 0, 2 and 4, ACCESS for 1 and 3 (R85). -/
def faultCause (kind : Nat) : Nat := if kind == 1 || kind == 3 then causeAccess else causePageFault
/-- The issuing context traps on a translation fault (R294, R295). -/
def State.memFault (s : State) (f : FaultRec) : State :=
  let s := (s.dropXfault s.cur.1 f).updMe fun k => { k with frec := some f }
  s.raise (faultCause f.kind) f.acc f.kind f.va

/-! ### Places -/

/-- The key of the line of a place: device lines, and HOST and PEER lines by bus address. -/
def lineKeyOf : Loc → Nat
  | .dev k _ => k / 64
  | .host _ a => 2 ^ 50 + a / 64
  | .peer _ a => 2 ^ 52 + a / 64
  | .scr t off => 2 ^ 54 + scrKey t off / 64
/-- The address that hashes a place's line: physical or bus address (R87). -/
def addrOf : Loc → Nat
  | .dev _ a => a
  | .host _ a => a
  | .peer _ a => a
  | .scr _ off => off
/-- The place of the first byte of a place's line. -/
def lineBase : Loc → Loc
  | .dev k a => .dev (k / 64 * 64) (a / 64 * 64)
  | .host port a => .host port (a / 64 * 64)
  | .peer port a => .peer port (a / 64 * 64)
  | .scr t off => .scr t (off / 64 * 64)
/-- The key of a shadow line: version tag and line. -/
def shKey (tag lk : Nat) : Nat := tag * 2 ^ 60 + lk
/-- A slot's shadow or delta line. -/
def State.shLine? (s : State) (tag : Nat) (p : Loc) : Option ShLine := fget? s.txn.shadow (shKey tag (lineKeyOf p))
/-- The version tag under which a launch's access to a place is shadowed, if it is (R76, R154): GLOBAL, and HOST for
stores. -/
def State.shTag (s : State) (l cls : Nat) : Option Nat :=
  let x := s.launch l
  if x.r.txn && (cls == 0 || cls == 2) then x.vtag? else none

/-! ### Arithmetic of atomics (R434) -/

/-- new of R434, on n-byte codes. -/
def atomNew (op : AtomOp) (ty : Ty) (n old b cmp : Nat) : Nat :=
  let w := 8 * n
  match op with
  | .add => if ty == .f32 then (f32Add old b).1 else (old + b) % 2 ^ w
  | .min =>
    if ty == .f32 then fMinMax .f32 false false old b
    else if ty == .i32 then (if sgn w b < sgn w old then b else old) else (if b < old then b else old)
  | .max =>
    if ty == .f32 then fMinMax .f32 true false old b
    else if ty == .i32 then (if sgn w old < sgn w b then b else old) else (if old < b then b else old)
  | .and => Nat.land old b
  | .or => Nat.lor old b
  | .xor => Nat.xor old b
  | .exch => b
  | .cas => if old == cmp then b else old

/-! ### Shadow and delta lines (R154 to R158, R164) -/

/-- Number of ways a slice set gives to shadow lines (R153, R154). -/
def State.shadowWays (s : State) : Nat :=
  match (s.txn.tcacfg.getD 0#64).toNat % 16 with
  | 0 => 8
  | 14 | 15 => 12
  | n => n - 1
/-- A shadow line replaced, and the most recently used of its set (R154). -/
def State.setSh (s : State) (tag : Nat) (p : Loc) (x : ShLine) : State :=
  let (n, s) := s.fresh
  s.updTxn fun t => { t with shadow := fset t.shadow (shKey tag (lineKeyOf p)) { x with use := n } }
/-- n bytes of a line at an offset, as a number, from a list of bytes. -/
def bytesAt (bs : List Byte) (off n : Nat) : Nat := leNat ((bs.drop off).take n)
/-- The 64 bytes of a line in base memory, as the shadow die sees them, and its poison. -/
def State.baseLine (s : State) (d : Nat) (p : Loc) : List Byte × Bool :=
  match lineBase p with
  | .host _ a => ((List.range 64).map fun i => BitVec.ofNat 8 (s.hostLoad d (a + i) 1).1, (s.hostLoad d a 1).2)
  | q => let r := s.agentRead d q 64; (leBytes 64 r.1, r.2)
/-- Base bytes where nothing is written, shadow bytes elsewhere. -/
def ShLine.merge (x : ShLine) (base : List Byte) : List Byte :=
  (List.range 64).map fun i => if x.mask.getLsbD i then x.data.getD i 0#8 else base.getD i 0#8
/-- Bits [off + n − 1 : off] of a byte mask. -/
def byteMask (off n : Nat) : BitVec 64 := BitVec.ofNat 64 ((2 ^ n - 1) * 2 ^ off)
/-- Bytes written to a shadow line. -/
def ShLine.write (x : ShLine) (off n v : Nat) (pois : Bool) : ShLine :=
  { x with mask := x.mask ||| byteMask off n, data := patchBytes x.data off (leBytes n v),
           poison := if n == 64 then pois else x.poison || pois }
/-- The base line enters the slot's read set on the reader's die (R158, R159). -/
def State.readBase (s : State) (d tag : Nat) (p : Loc) : State :=
  match p with
  | .dev _ a => s.addRead d tag a
  | _ => s
/-- A delta line made a shadow line (R164): the base line is read and enters the read set, and the deltas are applied. -/
def State.undelta (s : State) (d tag : Nat) (p : Loc) (x : ShLine) : ShLine × State :=
  if x.delta.isEmpty then (x, s)
  else
    let (base, pois) := s.baseLine d p
    let y := x.delta.foldl (fun (y : ShLine) w =>
      y.write (4 * w.1) 4 (atomNew w.2.1 w.2.2.1 4 (bytesAt (y.merge base) (4 * w.1) 4) w.2.2.2.toNat 0) pois)
      { x with delta := [] }
    (y, (s.readBase d tag p).setSh tag p y)
/-- A load through a slot's shadow (R155, R158): the bytes, their poison, and the line in the read set. -/
def State.shLoad (s : State) (d tag : Nat) (p : Loc) (n : Nat) (x : ShLine) : Nat × Bool × State :=
  let (x, s) := s.undelta d tag p x
  let off := addrOf p % 64
  let whole := x.mask &&& byteMask off n == byteMask off n
  let (base, pois) := s.baseLine d p
  (bytesAt (x.merge base) off n, x.poison || (!whole && pois), (s.readBase d tag p).setSh tag p x)
/-- A store into a slot's shadow (R154). -/
def State.shStore (s : State) (d tag va : Nat) (p : Loc) (n v : Nat) (pois : Bool) : State :=
  let x := (s.shLine? tag p).getD { ShLine.init with va := va, loc := lineBase p }
  let (x, s) := s.undelta d tag p x
  s.setSh tag p (x.write (addrOf p % 64) n v pois)
/-- A returning atomic in a slot's shadow (R164): the old value, its poison. -/
def State.shAtom (s : State) (d tag va : Nat) (p : Loc) (n : Nat) (op : AtomOp) (ty : Ty) (b cmp : Nat) :
    Nat × Bool × State :=
  let x := (s.shLine? tag p).getD { ShLine.init with va := va, loc := lineBase p }
  let (old, pois, s) := s.shLoad d tag p n x
  (old, pois, s.shStore d tag va p n (atomNew op ty n old b cmp) pois)
/-- A reduction in a slot's shadow (R164): combined into a delta word, or applied to the shadow line. -/
def State.shRed (s : State) (d tag va : Nat) (p : Loc) (n : Nat) (op : AtomOp) (ty : Ty) (b : Nat) : State :=
  let x := (s.shLine? tag p).getD { ShLine.init with va := va, loc := lineBase p }
  let w := addrOf p % 64 / 4
  let apply (s : State) (x : ShLine) : State :=
    let (x, s) := s.undelta d tag p x
    let off := addrOf p % 64
    let whole := x.mask &&& byteMask off n == byteMask off n
    let (base, pois) := s.baseLine d p
    let s := if whole then s else s.readBase d tag p
    let old := bytesAt (x.merge base) off n
    s.setSh tag p (x.write off n (atomNew op ty n old b 0) (x.poison || (!whole && pois)))
  if n != 4 || x.mask != 0#64 then apply s x
  else
    match x.delta.find? fun y => y.1 == w with
    | none => s.setSh tag p { x with delta := x.delta ++ [(w, op, ty, BitVec.ofNat 32 b)] }
    | some y =>
      if y.2.1 == op && y.2.2.1 == ty then
        s.setSh tag p { x with delta := x.delta.map fun z =>
          if z.1 == w then (w, op, ty, BitVec.ofNat 32 (atomNew op ty 4 z.2.2.2.toNat b 0)) else z }
      else apply s x

/-! ### Ways for shadow lines (R154 to R156) -/

/-- The set of a slice that a place falls in (R95). -/
def sliceSet (a : Nat) : Nat := hashH a * 1024 + bits a 25 16
/-- Shadow and delta lines of every slot in the set of a line on a shadow die, with their keys: those not in a detour area (R154). -/
def State.setLines (s : State) (d a : Nat) : List (Nat × ShLine) :=
  s.txn.shadow.filter fun p =>
    !p.2.detour && sliceSet (addrOf p.2.loc) == sliceSet a &&
    (match fget? s.txn.slots (p.1 / 2 ^ 60 / 1024) with
     | some l => (s.launch l).shadowDie == d
     | none => false)
/-- A write of a version would make a new shadow or delta line at a place in a set whose shadow ways are full (R154). -/
def State.waysFull (s : State) (g d : Nat) (p : Loc) : Bool :=
  (s.shLine? g p).isNone && decide (s.shadowWays ≤ (s.setLines d (addrOf p)).length)
/-- A line of a set moves to the detour area, unless a move of that set is under way or waits for a fault's answer (R154, R156). -/
def State.askMove (s : State) (d slot : Nat) (p : Loc) : State :=
  let set := sliceSet (addrOf p)
  if s.txn.moving.any (fun m => m.2.die == d && m.2.val == set) || s.pending.any fun e => e.what == .shadowMove && e.arg.die == d && e.arg.val == set then s
  else s.pend .shadowMove { die := d, slot := slot, line := lineKeyOf p, off := addrOf p, val := set }
/-- Copies of a line in the L1s of some dies, other than one version of it, removed with their marks (R155). -/
def State.dropVersions (s : State) (ds : List Nat) (line keep : Nat) : State :=
  let s := ds.foldl (fun s d => (s.l1Holders d line).foldl (fun s t => s.markMatch t line) (s.updSlice d line (·.noSharers))) s
  { s with tiles := s.tiles.map fun (p : Nat × Tile) =>
      if ds.contains (dieOf p.1) then
        (p.1, { p.2 with un := { p.2.un with l1 := p.2.un.l1.filter (fun q => q.1 % 2 ^ 60 != line || q.1 == keep),
                                             ic := p.2.un.ic.filter (· != line) } })
      else p }
/-- Before the first shadow write of a slot to a line, every L1 copy of it on the dies of the tile set that does not carry the slot's
version is invalidated (R155). -/
def State.clearForShadow (s : State) (l g : Nat) (p : Loc) : State :=
  if (s.shLine? g p).isSome then s
  else s.dropVersions (((s.launch l).tiles.map dieOf).eraseDups) (lineKeyOf p) (l1Key (some g) (lineKeyOf p))
/-- An event that waits until a shadow way, or the sheltered launch's hold, is free (R154, R177). -/
def State.holdEvent (s : State) (ev : Event) : State :=
  s.updTxn fun t => { t with wayWait := if t.wayWait.contains ev then t.wayWait else t.wayWait ++ [ev] }
/-- A unit that is about to write at a place for a launch: for what is shadowed, a way is found, which the event may have to wait for, and
the other copies are invalidated (R154, R155); whether it may write now. -/
def State.wayFor (s : State) (l cls : Nat) (p : Loc) (ev : Event) : Bool × State :=
  match s.shTag l cls with
  | none => (true, s)
  | some g =>
    let d := (s.launch l).shadowDie
    if s.waysFull g d p then
      let s := s.askMove d ((s.launch l).slot.getD 0) p
      (false, s.holdEvent ev)
    else (true, s.clearForShadow l g p)
/-- The lines that a unit's access of n bytes for a launch needs of its die: none where a shadow serves it (R155). -/
def State.unitLines (s : State) (l cls : Nat) (p : Loc) (n : Nat) (write : Bool) : List (Nat × Bool) :=
  match s.shTag l cls with
  | none => placeLines p n write
  | some g => if write || (s.shLine? g p).isSome then [] else placeLines p n false

/-! ### One element performed at its place (R425, R434, R435) -/

/-- Poison of the words of an access of n bytes. -/
def poisOf (p : Bool) (n : Nat) : BitVec 2 := if p then (if n == 8 then 3#2 else 1#2) else 0#2
/-- A load performed. -/
def State.loadAt (s : State) (t l cls : Nat) (p : Loc) (n : Nat) : Nat × Bool × State :=
  let d := dieOf t
  match s.shTag l cls, p with
  | some g, _ =>
    match s.shLine? g p with
    | some x => s.shLoad d g p n x
    | none =>
      let s := match p with
        | .host _ a => s.hostFill d a
        | _ => s
      let r := s.agentRead d p n
      (r.1, r.2, if cls == 0 then s.readBase d g p else s)
  | none, .host _ a => let s := s.hostFill d a; let r := s.hostLoad d a n; (r.1, r.2, s)
  | none, _ => let r := s.agentRead d p n; (r.1, r.2, s)
/-- A store performed: shadowed, or in place. -/
def State.storeAt (s : State) (t l cls va : Nat) (p : Loc) (n v : Nat) (pois : Bool) : State :=
  let d := dieOf t
  match s.shTag l cls with
  | some g => s.shStore d g va p n v pois
  | none => s.agentWrite d p n v pois
/-- A PCIe AtomicOp at the port (R435): non-posted, so it follows the posted stores of the port. -/
def State.portAtom (s : State) (p : Loc) (n : Nat) (op : AtomOp) (b cmp : Nat) : Nat × State :=
  match p with
  | .host _ a =>
    let s := s.flushPosted
    let old := s.sysRead a n
    (old, s.updMem fun m => { m with sys := m.sys.writeN a n (atomNew op .n32 n old b cmp) })
  | .peer _ a =>
    let old := s.mem.peer.readN a n
    (old, s.updMem fun m => { m with peer := m.peer.writeN a n (atomNew op .n32 n old b cmp) })
  | _ => (0, s)
/-- A returning atomic performed: the old value and its poison (R434, R437). -/
def State.atomAt (s : State) (t l cls va : Nat) (p : Loc) (n : Nat) (op : AtomOp) (ty : Ty) (b cmp : Nat) :
    Nat × Bool × State :=
  match p with
  | .dev k _ =>
    match s.shTag l cls with
    | some g => s.shAtom (dieOf t) g va p n op ty b cmp
    | none =>
      let old := s.devRead k n
      let pois := s.linePoison (k / 64)
      (old, pois, s.devWrite k n (atomNew op ty n old b cmp) pois)
  | _ => let r := s.portAtom p n op b cmp; (r.1, false, r.2)
/-- A reduction performed (R434, R436). -/
def State.redAt (s : State) (t l cls va : Nat) (p : Loc) (n : Nat) (op : AtomOp) (ty : Ty) (b : Nat) : State :=
  match p, s.shTag l cls with
  | .dev .., some g => s.shRed (dieOf t) g va p n op ty b
  | _, _ => (s.atomAt t l cls va p n op ty b 0).2.2
/-- The bytes of a line that the lanes of an operation write. -/
def Op.covers (o : Op) (line : Nat) : BitVec 64 :=
  o.elems.foldl (fun w e =>
    match e.loc with
    | some p => if lineKeyOf p == line then w ||| byteMask (addrOf p % 64) e.n else w
    | none => w) 0#64
/-- A unit is about to write all 64 bytes of a place's line, or of the shadow line of a version: its POISON is cleared (R110, R304). -/
def State.wholeLine (s : State) (d : Nat) (tag : Option Nat) (p : Loc) : State :=
  match tag, p with
  | some g, _ =>
    match s.shLine? g p with
    | some x => let (x, s) := s.undelta d g p x; s.setSh g p { x with poison := false }
    | none => s
  | none, .dev k _ => s.updHome (k / 64) fun h => { h with poison := false }
  | none, .host _ a =>
    s.updDie d fun x =>
      match fget? x.hostHeld (hostKey a) with
      | some (bs, _) => { x with hostHeld := fset x.hostHeld (hostKey a) (bs, false) }
      | none => x
  | none, _ => s
/-- A unit is about to write n bytes at each of some places, with their classes, for a launch: the lines that it writes whole. -/
def State.wholeLines (s : State) (d l n : Nat) (ws : List (Nat × Loc)) : State :=
  (ws.filter fun w => addrOf w.2 % 64 == 0).foldl (fun s w =>
    let mask := ws.foldl (fun m v => if lineKeyOf v.2 == lineKeyOf w.2 then m ||| byteMask (addrOf v.2 % 64) n else m) 0#64
    if mask == BitVec.allOnes 64 then s.wholeLine d (s.shTag l w.1) w.2 else s) s
/-- A store whose lanes write all 64 bytes of a line clears its POISON, before the first of them (R110). -/
def State.cleared (s : State) (o : Op) (e : Elem) : State :=
  match e.loc with
  | some p =>
    let first := o.elems.find? fun f => f.loc.map lineKeyOf == some (lineKeyOf p)
    if first == some e && o.covers (lineKeyOf p) == BitVec.allOnes 64 then s.wholeLine (dieOf o.tile) (s.shTag o.lidx e.cls) p else s
  | none => s
/-- An element performed: what it returned, and the state after. -/
def State.perform (s : State) (o : Op) (e : Elem) : Elem × State :=
  match e.loc with
  | none => (e, s)
  | some p =>
    match o.kind with
    | .load =>
      let r := s.loadAt o.tile o.lidx e.cls p e.n
      ({ e with done := true, res := BitVec.ofNat 64 r.1, rpois := poisOf r.2.1 e.n }, r.2.2)
    | .store => ({ e with done := true }, (s.cleared o e).storeAt o.tile o.lidx e.cls e.va p e.n e.data.toNat (e.dpois != 0#2))
    | .atom =>
      let r := s.atomAt o.tile o.lidx e.cls e.va p e.n o.aop o.ty e.data.toNat e.cmp.toNat
      ({ e with done := true, res := BitVec.ofNat 64 r.1, rpois := poisOf r.2.1 e.n }, r.2.2)
    | .red => ({ e with done := true }, s.redAt o.tile o.lidx e.cls e.va p e.n o.aop o.ty e.data.toNat)
    | _ => ({ e with done := true }, s)

/-! ### Operations (R262, R280, R426 to R429) -/

/-- An element for a lane. -/
def mkElem (lane va n : Nat) (loc : Option Loc) (data : Dword) (dpois : BitVec 2) : Elem :=
  { lane := lane, va := va, loc := loc, cls := 0, n := n, data := data, dpois := dpois, cmp := 0, done := false, res := 0,
    rpois := 0 }
/-- The counter an operation raises (R262). -/
def OpKind.ctr : OpKind → Option Ctr
  | .load | .atom | .pref => some .gld
  | .store | .red | .cinv | .cflush => some .gst
  | .scrLoad | .scrStore | .syncLoad _ | .syncStore | .feset _ => some .scr
  | .service => some .svc
  | _ => none
/-- Whether an operation answers with a value that a register takes. -/
def OpKind.returns : OpKind → Bool
  | .load | .atom | .scrLoad | .syncLoad _ | .qpush | .qpop | .launch => true
  | _ => false
/-- Whether a path thread that issues an operation is out of the rotation until its answer: one that returns a value, or a remote scratch
operation (R202, R426, R516). -/
def OpKind.holdsThread (k : OpKind) : Bool := k.returns || k.ctr == some .scr
/-- Whether an operation is answered with data. -/
def OpKind.reads (k : OpKind) : Bool := k.returns || k == .pref || k == .fetch
/-- The issuing context's own accesses: those of its copies are not among them (R279). -/
def State.myOps (s : State) : List (Nat × Op) :=
  s.ops.filter fun p => p.2.tile == s.cur.1 && p.2.ctx == s.cur.2 && p.2.kind != .copyRead && p.2.kind != .copyWrite
/-- An acquire, wider than wave, whose reply has not come (R427). -/
def Op.acquiring (o : Op) : Bool := (o.ord.code == 1 || o.ord.code == 3) && o.ord.scope != 0
/-- Whether every lane of an operation has been performed. -/
def Op.allDone (o : Op) : Bool := o.elems.all fun e => e.done
/-- Whether every lane of an operation has returned (R426). -/
def Op.allBack (o : Op) : Bool := o.elems.all fun e => e.done && e.back
/-- The lanes of an operation that an answer is for, a bit each. -/
def laneMask (es : List Elem) : Nat := es.foldl (fun w e => w ||| 2 ^ e.lane) 0
/-- The lanes that are performed in one list and not in another, earlier one. -/
def newlyDone (es old : List Elem) : Nat :=
  laneMask ((es.zip old).filterMap fun (p : Elem × Elem) => if p.1.done && !p.2.done then some p.1 else none)
/-- An operation whose performed lanes of a mask have returned. -/
def Op.returned (o : Op) (lanes : Nat) : Op :=
  { o with elems := o.elems.map fun e => if e.done && lanes.testBit e.lane then { e with back := true } else e }
/-- A release wider than wave (R278). -/
def ordReleases (o : MemOrd) : Bool := (o.code == 2 || o.code == 3) && o.scope != 0
/-- Whether two elements may name one line of GLOBAL, DIRECT or HOST memory (R280): by line once both are translated, else by
the address bits that translation keeps; a PEER access waits for every earlier one that is PEER or may be (R77). -/
def Elem.meets (e f : Elem) : Bool :=
  match e.loc, f.loc with
  | some (.peer ..), some (.peer ..) | some (.peer ..), none | none, some (.peer ..) => true
  | some p, some q => lineKeyOf p == lineKeyOf q
  | _, _ => e.va / 64 % 64 == f.va / 64 % 64
/-- No later memory access, message or engine start issues before an acquire's reply (R427). -/
def State.acqHeld (s : State) : Bool := s.myOps.any fun p => p.2.acquiring
/-- Whether an entry reads memory or scratch for the array and has not finished (R451). -/
def Entry.mxReads (e : Entry) : Bool :=
  (e.state == .issued || e.state == .faulted) &&
  (match e.work with
   | .matrix w => (match w.kind with | .tmld | .mlds | .mstream _ => true | _ => false)
   | _ => false)
/-- A wave's later accesses wait while an array instruction of it still reads: its reads are accesses of the wave (R451, R280). -/
def Ctx.mxReading (k : Ctx) : Bool := k.ring.any fun e => e.2.mxReads
/-- Whether a release event must wait: an acquire's reply or an earlier access of the context is outstanding (R281, R427). -/
def State.unreleased (s : State) : Bool := s.acqHeld || s.myOps.any fun p => !p.2.allDone
/-- Whether an access must wait for an earlier one of its context (R280, R427): for an acquire's reply; for a release, every
earlier access performed; and the same line. -/
def State.held (s : State) (ord : MemOrd) (es : List Elem) : Bool :=
  s.acqHeld || s.me.mxReading || (ordReleases ord && s.myOps.any fun p => !p.2.allDone) ||
  s.myOps.any fun p => p.2.elems.any fun f => !f.done && es.any fun e => e.meets f
/-- A release at pkg or sys scope waits for the flushing read of R289. -/
def State.flushFor (s : State) (ord : MemOrd) : State :=
  if ordReleases ord && 3 ≤ ord.scope then s.flushPosted else s
/-- Ticks of the plain time-out of R61. -/
def plainTimeout : Nat := 2 ^ 16 * tileTicks
/-- Registers an operation has yet to write, by its number (R349). -/
def Ctx.markBusy (k : Ctx) (id : Nat) (o : Op) : Ctx :=
  if !o.kind.returns then k
  else if o.vec then { k with busyV := k.busyV ++ (vyr o.w64 o.dest).map fun r => (r, id) }
  else { k with busyS := k.busyS ++ (sxr o.w64 o.dest).map fun r => (r, id) }
/-- The registers of an operation are written or given up. -/
def Ctx.unbusy (k : Ctx) (id : Nat) : Ctx :=
  { k with busyS := k.busyS.filter (·.2 != id), busyV := k.busyV.filter (·.2 != id), busyM := k.busyM.filter (·.2 != id) }
/-- The slice that serves an element, as its logical tile: the die-local one; the home die's for atomics and reductions; the
shadow die's for what a transaction shadows (R87, R112, R154, R164). -/
def State.sliceOf (s : State) (o : Op) (e : Elem) : Option Nat :=
  match e.loc with
  | some (.dev k a) =>
    let x := s.launch o.lidx
    let sh := s.shTag o.lidx e.cls
    match o.kind with
    | .load =>
      match sh with
      | some g => some (sliceTile (if (s.shLine? g (.dev k a)).isSome then x.shadowDie else dieOf o.tile) a)
      | none => some (sliceTile (dieOf o.tile) a)
    | .atom | .red => some (sliceTile (if sh.isSome then x.shadowDie else homeDie k) a)
    | .store => some (sliceTile (if sh.isSome then x.shadowDie else dieOf o.tile) a)
    | _ => some (sliceTile (dieOf o.tile) a)
  | some (.host _ a) =>
    match o.kind with
    | .store => some (sliceTile (if (s.shTag o.lidx e.cls).isSome then (s.launch o.lidx).shadowDie else dieOf o.tile) a)
    | _ => some (sliceTile (dieOf o.tile) a)
  | _ => none
/-- The event that carries an operation to its slice or port. -/
def OpKind.carrier : OpKind → Instr
  | .atom => .farAtomic
  | .red => .reductionMessage
  | _ => .sliceRequest
/-- The port of a place (R81). -/
def portOf : Loc → Option Nat
  | .host port _ => some port
  | .peer port _ => some port
  | _ => none
/-- The answer of an operation whose lanes are all performed: a reply or an acknowledgement (R113, R426). -/
def State.answerOp (s : State) (id : Nat) (o : Op) : State :=
  s.pend (if o.kind.reads then .loadReply else .storeAck) { tile := o.tile, ctx := o.ctx, id := id }
/-- The sectors that an access of a line touches (R89). -/
def sectorOf (a : Nat) : BitVec 2 := if a % 64 < 32 then 1#2 else 2#2
/-- The slot a load marks in the L1: that of a transactional launch on a GLOBAL line (R160). -/
def State.markOf (s : State) (l cls : Nat) : Option Nat :=
  if cls == 0 && (s.launch l).r.txn then (s.launch l).slot else none
/-- A slot's read signature R: the parts of every slice together (R159, R166). -/
def State.rsigOf (s : State) (tag : Nat) : BitVec 1024 :=
  s.dies.foldl (fun w (p : Nat × Die) => p.2.sigs.foldl (fun w q => if q.1 / 256 == tag then w ||| q.2 else w) w) 0#1024
/-- A read by the sheltered launch that would set a new bit of its signature waits while a committing slot's W holds the bit
(R177). -/
def State.shelterHeld (s : State) (l cls a : Nat) : Bool :=
  let x := s.launch l
  x.sheltered && cls == 0 &&
  (match x.vtag? with
   | none => false
   | some g =>
     let new := sigOf a &&& ~~~s.rsigOf g
     s.txn.committing.any fun k =>
       some k != x.slot &&
       (match (fget? s.txn.slots k).bind fun m => (s.launch m).vtag? with
        | some h => fget s.txn.wsig h 0#1024 &&& new != 0#1024
        | none => false))
/-- The key of the L1 copy that an element of an operation may hit (R155): that of the slot's version of a line it has shadowed, else the
base line's. -/
def State.copyKey (s : State) (o : Op) (e : Elem) (p : Loc) : Nat :=
  match s.shTag o.lidx e.cls with
  | some g => if (s.shLine? g p).isSome then l1Key (some g) (lineKeyOf p) else lineKeyOf p
  | none => lineKeyOf p
/-- Both bits of a sector's half of a byte mask are set. -/
def wholeSector (w : BitVec 64) (sec : BitVec 2) : Bool :=
  let m := if sec == 1#2 then byteMask 0 32 else byteMask 32 32
  w &&& m == m
/-- Whether an element hits its tile's L1 with the permission it needs (R92, R94, R155): a load on a valid sector; a store on a valid
sector of a line in M or E, or one that writes a whole sector of a line in M.  A store that would be the first of its slot to a
line goes to the slice. -/
def State.l1Hit (s : State) (o : Op) (e : Elem) : Bool :=
  match e.loc with
  | some p =>
    let dev := match p with | .dev .. => true | .host .. => false | _ => false
    let host := match p with | .host .. => true | _ => false
    let sh := s.shTag o.lidx e.cls
    let x := s.l1 o.tile (s.copyKey o e p)
    let sec := sectorOf (addrOf p)
    match o.kind with
    | .load => (dev || host) && x.st != 0 && x.valid &&& sec == sec && !s.shelterHeld o.lidx e.cls (addrOf p)
    | .store =>
      dev && (sh.isNone || (s.shLine? (sh.getD 0) p).isSome) &&
        (((x.st == 4 || x.st == 2) && x.valid &&& sec == sec) || (x.st == 4 && wholeSector (o.covers (lineKeyOf p)) sec))
    | _ => false
  | none => false
/-- An element performed in the L1: a store makes the line M and its sector dirty; a transactional load re-marks a line marked
otherwise and sends a read note (R92, R160). -/
def State.l1Perform (s : State) (o : Op) (e : Elem) : Elem × State :=
  match e.loc with
  | none => (e, s)
  | some p =>
    let key := s.copyKey o e p
    let (e, s) := s.perform o e
    let (n, s) := s.fresh
    let x := { s.l1 o.tile key with use := n }
    let sec := sectorOf (addrOf p)
    match o.kind with
    | .store => (e, s.setL1 o.tile key { x with st := 4, valid := x.valid ||| sec, dirty := x.dirty ||| sec })
    | _ =>
      let m := s.markOf o.lidx e.cls
      if m.isSome && m != x.mark then
        (e, (s.setL1 o.tile key { x with mark := m }).pend .readNote
          { tile := o.tile, line := lineKeyOf p, slot := m.getD 0, val := addrOf p })
      else (e, s.setL1 o.tile key x)
/-- Elements in lane order, each performed by f where a test holds. -/
def stepElems (f : State → Elem → Elem × State) (test : State → Elem → Bool) : State → List Elem → List Elem × State
  | s, [] => ([], s)
  | s, e :: es =>
    let (e, s) := if !e.done && e.loc.isSome && test s e then f s e else (e, s)
    let (es, s) := stepElems f test s es
    (e :: es, s)
/-- Where an element waits to be performed at once: at its port (R77, R435), or its own scratch. -/
def atPort (o : Op) (e : Elem) : Bool :=
  match e.loc with
  | some (.peer ..) => true
  | some (.host ..) => o.kind == .atom || o.kind == .red
  | _ => false
/-- Whether a place lies behind the port of a die that is left out (R81). -/
def State.placeDead (s : State) (p : Loc) : Bool :=
  match portOf p with
  | some d => (s.die d).leftOut
  | none => false
/-- Whether an element goes through the port of a die that is left out (R81). -/
def State.portDead (s : State) (e : Elem) : Bool := match e.loc with | some p => s.placeDead p | none => false
/-- A lane of an operation may be performed at its port: a PEER access only once every earlier one of its context that is PEER, or may be,
has been (R77). -/
def State.portTurn (s : State) (id : Nat) (o : Op) (e : Elem) : Bool :=
  match e.loc with
  | some (.peer ..) =>
    !s.ops.any fun q => q.1 < id && q.2.tile == o.tile && q.2.ctx == o.ctx && q.2.elems.any fun f =>
      !f.done && (match f.loc with | some (.peer ..) | none => true | _ => false)
  | _ => true
/-- The lanes of an operation that its port takes are performed (R77, R435). -/
def State.portPart (s : State) (id : Nat) (o : Op) (es : List Elem) : List Elem × State :=
  stepElems (fun s e => s.perform o e) (fun s e => atPort o e && s.portTurn id o e) s es
/-- Later PEER lanes of a context go on once an earlier access of it has been translated or performed (R77). -/
def State.portNext (s : State) (t c : Nat) : State :=
  s.ops.foldl (fun s (q : Nat × Op) =>
    if q.2.tile == t && q.2.ctx == c && q.2.elems.any fun e => !e.done && atPort q.2 e then
      let (es, s) := s.portPart q.1 q.2 q.2.elems
      let o := { q.2 with elems := es }.returned (newlyDone es q.2.elems)
      let s := s.setOp q.1 o
      if o.allBack && !q.2.allBack then s.answerOp q.1 o else s
    else s) s
/-- An operation's lanes that their tile can perform alone are performed, and the rest goes to their slices, one message to
each slice (R92, R96); a lane through a port that is not there completes with an error (R81). -/
def State.launchOp (s : State) (id : Nat) : State :=
  match s.op? id with
  | none => s
  | some o =>
    let es := o.elems.map fun e =>
      if !e.done && s.portDead e then { e with done := true, rpois := poisOf true e.n } else e
    let (es, s) := s.portPart id o es
    let (es, s) := stepElems (fun s e => s.l1Perform o e) (fun s e => s.l1Hit o e) s es
    let o := { o with elems := es }.returned (newlyDone es o.elems)
    let s := s.setOp id o
    if o.allBack then s.answerOp id o
    else
      let slices := ((es.filter fun e => !e.done).filterMap fun e => s.sliceOf o e).eraseDups
      slices.foldl (fun s t =>
        s.send (.tile o.tile) (.slice t) 0 1 o.lidx o.kind.carrier { tile := t, die := dieOf t, id := id }) s
/-- An operation issues (R262, R349, R426, R516): its counter rises, its registers are busy, a path thread that waits for its answer
leaves the rotation, and the context goes on. -/
def State.issueOp (s : State) (o : Op) (len : Nat) : Nat × State :=
  let s := s.flushFor o.ord
  let (id, s) := s.fresh
  let s := s.setOp id o
  let s := s.updMe fun k =>
    let k := match o.kind.ctr with | some c => k.raiseCtr c id | none => k
    let k := (k.markBusy id o).retire len
    if isPath s.cur.2 && o.kind.holdsThread then { k with status := .waiting } else k
  (id, s.after plainTimeout .responseTimeout { tile := o.tile, ctx := o.ctx, id := id })
/-- Whether a counter of the issuing context stands at 63 (R263). -/
def State.ctrFull (s : State) (k : OpKind) : Bool :=
  match k.ctr with
  | some c => 63 ≤ s.me.counter c
  | none => false

/-! ### Replies (R61, R349, R424, R426) -/

/-- The value of a narrow load (R422): sign- or zero-extended to 32 bits. -/
def extend (ty : Ty) (n v : Nat) : Word :=
  if n < 4 && ty.signed then BitVec.ofInt 32 (sgn (8 * n) v) else BitVec.ofNat 32 v
/-- A lane's result as its low and high words with their poison. -/
def Elem.words (e : Elem) (ty : Ty) : (Word × Bool) × (Word × Bool) :=
  ((extend ty e.n e.res.toNat, e.rpois.getLsbD 0), ((e.res >>> 32).setWidth 32, e.rpois.getLsbD 1))
/-- A vector register with the lanes of an operation written (R400, R424). -/
def writeLanes (v : VReg) (es : List Elem) (f : Elem → Word × Bool) : VReg :=
  VReg.make fun i =>
    match es.find? fun e => e.lane == i with
    | some e => f e
    | none => (v.lane i, v.bad i)
/-- What a lane returned, as words for an instruction that waits in place: low, high, poison of both. -/
def Elem.answerWords (e : Elem) : List Word := [e.res.setWidth 32, (e.res >>> 32).setWidth 32, e.rpois.setWidth 32]
/-- The destination of an operation written with what its lanes returned. -/
def Ctx.deliver (k : Ctx) (o : Op) : Ctx :=
  if !o.kind.returns then k
  else if o.vec then
    let lo := k.wrV o.dest (writeLanes (k.vreg o.dest) o.elems fun e => (e.words o.ty).1)
    if o.w64 then lo.wrV (o.dest + 1) (writeLanes (lo.vreg (o.dest + 1)) o.elems fun e => (e.words o.ty).2) else lo
  else
    match o.elems with
    | [] => k
    | e :: _ =>
      let w := e.words o.ty
      if o.w64 then
        if o.dest == 63 then k else (k.wrP o.dest w.1.1 w.1.2).wrP (o.dest + 1) w.2.1 w.2.2
      else k.wrP o.dest w.1.1 w.1.2
/-- An operation returns to its context (R263, R308, R349): its registers are written, its counter falls, and its SEQRING entry
is DONE; while the context is trapped the reply is held. -/
def State.returnOp (s : State) (id : Nat) (ev : Event) : State :=
  match s.op? id with
  | none => s
  | some o =>
    let k := s.ctx o.tile o.ctx
    if o.ctx == orphanCtx || o.kind == .fetch then s.delOp id
    else if k.status == .trapped then
      s.updCtx o.tile o.ctx fun k => { k with deferred := k.deferred ++ [ev] }
    else
      let k := if o.aux == [1] then { k.lower id with answer := fset k.answer o.pc.toNat (o.elems.flatMap Elem.answerWords) }
        else ((k.deliver o).unbusy id).lower id
      let k := match o.seq with
        | some q =>
          let e := fget k.ring (q % 64) Entry.init
          let mask := o.elems.foldl (fun w e => w ||| BitVec.twoPow 32 e.lane) e.doneMask
          { k with ring := fset k.ring (q % 64) { e with state := .done, doneMask := mask } }
        | none => if isPath o.ctx && o.kind.holdsThread then k.wake else k
      (s.setCtx o.tile o.ctx k).delOp id
/-- An operation whose lanes of a kind complete with an error status (R61, R71): their results are poisoned. -/
def Op.failedOn (o : Op) (which : Elem → Bool) : Op :=
  { o with err := true,
           elems := o.elems.map fun e => if which e then { e with done := true, back := true, res := 0#64, rpois := poisOf true e.n } else e }
/-- An operation completes with an error status: the results of the lanes that have not returned are poisoned (R61, R426). -/
def Op.failed (o : Op) : Op := o.failedOn fun e => !e.back

end Sys2Proof.Machine
end

