-- ==== Sys2Proof/Machine/Flags.lean ====
section
/-! DEFINITION. The floating-point modes and flags of a context (R322 to R326, R336 to R338), and the dispatch and completion of an
attached instruction (R298 to R300, R402). -/
namespace Sys2Proof.Machine

/-! ### Modes and flags (R323, R336, R337) -/

/-- FPMODE.FTZ (R336). -/
def Ctx.ftz (k : Ctx) : Bool := k.ctl.fpmode.getLsbD 3
/-- FPMODE.SAT8 (R336). -/
def Ctx.sat8 (k : Ctx) : Bool := k.ctl.fpmode.getLsbD 4
/-- The mode code that a rounding code stands for (R323): code 5 takes FPMODE.RM, where 4 means RNE outside conversions. -/
def Ctx.rmCode (k : Ctx) (rm : Nat) (conv : Bool) : Nat :=
  if rm = 5 then
    let m := k.ctl.fpmode.toNat % 8
    if m = 4 ∧ !conv then 0 else m
  else rm
/-- The mode of a code, with the random number that code 4 uses. -/
def rndOf (code n : Nat) : Rnd :=
  match code with
  | 1 => .rtz
  | 2 => .rdn
  | 3 => .rup
  | 4 => .sr n
  | _ => .rne
/-- The mode of an instruction that is no conversion. -/
def Ctx.rnd (k : Ctx) (rm : Nat) : Rnd := rndOf (k.rmCode rm false) 0
/-- Flags set in FPSTAT: they are sticky (R337). -/
def Ctx.setFlags (k : Ctx) (f : Flags) : Ctx :=
  { k with ctl := { k.ctl with fpstat := k.ctl.fpstat ||| f.setWidth 32 } }
/-- The generator after n steps (R326). -/
def rngAfter : Nat → Word → Word
  | 0, w => w
  | n + 1, w => rngAfter n (rngStep w)

/-! ### Attached instructions (R298, R300, R402) -/

/-- What an attached instruction of UNIT 0 does: its register writes, its flags, and the generator state after its draws. -/
structure Eff where
  ws : List RegWrite
  flags : Flags := noFlags
  rng : Option Word := none
  deriving DecidableEq, Repr

/-- The number by which a register waits for an attached entry; operation numbers lie far below. -/
def attKey (seq : Nat) : Nat := 2 ^ 64 + seq
/-- Registers that writes will change. -/
def Ctx.markWrites (k : Ctx) (key : Nat) : List RegWrite → Ctx
  | [] => k
  | .s r _ _ :: ws => ({ k with busyS := k.busyS ++ (sr r).map fun r => (r, key) }).markWrites key ws
  | .v r _ :: ws => ({ k with busyV := k.busyV ++ [(r, key)] }).markWrites key ws
  | .m r _ :: ws => ({ k with busyM := k.busyM ++ [(r, key)] }).markWrites key ws
/-- Register writes performed. -/
def Ctx.applyWrites (k : Ctx) : List RegWrite → Ctx
  | [] => k
  | .s r v p :: ws => (k.wrP r v p).applyWrites ws
  | .v r v :: ws => (k.wrV r v).applyWrites ws
  | .m r v :: ws => (k.wrM r v).applyWrites ws
/-- An entry of the SEQRING. -/
def Ctx.entry (k : Ctx) (seq : Nat) : Entry := fget k.ring (seq % 64) Entry.init
/-- Dispatch waits while the next entry is ISSUED (R298). -/
def Ctx.ringBusy (k : Ctx) : Bool := (k.entry k.dseq).state == .issued
/-- The next entry filled, and the next sequence number taken (R298, R300). -/
def Ctx.putEntry (k : Ctx) (unit : Nat) (w : Work) (rows : Nat) : Ctx :=
  { k with ring := fset k.ring (k.dseq % 64)
             { Entry.init with seq := k.dseq, pc := k.regs.pc, state := .issued, unit := unit, rows := rows, work := w,
                               started := unit == 0 },
           dseq := (k.dseq + 1) % 65536 }
/-- An attached instruction of UNIT 0 (R298, R402): class W, the registers it names, the waits of R349 and R298, its uses
(R401); then its results are computed from the operands, mode and generator state of its dispatch and kept in its entry until
it completes. -/
def State.attach (s : State) (n : Named) (uses : Ctx → Nat) (f : Ctx → Eff) : State :=
  if !(Class.W.allows s.cur.2 && s.namesOk n) then s.illegal
  else if s.me.busyAny n || s.me.ringBusy then s
  else s.useThen (uses s.me) fun s =>
    let k := s.me
    let e := f k
    let q := k.dseq
    let k := (k.markWrites (attKey q) e.ws).putEntry 0 (.regs e.ws e.flags) 0
    let k := match e.rng with
      | some w => { k with ctl := { k.ctl with rngseed := w } }
      | none => k
    (s.setMe (k.retire 8)).pend .attachedComplete { tile := s.cur.1, ctx := s.cur.2, seq := q }
/-- An entry of UNIT 0 completes (R300, R338): its results are written, its flags set, its registers free, and it is DONE. -/
def Ctx.finishEntry (k : Ctx) (seq : Nat) : Ctx :=
  let e := k.entry seq
  match e.work with
  | .regs ws fl =>
    let k := ((k.applyWrites ws).setFlags fl)
    { k with ring := fset k.ring (seq % 64) { e with state := .done },
             busyS := k.busyS.filter (·.2 != attKey seq), busyV := k.busyV.filter (·.2 != attKey seq),
             busyM := k.busyM.filter (·.2 != attKey seq) }
  | _ => k
/-- Whether every earlier attached instruction has completed (R338). -/
def Ctx.attachedDone (k : Ctx) : Bool := k.ring.all fun e => e.2.state != .issued && e.2.state != .faulted

end Sys2Proof.Machine
end

