-- ==== Sys2Proof/Machine/Buddy.lean ====
section
/-! DEFINITION. Buddy allocation of granules (R197, R241), a tile's register file and its gangs (R195, R197, R251 to R253), and what a
context gives up when it leaves a tile (R252, R258, R388). -/
namespace Sys2Proof.Machine

/-! ### Buddy blocks (R197, R241) -/

/-- Whether n granules from b up are all free. -/
def rangeFree (free : Nat → Bool) (b n : Nat) : Bool := (List.range n).all fun i => free (b + i)
/-- Whether the aligned block of n granules at b is a free block that is no part of a larger one inside [lo, hi). -/
def maximalFree (free : Nat → Bool) (lo hi cap n b : Nat) : Bool :=
  lo ≤ b && b + n ≤ hi && rangeFree free b n &&
  !(n < cap && lo ≤ b / (2 * n) * (2 * n) && b / (2 * n) * (2 * n) + 2 * n ≤ hi && rangeFree free (b / (2 * n) * (2 * n)) (2 * n))
/-- The lowest maximal free block of n granules in [lo, hi). -/
def lowestMaximal (free : Nat → Bool) (lo hi cap n : Nat) : Option Nat :=
  (((List.range (hi / n + 1)).map (· * n)).find? fun b => maximalFree free lo hi cap n b)
/-- The place of a block of n = 2^j granules (R197): the lowest free block of that size, or else the lowest part of the
lowest-addressed larger one; blocks are at most cap granules, and fuel bounds the doublings. -/
def buddyFind (free : Nat → Bool) (lo hi cap n : Nat) : Option Nat :=
  match lowestMaximal free lo hi cap n with
  | some b => some b
  | none =>
    let sizes := (List.range 12).map (fun i => n * 2 ^ (i + 1)) |>.filter (· ≤ cap)
    match sizes.filterMap fun m => lowestMaximal free lo hi cap m with
    | [] => none
    | b :: bs => some (bs.foldl min b)

/-! ### The register file (R195, R197, R198) -/

/-- A granule of the register file is free. -/
def Units.granFree (u : Units) (g : Nat) : Bool := g < 1024 && !u.gran.any fun x => x.1 ≤ g && g < x.1 + x.2.1
/-- The free granules of the register file. -/
def Units.freeGrans (u : Units) : Nat := 1024 - (u.gran.map fun x => x.2.1).sum
/-- The place of a block of 2^j granules for a wave. -/
def Units.place (u : Units) (j : Nat) : Option Nat := buddyFind u.granFree 0 1024 32 (2 ^ j)
/-- The number that holds granules for a gang. -/
def gangHolder (g : Nat) : Nat := 256 + g
/-- The aligned regions of n granules with the number of their granules that are not free, fewest and lowest first. -/
def bestRegion (free : Nat → Bool) (movable : Nat → Bool) (n : Nat) : Option Nat :=
  let cands := ((List.range (1024 / n)).map (· * n)).filter fun b => (List.range n).all fun i => free (b + i) || movable (b + i)
  let cost := fun b => ((List.range n).filter fun i => !free (b + i)).length
  match cands with
  | [] => none
  | b :: bs => some (bs.foldl (fun best c => if cost c < cost best then c else best) b)

/-! ### Gangs (R251, R252, R253) -/

/-- A gang of a tile. -/
def Tile.gang? (x : Tile) (g : Nat) : Option Gang := fget? x.mx.gangs g
/-- A gang changed. -/
def Tile.updGang (x : Tile) (g : Nat) (f : Gang → Gang) : Tile :=
  { x with mx := { x.mx with gangs := x.mx.gangs.map fun p => if p.1 == g then (p.1, f p.2) else p } }
/-- ACCMAP (R274): the accumulator tiles of a gang. -/
def Matrix.accmap (m : Matrix) (g : Nat) : Nat := ((m.accOwner.filter fun p => p.2 == g).map fun p => 2 ^ p.1).sum
/-- A gang dissolved (R252): the array as if by MREL, its accumulator tiles, its pool. -/
def Tile.dissolveGang (x : Tile) (g : Nat) : Tile :=
  { x with mx := x.mx.dissolve [g], un := { x.un with gran := x.un.gran.filter fun z => z.2.2 != gangHolder g } }
/-- A member leaves its gang; the last one dissolves it (R252). -/
def Tile.leaveGang (x : Tile) (g c : Nat) : Tile :=
  match x.gang? g with
  | none => x
  | some y =>
    let left := y.members.filter (· != c)
    if left.isEmpty then x.dissolveGang g else x.updGang g fun y => { y with members := left }
/-- The contents of the registers of granules, 8 registers each, from register r up. -/
def Ctx.granules (k : Ctx) (r n : Nat) : List (List VReg) :=
  (List.range n).map fun i => (List.range 8).map fun j => k.vreg (r + 8 * i + j)
/-- A block with its contents enters a pool (R253). -/
def Tile.poolPut (x : Tile) (g base n : Nat) (vs : List (List VReg)) : Tile :=
  let x := x.updGang g fun y =>
    { y with pool := (List.range n).foldl (fun p i => fset p (base + i) (vs.getD i [])) y.pool }
  { x with un := { x.un with gran := (x.un.gran.filter fun z => z.1 != base) ++ [(base, n, gangHolder g)] } }
/-- A block leaves a pool for a wave (R253). -/
def Tile.poolTake (x : Tile) (g c base n : Nat) : Tile :=
  let x := x.updGang g fun y => { y with pool := y.pool.filter fun p => p.1 < base || base + n ≤ p.1 }
  let rest := (x.gang? g).elim [] fun y => y.pool.map fun p => (p.1, 1, gangHolder g)
  { x with un := { x.un with gran := (x.un.gran.filter fun z => z.2.2 != gangHolder g) ++ rest ++ [(base, n, c)] } }
/-- Where the register numbers of each block of a wave start. -/
def blockStarts : Nat → List (Nat × Nat) → List (Nat × Nat × Nat)
  | _, [] => []
  | r, (b, n) :: bs => (r, b, n) :: blockStarts (r + 8 * n) bs
/-- A wave that exits gives up its registers: to its gang's pool while others remain, else to the tile (R252). -/
def Tile.giveUpRegs (x : Tile) (c : Nat) : Tile :=
  let k := x.ctx c
  let free (x : Tile) : Tile := { x with un := { x.un with gran := x.un.gran.filter fun z => z.2.2 != c } }
  match k.gang with
  | none => free x
  | some g =>
    let x := x.leaveGang g c
    if (x.gang? g).isNone then free x
    else (blockStarts 0 k.regs.blocks).foldl (fun x b => x.poolPut g b.2.1 b.2.2 (k.granules b.1 b.2.2)) x

/-! ### What a context gives up (R258, R388) -/

/-- The mutexes that a context holds. -/
def Sync.mutexesOf (y : Sync) (c : Nat) : List Nat := (y.mutex.filter fun p => p.2 == c).map (·.1)
/-- The copies that a context has issued go on without an issuer. -/
def Units.orphan (u : Units) (c : Nat) : Units :=
  let f := fun (x : Copy) => if x.ctx == c then { x with ctx := noCtx } else x
  { u with mb := u.mb.map fun p => (p.1, f p.2), susp := u.susp.map f }
/-- The mutexes of a context that ends or leaves are released, the next waiter is granted each, and its copies go on without
an issuer (R258, R272). -/
def State.releaseMutexes (s : State) (t c : Nat) : State :=
  let ms := (s.tile t).sync.mutexesOf c
  let s := (s.updSync t fun y => { y with mutex := y.mutex.filter fun p => p.2 != c }).updUn t (·.orphan c)
  ms.foldl (fun s m => s.pend .mutexGrant { tile := t, id := m }) s
/-- The array asked for its next gang if nobody owns it (R204). -/
def State.regrant (s : State) (t : Nat) : State :=
  if (s.tile t).mx.owner.isNone then s.pend .arrayGrant { tile := t } else s
/-- A slot of a tile is free again, and segments with no bound thread may be released (R196, R227, R232). -/
def State.slotFreed (s : State) (t seg : Nat) : State :=
  let s := s.pend .slotClaim { tile := t }
  if seg == 0 then s else s.pend .dropComplete { tile := t, seg := seg }

end Sys2Proof.Machine
end

