-- ==== Sys2Proof/Machine/Packets.lean ====
section
/-! DEFINITION. Thread packets on their way: ports to other packages, routing to tiles and segments, drops, and the departure of a path
thread (R62, R67, R68, R71, R211 to R222, R228, R229). -/
namespace Sys2Proof.Machine

/-! ### Other packages (R67, R68) -/

/-- The port that a die's PORTMAP gives for a package, if it is valid, its die is in the package and its link is up (R67,
R68). -/
def State.portTo (s : State) (d pkg : Nat) : Option Nat :=
  let e := (fget (s.die d).bar0.portmap (pkg / 8) 0#32).toNat / 2 ^ (4 * (pkg % 8)) % 16
  let p := e % 8
  if 8 ≤ e && !(s.die (p / 2)).leftOut && (fget? s.portDown p).isNone then some p else none
/-- A message of a tile sent to a tile of another package, on its way to the port, or none where it is UNREACHABLE (R68). -/
def State.sendOut (s : State) (t pkg vc flits l : Nat) (i : Instr) (a : Arg) : Option State :=
  (s.portTo (dieOf t) pkg).map fun p =>
    s.launchMsg (.tile t) (.port p) (s.routerOf (.tile t)) (portNode p a.tile) (some pkg) vc flits l false i a
/-- A tile can be reached: its die is neither left out nor out of service (R23, R68, R71). -/
def State.tileThere (s : State) (t : Nat) : Bool := !s.tilesGone (dieOf t)
/-- A message from a tile to a tile of any package, or none where it is UNREACHABLE. -/
def State.sendTile (s : State) (t pkg dst vc flits l : Nat) (i : Instr) (a : Arg) : Option State :=
  if pkg == s.pkgOf (dieOf t) then
    if s.tileThere dst then some (s.send (.tile t) (.tile dst) vc flits l i a) else none
  else s.sendOut t pkg vc flits l i a

/-- A path thread's credit goes back to its OTILE, in whichever package that is (R218). -/
def State.returnCredit (s : State) (t opkg otile l : Nat) : State :=
  if opkg == s.pkgOf (dieOf t) && otile == t then s.pend .creditReturnMessage { tile := otile, lidx := l }
  else (s.sendTile t opkg otile 7 1 l .creditReturnMessage { tile := otile, lidx := l }).getD s

/-! ### Packets (R62, R213, R228, R229) -/

/-- The lowest-numbered tile of a launch's set. -/
def Launch.firstTile (x : Launch) : Nat := x.r.y0 * 32 + x.r.x0
/-- Whether an index is held by an admitted launch (R213). -/
def State.indexLive (s : State) (l : Nat) : Bool := (fget? s.launches l).isSome
/-- A packet dropped (R62, R178, R218): counted, the sticky flag set under STRICT, and its credit back to the first tile of the set.
One of an index that no launch holds is discarded without a drop (R213). -/
def State.dropPacket (s : State) (p : Packet) : State :=
  if !s.indexLive p.lidx then s
  else
    let s := s.updLaunch p.lidx fun x => { x with att := { x.att with drops := sat 0xFFFF (x.att.drops + 1) } }
    let s := if s.lenient p.lidx then s else s.stick p.lidx
    let t := (s.launch p.lidx).firstTile
    (s.pend .creditReturnMessage { tile := t, lidx := p.lidx }).pend .commitRequest { lidx := p.lidx }
/-- The owner index of a thread number among u usable owners (R229). -/
def ownerIdx (thread u : Nat) : Nat := Nat.xor (Nat.xor (bits thread 7 0) (bits thread 15 8)) (bits thread 23 16) % u
/-- A route-cache entry of a tile: its usable owners (R228). -/
def Travel.route? (v : Travel) (seg : Nat) : Option (List Nat × Nat × Nat × Nat) :=
  (v.routes.find? fun r => r.1 == seg).map (·.2)
/-- A route-cache entry becomes the most recently used. -/
def Travel.touchRoute (v : Travel) (seg : Nat) : Travel :=
  { v with routes := (v.routes.filter fun r => r.1 != seg) ++ v.routes.filter fun r => r.1 == seg }
/-- A packet sent on VC5 to a tile of this package; to its own tile it goes without the mesh (R220, R471). -/
def State.packetTo (s : State) (t dst : Nat) (p : Packet) : State :=
  if dst == t then s.pend .threadPacketArrival { tile := dst, packet := p }
  else if s.tileThere dst then s.send (.tile t) (.tile dst) 5 1 p.lidx .threadPacketArrival { tile := dst, packet := p }
  else s.dropPacket p
/-- A packet injected at a tile (R212, R228, R229, R471): to the tile it names, in any package; or to an owner of its segment
as the route cache gives it, and on a miss to the home, which is also asked for the entry. -/
def State.inject (s : State) (t : Nat) (p : Packet) : State :=
  if p.dkind then
    match (s.tile t).trav.route? p.dest with
    | some (o :: os, _) =>
      let owners := o :: os
      (s.updTrav t fun v => v.touchRoute p.dest).packetTo t (owners.getD (ownerIdx p.thread owners.length) o) p
    | _ =>
      let h := s.segHome p.dest
      let s := s.send (.tile t) (.tile h) 5 1 p.lidx .segmentForward { tile := h, packet := p, who := (t, noCtx) }
      s.send (.tile t) (.tile h) 7 1 p.lidx .routeCacheMiss { tile := h, seg := p.dest, who := (t, noCtx) }
  else
    let pkg := bits p.dest 17 10
    let dst := p.dest % 1024
    if pkg == s.pkgOf (dieOf t) then s.packetTo t dst p
    else
      match s.sendOut t pkg 5 1 p.lidx .threadPacketArrival { tile := dst, packet := p } with
      | some s => s
      | none => s.dropPacket p

/-! ### A path thread leaves (R220, R258) -/

/-- The carried registers s0 to s9 as a use packs them (R219). -/
def Ctx.carried (k : Ctx) : List Word := (List.range 10).map k.rd
/-- Poisoned carried registers, each a use (R219). -/
def Ctx.carriedPoison (k : Ctx) : Nat := k.poisonedUses ((List.range 10).map sr)
/-- The resume offset of a PC from ENTRY in halfwords, if a packet can hold it (R220). -/
def rpcOf (pc : BitVec 48) (entry : Nat) : Option (BitVec 24) :=
  let d : Int := ((pc.toNat : Int) - (entry % 2 ^ 48 : Nat)) / 2
  if -(2 ^ 23 : Int) ≤ d ∧ d < (2 ^ 23 : Int) then some (BitVec.ofInt 24 d) else none
/-- The resume packet of the issuing path thread (R212, R220). -/
def State.resumePacket (s : State) (rpc : BitVec 24) (dkind : Bool) (dest : Nat) : Packet :=
  let k := s.me
  let x := s.launch k.lidx
  { lidx := k.lidx, thread := k.hdr.thread, seq := (k.hdr.seq + 1) % 256, opkg := k.hdr.opkg, otile := k.hdr.otile,
    tv := x.r.txn, tslot := if x.r.txn then x.slot.getD 0 else 0, rpc := rpc, res := true, cls := k.hdr.cls, dkind := dkind,
    dest := dest, s := k.carried, pw := k.regs.pw }
/-- The slot is freed, with the mutexes of the thread and its binding (R214, R220, R258). -/
def State.leaveSlot (s : State) : State :=
  let (t, c) := s.cur
  let seg := s.me.hdr.seg
  (((s.releaseMutexes t c).setMe Ctx.init).slotFreed t seg)
/-- Departure of the issuing path thread (R219, R220, R222): it waits for its counters and queued interrupts; its packet
resumes at pc; `hold` says what becomes of the packet. -/
def State.depart (s : State) (pc : BitVec 48) (dkind : Bool) (dest : Nat) (hold : State → Packet → State) : State :=
  let k := s.me
  if !(k.quiet && k.uiq.isEmpty) then s
  else
    match rpcOf pc (s.launch k.lidx).r.entry with
    | none => s.illegal
    | some rpc =>
      s.useThen k.carriedPoison fun s =>
        let p := s.resumePacket rpc dkind dest
        hold (s.flushPosted.leaveSlot) p

end Sys2Proof.Machine
end

