-- ==== Sys2Proof/Machine/Scalar.lean ====
section
/-! DEFINITION. Scalar and address arithmetic, bit fields, predicates, common registers, branches, jumps and the divergence of a
wave's lanes (R370 to R386, with the 16-bit aliases of R362). -/
namespace Sys2Proof.Machine

/-- The outcome of every instruction of a thread: a next state. -/
abbrev Out := Host.Outcome State Fault Refusal

/-- A three-register operation: s_d := g s_a s_b (R372). -/
def State.op3 (s : State) (len d a b : Nat) (g : Word → Word → Word) : State :=
  s.scalar .A len (sr d ++ sr a ++ sr b) [sr a, sr b] fun k => k.wr d (g (k.rd a) (k.rd b))
/-- An operation on one register: s_d := g s_a. -/
def State.op2 (s : State) (len d a : Nat) (g : Word → Word) : State :=
  s.scalar .A len (sr d ++ sr a) [sr a] fun k => k.wr d (g (k.rd a))
/-- An operation that reads no register: s_d := v. -/
def State.op1 (s : State) (len d : Nat) (v : Word) : State :=
  s.scalar .A len (sr d) [] fun k => k.wr d v

/-- s_a shifted left; 0 from 32 on (R372). -/
def shlW (a b : Word) : Word := if 32 ≤ b.toNat then 0#32 else a <<< b.toNat
/-- s_a shifted right with zero fill; 0 from 32 on (R372). -/
def shrW (a b : Word) : Word := a >>> b.toNat
/-- s_a shifted right with sign fill; copies of the sign from 32 on (R372). -/
def sraW (a b : Word) : Word := a.sshiftRight b.toNat
/-- The high half of the signed product (R372). -/
def mulhW (a b : Word) : Word := BitVec.ofInt 32 (a.toInt * b.toInt / 2 ^ 32)
/-- The high half of the unsigned product (R372). -/
def mulhnW (a b : Word) : Word := BitVec.ofNat 32 (a.toNat * b.toNat / 2 ^ 32)
/-- The smaller by SInt (R372). -/
def minW (a b : Word) : Word := if b.toInt < a.toInt then b else a
/-- The larger by SInt (R372). -/
def maxW (a b : Word) : Word := if a.toInt < b.toInt then b else a
/-- The smaller by UInt (R372). -/
def minnW (a b : Word) : Word := if b.toNat < a.toNat then b else a
/-- The larger by UInt (R372). -/
def maxnW (a b : Word) : Word := if a.toNat < b.toNat then b else a
/-- 1 if SInt(a) < SInt(b) (R372). -/
def sltW (a b : Word) : Word := if a.toInt < b.toInt then 1#32 else 0#32
/-- 1 if UInt(a) < UInt(b) (R372). -/
def sltnW (a b : Word) : Word := if a.toNat < b.toNat then 1#32 else 0#32
/-- Leading zero bits, 32 for zero (R372). -/
def clzW (a : Word) : Word := BitVec.ofNat 32 (if a.toNat = 0 then 32 else 31 - Nat.log2 a.toNat)
/-- One bits (R372). -/
def popcW (a : Word) : Word := BitVec.ofNat 32 (popc a)
/-- Bit i moved to bit 31 − i (R372). -/
def brevW (a : Word) : Word := a.reverse
/-- DIV (R373): all ones for a zero divisor, else the exact quotient rounded toward zero. -/
def divW (a b : Word) : Word := if b.toNat = 0 then 0xFFFFFFFF#32 else BitVec.ofInt 32 (a.toInt.tdiv b.toInt)
/-- REM (R373). -/
def remW (a b : Word) : Word :=
  if b.toNat = 0 then a else BitVec.ofInt 32 (a.toInt - b.toInt * a.toInt.tdiv b.toInt)
/-- DIVN (R373). -/
def divnW (a b : Word) : Word := if b.toNat = 0 then 0xFFFFFFFF#32 else BitVec.ofNat 32 (a.toNat / b.toNat)
/-- REMN (R373). -/
def remnW (a b : Word) : Word := if b.toNat = 0 then a else BitVec.ofNat 32 (a.toNat % b.toNat)

/-! ### 16-bit aliases (R342, R362) -/

/-- ADD sR, sR, sS (R362, R372). -/
def execAdd16 (r t : Nat) (s : State) : Out := .next (s.op3 2 r r t (· + ·))
/-- SUB sR, sR, sS (R362, R372). -/
def execSub16 (r t : Nat) (s : State) : Out := .next (s.op3 2 r r t (· - ·))
/-- AND sR, sR, sS (R362, R372). -/
def execAnd16 (r t : Nat) (s : State) : Out := .next (s.op3 2 r r t (· &&& ·))
/-- OR sR, sR, sS (R362, R372). -/
def execOr16 (r t : Nat) (s : State) : Out := .next (s.op3 2 r r t (· ||| ·))
/-- XOR sR, sR, sS (R362, R372). -/
def execXor16 (r t : Nat) (s : State) : Out := .next (s.op3 2 r r t (· ^^^ ·))
/-- SHL sR, sR, sS (R362, R372). -/
def execShl16 (r t : Nat) (s : State) : Out := .next (s.op3 2 r r t shlW)
/-- SHR sR, sR, sS (R362, R372). -/
def execShr16 (r t : Nat) (s : State) : Out := .next (s.op3 2 r r t shrW)
/-- SRA sR, sR, sS (R362, R372). -/
def execSra16 (r t : Nat) (s : State) : Out := .next (s.op3 2 r r t sraW)
/-- MUL sR, sR, sS (R362, R372). -/
def execMul16 (r t : Nat) (s : State) : Out := .next (s.op3 2 r r t (· * ·))
/-- MIN sR, sR, sS (R362, R372). -/
def execMin16 (r t : Nat) (s : State) : Out := .next (s.op3 2 r r t minW)
/-- MAX sR, sR, sS (R362, R372). -/
def execMax16 (r t : Nat) (s : State) : Out := .next (s.op3 2 r r t maxW)
/-- SLT sR, sR, sS (R362, R372). -/
def execSlt16 (r t : Nat) (s : State) : Out := .next (s.op3 2 r r t sltW)
/-- ADD sR, sS, sz (R362, R372). -/
def execAddSz16 (r t : Nat) (s : State) : Out := .next (s.op3 2 r t 63 (· + ·))
/-- ADDI sR, sR, imm5, the immediate sign-extended (R362, R374). -/
def execAddi16 (r : Nat) (i : BitVec 5) (s : State) : Out := .next (s.op2 2 r r (· + i.signExtend 32))
/-- ADDI sR, sz, imm5 (R362, R374). -/
def execAddiSz16 (r : Nat) (i : BitVec 5) (s : State) : Out := .next (s.op2 2 r 63 (· + i.signExtend 32))
/-- ANDI sR, sR, imm5 (R362, R374). -/
def execAndi16 (r : Nat) (i : BitVec 5) (s : State) : Out := .next (s.op2 2 r r (· &&& i.signExtend 32))
/-- SHLI sR, sR, imm5 (R362, R374). -/
def execShli16 (r i : Nat) (s : State) : Out := .next (s.op2 2 r r fun a => shlW a (BitVec.ofNat 32 i))
/-- SHRI sR, sR, imm5 (R362, R374). -/
def execShri16 (r i : Nat) (s : State) : Out := .next (s.op2 2 r r fun a => shrW a (BitVec.ofNat 32 i))
/-- SRAI sR, sR, imm5 (R362, R374). -/
def execSrai16 (r i : Nat) (s : State) : Out := .next (s.op2 2 r r fun a => sraW a (BitVec.ofNat 32 i))
/-- SLTI sR, sR, imm5 (R362, R374). -/
def execSlti16 (r : Nat) (i : BitVec 5) (s : State) : Out := .next (s.op2 2 r r fun a => sltW a (i.signExtend 32))
/-- CLZ sR, sS (R362, R372). -/
def execClz16 (r t : Nat) (s : State) : Out := .next (s.op2 2 r t clzW)
/-- POPC sR, sS (R362, R372). -/
def execPopc16 (r t : Nat) (s : State) : Out := .next (s.op2 2 r t popcW)

/-! ### Three-register integer operations (R372, R373) -/

/-- ADD (R372). -/
def execAdd (d a b : Nat) (s : State) : Out := .next (s.op3 4 d a b (· + ·))
/-- SUB (R372). -/
def execSub (d a b : Nat) (s : State) : Out := .next (s.op3 4 d a b (· - ·))
/-- AND (R372). -/
def execAnd (d a b : Nat) (s : State) : Out := .next (s.op3 4 d a b (· &&& ·))
/-- OR (R372). -/
def execOr (d a b : Nat) (s : State) : Out := .next (s.op3 4 d a b (· ||| ·))
/-- XOR (R372). -/
def execXor (d a b : Nat) (s : State) : Out := .next (s.op3 4 d a b (· ^^^ ·))
/-- SHL (R372). -/
def execShl (d a b : Nat) (s : State) : Out := .next (s.op3 4 d a b shlW)
/-- SHR (R372). -/
def execShr (d a b : Nat) (s : State) : Out := .next (s.op3 4 d a b shrW)
/-- SRA (R372). -/
def execSra (d a b : Nat) (s : State) : Out := .next (s.op3 4 d a b sraW)
/-- MUL (R372). -/
def execMul (d a b : Nat) (s : State) : Out := .next (s.op3 4 d a b (· * ·))
/-- MULH (R372). -/
def execMulh (d a b : Nat) (s : State) : Out := .next (s.op3 4 d a b mulhW)
/-- MULHN (R372). -/
def execMulhn (d a b : Nat) (s : State) : Out := .next (s.op3 4 d a b mulhnW)
/-- DIV (R373). -/
def execDiv (d a b : Nat) (s : State) : Out := .next (s.op3 4 d a b divW)
/-- DIVN (R373). -/
def execDivn (d a b : Nat) (s : State) : Out := .next (s.op3 4 d a b divnW)
/-- REM (R373). -/
def execRem (d a b : Nat) (s : State) : Out := .next (s.op3 4 d a b remW)
/-- REMN (R373). -/
def execRemn (d a b : Nat) (s : State) : Out := .next (s.op3 4 d a b remnW)
/-- MIN (R372). -/
def execMin (d a b : Nat) (s : State) : Out := .next (s.op3 4 d a b minW)
/-- MAX (R372). -/
def execMax (d a b : Nat) (s : State) : Out := .next (s.op3 4 d a b maxW)
/-- MINN (R372). -/
def execMinn (d a b : Nat) (s : State) : Out := .next (s.op3 4 d a b minnW)
/-- MAXN (R372). -/
def execMaxn (d a b : Nat) (s : State) : Out := .next (s.op3 4 d a b maxnW)
/-- SLT (R372). -/
def execSlt (d a b : Nat) (s : State) : Out := .next (s.op3 4 d a b sltW)
/-- SLTN (R372). -/
def execSltn (d a b : Nat) (s : State) : Out := .next (s.op3 4 d a b sltnW)
/-- CLZ (R372). -/
def execClz (d a : Nat) (s : State) : Out := .next (s.op2 4 d a clzW)
/-- POPC (R372). -/
def execPopc (d a : Nat) (s : State) : Out := .next (s.op2 4 d a popcW)
/-- BREV (R372). -/
def execBrev (d a : Nat) (s : State) : Out := .next (s.op2 4 d a brevW)

/-! ### Immediate forms (R374 to R376) -/

/-- ADDI (R374). -/
def execAddi (d a : Nat) (i : BitVec 12) (s : State) : Out := .next (s.op2 4 d a (· + i.signExtend 32))
/-- ANDI (R374). -/
def execAndi (d a : Nat) (i : BitVec 12) (s : State) : Out := .next (s.op2 4 d a (· &&& i.signExtend 32))
/-- ORI (R374). -/
def execOri (d a : Nat) (i : BitVec 12) (s : State) : Out := .next (s.op2 4 d a (· ||| i.signExtend 32))
/-- XORI (R374). -/
def execXori (d a : Nat) (i : BitVec 12) (s : State) : Out := .next (s.op2 4 d a (· ^^^ i.signExtend 32))
/-- SLTI (R374). -/
def execSlti (d a : Nat) (i : BitVec 12) (s : State) : Out := .next (s.op2 4 d a fun x => sltW x (i.signExtend 32))
/-- SHLI (R374). -/
def execShli (d a n : Nat) (s : State) : Out := .next (s.op2 4 d a fun x => shlW x (BitVec.ofNat 32 n))
/-- SHRI (R374). -/
def execShri (d a n : Nat) (s : State) : Out := .next (s.op2 4 d a fun x => shrW x (BitVec.ofNat 32 n))
/-- SRAI (R374). -/
def execSrai (d a n : Nat) (s : State) : Out := .next (s.op2 4 d a fun x => sraW x (BitVec.ofNat 32 n))
/-- LUI: imm18 : 14 zero bits (R375). -/
def execLui (d : Nat) (i : BitVec 18) (s : State) : Out := .next (s.op1 4 d (i ++ 0#14))
/-- LI (R376). -/
def execLi (d : Nat) (i : Word) (s : State) : Out := .next (s.op1 8 d i)

/-! ### 64-bit address operations (R377) -/

/-- ADD64 (R377). -/
def execAdd64 (d a b : Nat) (s : State) : Out :=
  .next (s.scalar .A 4 (xr d ++ xr a ++ xr b) [xr a, xr b] fun k => k.wrx d (k.rdx a + k.rdx b))
/-- SUB64 (R377). -/
def execSub64 (d a b : Nat) (s : State) : Out :=
  .next (s.scalar .A 4 (xr d ++ xr a ++ xr b) [xr a, xr b] fun k => k.wrx d (k.rdx a - k.rdx b))
/-- SHL64: 0 from 64 on (R377). -/
def execShl64 (d a b : Nat) (s : State) : Out :=
  .next (s.scalar .A 4 (xr d ++ xr a ++ sr b) [xr a, sr b] fun k =>
    k.wrx d (if 64 ≤ (k.rd b).toNat then 0#64 else k.rdx a <<< (k.rd b).toNat))
/-- LEA: x_a + SInt(s_b) × 2^scale (R377). -/
def execLea (d a b scale : Nat) (s : State) : Out :=
  .next (s.scalar .A 4 (xr d ++ xr a ++ sr b) [xr a, sr b] fun k =>
    k.wrx d (k.rdx a + (k.rd b).signExtend 64 <<< scale))
/-- ADDI64 (R377). -/
def execAddi64 (d a : Nat) (i : BitVec 12) (s : State) : Out :=
  .next (s.scalar .A 4 (xr d ++ xr a) [xr a] fun k => k.wrx d (k.rdx a + i.signExtend 64))
/-- MAD64 (R377). -/
def execMad64 (d a b c : Nat) (s : State) : Out :=
  .next (s.scalar .A 4 (xr d ++ sr a ++ sr b ++ xr c) [sr a, sr b, xr c] fun k =>
    k.wrx d (k.rdx c + (k.rd a).setWidth 64 * (k.rd b).setWidth 64))

/-! ### Bit fields and selection (R378, R379) -/

/-- BFX: the field zero-extended (R378). -/
def execBfx (d a pos width : Nat) (s : State) : Out :=
  .next (s.op2 4 d a fun x => BitVec.ofNat 32 (x.toNat / 2 ^ pos % 2 ^ width))
/-- The bits [pos + width − 1 : pos] of a word. -/
def fieldMask (pos width : Nat) : Word := BitVec.ofNat 32 ((2 ^ width - 1) * 2 ^ pos)
/-- BFI: the field inserted into s_d, which is also a use (R378). -/
def execBfi (d a pos width : Nat) (s : State) : Out :=
  .next (s.op3 4 d d a fun x y => (x &&& ~~~fieldMask pos width) ||| (y <<< pos &&& fieldMask pos width))
/-- SEL: s_c is a use; the chosen operand passes its poison (R379, R304). -/
def execSel (d c a b : Nat) (s : State) : Out :=
  .next (s.scalar .A 4 (sr d ++ sr c ++ sr a ++ sr b) [sr c] fun k =>
    let r := if k.rd c = 0#32 then b else a
    k.wrP d (k.raw r) (k.psnAny (sr r)))

/-! ### Path-thread predicates (R380, R381) -/

/-- A CMP condition (R380). -/
def cmpHolds (c : CmpCond) (a b : Word) : Bool :=
  match c with
  | .eq => a == b
  | .ne => a != b
  | .lt => decide (a.toInt < b.toInt)
  | .ge => decide (b.toInt ≤ a.toInt)
  | .ltn => decide (a.toNat < b.toNat)
  | .gen => decide (b.toNat ≤ a.toNat)

/-- CMP (R380). -/
def execCmp (c : CmpCond) (d a b : Nat) (s : State) : Out :=
  .next (s.scalar .P 4 (sr a ++ sr b) [sr a, sr b] fun k => k.wrPbit d (cmpHolds c (k.rd a) (k.rd b)))
/-- PAND (R381). -/
def execPand (d a b : Nat) (s : State) : Out :=
  .next (s.scalar .P 4 [] [] fun k => k.wrPbit d (k.pbit a && k.pbit b))
/-- POR (R381). -/
def execPor (d a b : Nat) (s : State) : Out :=
  .next (s.scalar .P 4 [] [] fun k => k.wrPbit d (k.pbit a || k.pbit b))
/-- PNOT (R381). -/
def execPnot (d a : Nat) (s : State) : Out := .next (s.scalar .P 4 [] [] fun k => k.wrPbit d (!k.pbit a))

/-! ### Common registers (R250, R382) -/

/-- A common register as a KGET issued in a tile cycle reads it: a KSET is seen 6 tile cycles after its issue (R250). -/
def Sync.kget (y : Sync) (cycle n : Nat) : Word :=
  match y.kpend.find? fun p => p.2.1 == n && decide (cycle < p.1 + 6) with
  | some p => p.2.2.1
  | none => fget y.k n 0#32
/-- A KSET issued in a tile cycle: the old value stays readable for 6 tile cycles.  Of two of one register in one tile cycle the wave's
stands (R250). -/
def Sync.kset (y : Sync) (cycle n : Nat) (v : Word) (wave : Bool) : Sync :=
  if !wave && y.kpend.any fun p => p.1 == cycle && p.2.1 == n && p.2.2.2 then y
  else
    { y with k := fset y.k n v,
             kpend := (y.kpend.filter fun p => decide (cycle < p.1 + 6)) ++ [(cycle, n, fget y.k n 0#32, wave)] }
/-- KGET and its alias (R382). -/
def State.kgetOp (s : State) (len d n : Nat) : State :=
  let v := s.myTile.sync.kget s.tileCycle n
  s.scalar .A len (sr d) [] fun k => k.wr d v
/-- KSET and its alias: a use of s_a (R250, R382). -/
def State.ksetOp (s : State) (len n a : Nat) : State :=
  s.guard .A (sr a) [sr a] fun s =>
    (s.updSync s.cur.1 fun y => y.kset s.tileCycle n (s.me.rd a) (!isPath s.cur.2)).retire len
/-- KGET (R382). -/
def execKget (d n : Nat) (s : State) : Out := .next (s.kgetOp 4 d n)
/-- KSET (R382). -/
def execKset (n a : Nat) (s : State) : Out := .next (s.ksetOp 4 n a)
/-- KGET sR, kS (R362). -/
def execKget16 (r n : Nat) (s : State) : Out := .next (s.kgetOp 2 r n)
/-- KSET kS, sR (R362). -/
def execKset16 (r n : Nat) (s : State) : Out := .next (s.ksetOp 2 n r)

/-! ### Branches (R383 to R385) -/

/-- PC + 2 × SInt(off) (R343). -/
def target {n : Nat} (pc : BitVec 48) (off : BitVec n) : BitVec 48 := pc + (off.signExtend 48 <<< 1)
/-- A transfer of control, which leaves the repeat buffer: an address, or the next instruction. -/
def Ctx.branch (k : Ctx) (taken : Bool) (tgt : BitVec 48) : Ctx := if taken then k.jump tgt else k.retire 4

/-- A BR condition (R383). -/
def brHolds (c : BrCond) (a : Word) : Bool :=
  match c with
  | .eqz => a == 0#32
  | .nez => a != 0#32
  | .ltz => decide (a.toInt < 0)
  | .gez => decide (0 ≤ a.toInt)
  | .gtz => decide (0 < a.toInt)
  | .lez => decide (a.toInt ≤ 0)
/-- A BRM condition over the active lanes (R383). -/
def brmHolds (c : BrmCond) (act m : Word) : Bool :=
  match c with
  | .any => act &&& m != 0#32
  | .all => act &&& m == act
  | .none => act &&& m == 0#32
  | .nall => act &&& m != act

/-- BR (R383). -/
def execBr (c : BrCond) (a : Nat) (off : BitVec 14) (s : State) : Out :=
  .next (s.guard .A (sr a) [sr a] fun s => s.updMe fun k => k.branch (brHolds c (k.rd a)) (target k.regs.pc off))
/-- BRP: .t (f false) or .f (f true) on a predicate bit (R383). -/
def execBrp (f : Bool) (a : Nat) (off : BitVec 14) (s : State) : Out :=
  .next (s.guard .P [] [] fun s => s.updMe fun k => k.branch (k.pbit a != f) (target k.regs.pc off))
/-- BRM (R383): the whole wave moves. -/
def execBrm (c : BrmCond) (a : Nat) (off : BitVec 14) (s : State) : Out :=
  .next (s.guard .W [] [] fun s =>
    if s.me.busyMAny [a] then s
    else s.updMe fun k => k.branch (brmHolds c k.regs.exec (k.mreg a)) (target k.regs.pc off))
/-- VBR's effect on its wave (R384): none when its lanes disagree and U = 1 (UNIFORMITY), or the stack is full (DIVSTACK). -/
def State.vbr (s : State) (f u : Bool) (a : Nat) (off : BitVec 14) : State :=
  let k := s.me
  let act := k.regs.exec
  let tk := act &&& (if f then ~~~k.mreg a else k.mreg a)
  let tgt := target k.regs.pc off
  if act = 0#32 ∨ tk = 0#32 then s.updMe (·.retire 4)
  else if tk = act then s.updMe (·.jump tgt)
  else if u then s.raise causeUniformity 0 0 k.regs.pc.toNat
  else
    match k.regs.dstack with
    | (p, m) :: rest =>
      if p = tgt then
        s.updMe fun k => { k with regs := { k.regs with dstack := (p, m ||| tk) :: rest, exec := act &&& ~~~tk } }.retire 4
      else if 32 ≤ k.regs.dstack.length then s.raise causeDivstack 0 0 k.regs.pc.toNat
      else
        s.updMe fun k =>
          { k with regs := { k.regs with dstack := (tgt, tk) :: k.regs.dstack, exec := act &&& ~~~tk } }.retire 4
    | [] => s.updMe fun k => { k with regs := { k.regs with dstack := [(tgt, tk)], exec := act &&& ~~~tk } }.retire 4
/-- VBR (R384). -/
def execVbr (f u : Bool) (a : Nat) (off : BitVec 14) (s : State) : Out :=
  .next (s.guard .W [] [] fun s => if s.me.busyMAny [a] then s else s.vbr f u a off)
/-- The divergence stack with every top entry of a PC popped, and the execution mask with their lanes (R385). -/
def reconverge (pc : BitVec 48) : List (BitVec 48 × Word) → Word → List (BitVec 48 × Word) × Word
  | [], e => ([], e)
  | (p, m) :: rest, e => if p = pc then reconverge pc rest (e ||| m) else ((p, m) :: rest, e)
/-- VRECONV (R385). -/
def execVreconv (s : State) : Out :=
  .next (s.scalar .W 4 [] [] fun k =>
    let r := reconverge k.regs.pc k.regs.dstack k.regs.exec
    { k with regs := { k.regs with dstack := r.1, exec := r.2 } })

/-! ### Jumps, calls and returns (R386) -/

/-- JMP (R386). -/
def execJmp (off : BitVec 24) (s : State) : Out :=
  .next (s.guard .A [] [] fun s => s.updMe fun k => k.jump (target k.regs.pc off))
/-- CALL: x14 := NextPC zero-extended, then as JMP (R386). -/
def execCall (off : BitVec 24) (s : State) : Out :=
  .next (s.guard .A (xr 14) [] fun s =>
    s.updMe fun k => (k.wrx 14 ((k.regs.pc + 4#48).setWidth 64)).jump (target k.regs.pc off))
/-- A jump to a pair's low 48 bits: the pair is a use (R386). -/
def State.jumpPair (s : State) (a : Nat) : State :=
  s.guard .A (xr a) [xr a] fun s => s.updMe fun k => k.jump ((k.rdx a).setWidth 48)
/-- RET (R386). -/
def execRet (s : State) : Out := .next (s.jumpPair 14)
/-- RET, the 16-bit alias (R362). -/
def execRet16 (s : State) : Out := .next (s.jumpPair 14)
/-- JR (R386). -/
def execJr (a : Nat) (s : State) : Out := .next (s.jumpPair a)

end Sys2Proof.Machine
end

