-- ==== Sys2Proof/Machine/Vector.lean ====
section
/-! DEFINITION. The vector port's register instructions (R397 to R419): lane-wise arithmetic, compares, moves, reductions, conversions,
dot products, keys, and mask registers.  All are attached (R402). -/
namespace Sys2Proof.Machine

/-! ### Shared shapes -/

/-- A vector destination with its active lanes written by g (R400), and the union of the lanes' flags. -/
def laneEff (k : Ctx) (d : Nat) (act : Word) (g : Nat → Word × Bool × Flags) : Eff :=
  { ws := [.v d (VReg.make fun i => if act.getLsbD i then ((g i).1, (g i).2.1) else ((k.vreg d).lane i, (k.vreg d).bad i))],
    flags := (lanesOf act).foldl (fun f i => f ||| (g i).2.2) noFlags }
/-- A lane-wise operation on vector operands whose reads are uses. -/
def State.laneOp (s : State) (o : MaskOp) (d : Nat) (srcs : List Nat) (g : Ctx → Nat → Word × Flags) : State :=
  s.attach { v := d :: srcs, m := [o.k] } (fun k => k.vecUses srcs (k.active o)) fun k =>
    laneEff k d (k.active o) fun i => ((g k i).1, false, (g k i).2)
/-- The lane of an operand as a use reads it. -/
def Ctx.ul (k : Ctx) (r i : Nat) : Word := (k.vreg r).use i
/-- A two-operand element-wise operation of type t. -/
def State.elem2 (s : State) (t : Ty) (o : MaskOp) (d a b : Nat) (g : Ctx → Nat → Nat → Nat × Flags) : State :=
  s.laneOp o d [a, b] fun k i => elemwise t.width fun j => g k (elem t.width j (k.ul a i)) (elem t.width j (k.ul b i))
/-- A one-operand element-wise operation of type t. -/
def State.elem1 (s : State) (t : Ty) (o : MaskOp) (d a : Nat) (g : Ctx → Nat → Nat × Flags) : State :=
  s.laneOp o d [a] fun k i => elemwise t.width fun j => g k (elem t.width j (k.ul a i))
/-- A two-operand operation on whole lanes, which sets no flag. -/
def State.word2 (s : State) (o : MaskOp) (d a b : Nat) (g : Word → Word → Word) : State :=
  s.laneOp o d [a, b] fun k i => (g (k.ul a i) (k.ul b i), noFlags)

/-! ### Floating-point arithmetic (R403, R404) -/

/-- VADD (R403). -/
def execVadd (t : Ty) (rm : Nat) (o : MaskOp) (d a b : Nat) (s : State) : Out :=
  .next (s.elem2 t o d a b fun k x y => fAdd t (k.rnd rm) k.ftz x y)
/-- VSUB (R403). -/
def execVsub (t : Ty) (rm : Nat) (o : MaskOp) (d a b : Nat) (s : State) : Out :=
  .next (s.elem2 t o d a b fun k x y => fSub t (k.rnd rm) k.ftz x y)
/-- VMUL (R403). -/
def execVmul (t : Ty) (rm : Nat) (o : MaskOp) (d a b : Nat) (s : State) : Out :=
  .next (s.elem2 t o d a b fun k x y => fMul t (k.rnd rm) k.ftz x y)
/-- VMIN (R330, R403). -/
def execVmin (t : Ty) (o : MaskOp) (d a b : Nat) (s : State) : Out :=
  .next (s.elem2 t o d a b fun k x y => (fMinMax t false k.ftz x y, noFlags))
/-- VMAX (R330, R403). -/
def execVmax (t : Ty) (o : MaskOp) (d a b : Nat) (s : State) : Out :=
  .next (s.elem2 t o d a b fun k x y => (fMinMax t true k.ftz x y, noFlags))
/-- VFMA: one rounding (R329, R403). -/
def execVfma (t : Ty) (rm : Nat) (o : MaskOp) (d a b c : Nat) (s : State) : Out :=
  .next (s.laneOp o d [a, b, c] fun k i => elemwise t.width fun j =>
    fFma t (k.rnd rm) k.ftz (elem t.width j (k.ul a i)) (elem t.width j (k.ul b i)) (elem t.width j (k.ul c i)))
/-- VABS (R403). -/
def execVabs (t : Ty) (o : MaskOp) (d a : Nat) (s : State) : Out :=
  .next (s.elem1 t o d a fun _ x => (fAbs t x, noFlags))
/-- VNEG (R403). -/
def execVneg (t : Ty) (o : MaskOp) (d a : Nat) (s : State) : Out :=
  .next (s.elem1 t o d a fun _ x => (fNeg t x, noFlags))
/-- VRCP (R331, R404). -/
def execVrcp (rm : Nat) (o : MaskOp) (d a : Nat) (s : State) : Out :=
  .next (s.elem1 .f32 o d a fun k x => fUnary rcpF (k.rnd rm) k.ftz x)
/-- VRSQ (R331, R404). -/
def execVrsq (rm : Nat) (o : MaskOp) (d a : Nat) (s : State) : Out :=
  .next (s.elem1 .f32 o d a fun k x => fUnary rsqF (k.rnd rm) k.ftz x)
/-- VSQRT (R331, R404). -/
def execVsqrt (rm : Nat) (o : MaskOp) (d a : Nat) (s : State) : Out :=
  .next (s.elem1 .f32 o d a fun k x => fUnary sqrtF (k.rnd rm) k.ftz x)
/-- VEXP2 (R331, R404). -/
def execVexp2 (rm : Nat) (o : MaskOp) (d a : Nat) (s : State) : Out :=
  .next (s.elem1 .f32 o d a fun k x => fUnary exp2F (k.rnd rm) k.ftz x)
/-- VLOG2 (R331, R404). -/
def execVlog2 (rm : Nat) (o : MaskOp) (d a : Nat) (s : State) : Out :=
  .next (s.elem1 .f32 o d a fun k x => fUnary log2F (k.rnd rm) k.ftz x)

/-! ### Integer arithmetic (R405) -/

/-- An exact integer result narrowed: modulo 2^w, or clamped with .sat (R405). -/
def narrow (t : Ty) (sat : Bool) (x : Int) : Nat × Flags :=
  (intCode t.width (if sat then clampInt t x else x), noFlags)
/-- VIADD (R405). -/
def execViadd (sat : Bool) (t : Ty) (o : MaskOp) (d a b : Nat) (s : State) : Out :=
  .next (s.elem2 t o d a b fun _ x y => narrow t sat (intVal t x + intVal t y))
/-- VISUB (R405). -/
def execVisub (sat : Bool) (t : Ty) (o : MaskOp) (d a b : Nat) (s : State) : Out :=
  .next (s.elem2 t o d a b fun _ x y => narrow t sat (intVal t x - intVal t y))
/-- VIMUL: the low half, or bits [63:32] with .hi (R405). -/
def execVimul (hi : Bool) (t : Ty) (o : MaskOp) (d a b : Nat) (s : State) : Out :=
  .next (s.elem2 t o d a b fun _ x y =>
    let p := intVal t x * intVal t y
    narrow t false (if hi then p / 2 ^ 32 else p))
/-- VIMAD (R405). -/
def execVimad (t : Ty) (o : MaskOp) (d a b c : Nat) (s : State) : Out :=
  .next (s.laneOp o d [a, b, c] fun k i => elemwise t.width fun j =>
    narrow t false (intVal t (elem t.width j (k.ul a i)) * intVal t (elem t.width j (k.ul b i)) +
      intVal t (elem t.width j (k.ul c i))))
/-- VIMIN (R405). -/
def execVimin (t : Ty) (o : MaskOp) (d a b : Nat) (s : State) : Out :=
  .next (s.elem2 t o d a b fun _ x y => narrow t false (min (intVal t x) (intVal t y)))
/-- VIMAX (R405). -/
def execVimax (t : Ty) (o : MaskOp) (d a b : Nat) (s : State) : Out :=
  .next (s.elem2 t o d a b fun _ x y => narrow t false (max (intVal t x) (intVal t y)))

/-! ### Logic and shifts (R406) -/

/-- VAND (R406). -/
def execVand (o : MaskOp) (d a b : Nat) (s : State) : Out := .next (s.word2 o d a b (· &&& ·))
/-- VOR (R406). -/
def execVor (o : MaskOp) (d a b : Nat) (s : State) : Out := .next (s.word2 o d a b (· ||| ·))
/-- VXOR (R406). -/
def execVxor (o : MaskOp) (d a b : Nat) (s : State) : Out := .next (s.word2 o d a b (· ^^^ ·))
/-- VNOT (R406). -/
def execVnot (o : MaskOp) (d a : Nat) (s : State) : Out :=
  .next (s.laneOp o d [a] fun k i => (~~~k.ul a i, noFlags))
/-- A shift by a vector operand or by an immediate amount (R406). -/
def State.vshift (s : State) (o : MaskOp) (d a : Nat) (n : ShAmt) (g : Word → Word → Word) : State :=
  match n with
  | .reg b => s.word2 o d a b g
  | .imm i => s.laneOp o d [a] fun k l => (g (k.ul a l) (BitVec.ofNat 32 i), noFlags)
/-- VSHL (R406). -/
def execVshl (o : MaskOp) (d a : Nat) (n : ShAmt) (s : State) : Out := .next (s.vshift o d a n shlW)
/-- VSHR (R406). -/
def execVshr (o : MaskOp) (d a : Nat) (n : ShAmt) (s : State) : Out := .next (s.vshift o d a n shrW)
/-- VSRA (R406). -/
def execVsra (o : MaskOp) (d a : Nat) (n : ShAmt) (s : State) : Out := .next (s.vshift o d a n sraW)

/-! ### Compares, selection and moves (R407, R408) -/

/-- A word made of the bits that g gives for the lanes in w, the other bits of old kept. -/
def bitsOf (w old : Word) (g : Nat → Bool) : Word :=
  (lanesOf w).foldl (fun m i => if g i then m ||| BitVec.twoPow 32 i else m &&& ~~~BitVec.twoPow 32 i) old
/-- A compare of two vector registers into a mask register (R407). -/
def State.vcompare (s : State) (o : MaskOp) (d a b : Nat) (g : Ctx → Word → Word → Bool × Flags) : State :=
  s.attach { v := [a, b], m := [o.k, d] } (fun k => k.vecUses [a, b] (k.active o)) fun k =>
    { ws := [.m d (bitsOf (k.active o) (k.mreg d) fun i => (g k (k.ul a i) (k.ul b i)).1)],
      flags := (lanesOf (k.active o)).foldl (fun f i => f ||| (g k (k.ul a i) (k.ul b i)).2) noFlags }
/-- A VCMP condition (R407). -/
def vcmpHolds (c : VcmpCond) (x y : Int) : Bool :=
  match c with
  | .eq => x == y
  | .ne => x != y
  | .lt => decide (x < y)
  | .le => decide (x ≤ y)
  | .gt => decide (y < x)
  | .ge => decide (y ≤ x)
/-- VCMP (R407). -/
def execVcmp (c : VcmpCond) (t : Ty) (o : MaskOp) (d a b : Nat) (s : State) : Out :=
  .next (s.vcompare o d a b fun _ x y => (vcmpHolds c (intVal t x.toNat) (intVal t y.toNat), noFlags))
/-- VFCMP (R330, R407). -/
def execVfcmp (c : VfcmpCond) (o : MaskOp) (d a b : Nat) (s : State) : Out :=
  .next (s.vcompare o d a b fun k x y => fCmp c k.ftz x.toNat y.toNat)
/-- VSEL: the chosen operand, with its poison (R304, R408). -/
def execVsel (o : MaskOp) (d a b c : Nat) (s : State) : Out :=
  .next (s.attach { v := [d, a, b], m := [o.k, c] } (fun _ => 0) fun k =>
    laneEff k d (k.active o) fun i =>
      let r := k.vreg (if (k.mreg c).getLsbD i then a else b)
      (r.lane i, r.bad i, noFlags))
/-- VMOV (R408). -/
def execVmov (o : MaskOp) (d a : Nat) (s : State) : Out :=
  .next (s.attach { v := [d, a], m := [o.k] } (fun _ => 0) fun k =>
    laneEff k d (k.active o) fun i => ((k.vreg a).lane i, (k.vreg a).bad i, noFlags))
/-- VBCAST (R408). -/
def execVbcast (o : MaskOp) (d a : Nat) (s : State) : Out :=
  .next (s.attach { s := sr a, v := [d], m := [o.k] } (fun _ => 0) fun k =>
    laneEff k d (k.active o) fun _ => (k.raw a, k.psnAny (sr a), noFlags))

/-! ### Reductions and scans (R409) -/

/-- The identity of an operation (R409). -/
def foldId (op : AtomOp) (t : Ty) : Word :=
  match op with
  | .min => if t == .f32 then 0x7F800000#32 else if t == .i32 then 0x7FFFFFFF#32 else 0xFFFFFFFF#32
  | .max => if t == .f32 then 0xFF800000#32 else if t == .i32 then 0x80000000#32 else 0#32
  | .and => 0xFFFFFFFF#32
  | _ => 0#32
/-- Combine (R409). -/
def combine (op : AtomOp) (t : Ty) (x y : Word) : Word × Flags :=
  match op with
  | .add => if t == .f32 then ((BitVec.ofNat 32 (f32Add x.toNat y.toNat).1), (f32Add x.toNat y.toNat).2) else (x + y, noFlags)
  | .min =>
    (if t == .f32 then BitVec.ofNat 32 (fMinMax .f32 false false x.toNat y.toNat)
     else if t == .i32 then minW x y else minnW x y, noFlags)
  | .max =>
    (if t == .f32 then BitVec.ofNat 32 (fMinMax .f32 true false x.toNat y.toNat)
     else if t == .i32 then maxW x y else maxnW x y, noFlags)
  | .and => (x &&& y, noFlags)
  | .or => (x ||| y, noFlags)
  | _ => (x ^^^ y, noFlags)
/-- The fold of R409 over values in lane order: each partial result before and after its lane, and the flags so far. -/
def foldSteps (op : AtomOp) (t : Ty) : Option Word → Flags → List (Nat × Word) → List (Nat × Word × Word × Flags)
  | _, _, [] => []
  | acc, fl, (i, x) :: rest =>
    let r : Word × Flags := match acc with
      | none => (x, noFlags)
      | some y => combine op t y x
    (i, acc.getD (foldId op t), r.1, fl ||| r.2) :: foldSteps op t (some r.1) (fl ||| r.2) rest
/-- The active lanes of an operand as uses, in lane order. -/
def Ctx.foldIn (k : Ctx) (a : Nat) (act : Word) : List (Nat × Word) := (lanesOf act).map fun i => (i, k.ul a i)
/-- VRED (R409): s_d takes the fold, or the identity when no lane is active. -/
def execVred (op : AtomOp) (t : Ty) (o : MaskOp) (d a : Nat) (s : State) : Out :=
  .next (s.attach { s := sr d, v := [a], m := [o.k] } (fun k => k.vecUses [a] (k.active o)) fun k =>
    match (foldSteps op t none noFlags (k.foldIn a (k.active o))).getLast? with
    | none => { ws := [.s d (foldId op t) false] }
    | some r => { ws := [.s d r.2.2.1 false], flags := r.2.2.2 })
/-- VSCAN (R409). -/
def execVscan (op : AtomOp) (excl : Bool) (t : Ty) (o : MaskOp) (d a : Nat) (s : State) : Out :=
  .next (s.attach { v := [d, a], m := [o.k] } (fun k => k.vecUses [a] (k.active o)) fun k =>
    let rs := foldSteps op t none noFlags (k.foldIn a (k.active o))
    let e := laneEff k d (k.active o) fun i =>
      match rs.find? fun r => r.1 == i with
      | some r => (if excl then r.2.1 else r.2.2.1, false, noFlags)
      | none => (0#32, false, noFlags)
    { e with flags := match rs.getLast? with | some r => r.2.2.2 | none => noFlags })

/-! ### Lane movement (R410) -/

/-- The source lane of VSHUF (R410). -/
def shufLane (k : Ctx) (m : ShufMode) (l : Nat) : Nat :=
  match m with
  | .idx b => (k.ul b l).toNat % 32
  | .xor n => Nat.xor l n
  | .up n => if n ≤ l then l - n else l
  | .down n => if l + n ≤ 31 then l + n else l
/-- The index register of VSHUF.idx. -/
def shufRegs : ShufMode → List Nat
  | .idx b => [b]
  | _ => []
/-- VSHUF (R410). -/
def execVshuf (m : ShufMode) (o : MaskOp) (d a : Nat) (s : State) : Out :=
  .next (s.attach { v := d :: a :: shufRegs m, m := [o.k] } (fun k => k.vecUses (shufRegs m) (k.active o)) fun k =>
    laneEff k d (k.active o) fun i => ((k.vreg a).lane (shufLane k m i), (k.vreg a).bad (shufLane k m i), noFlags))
/-- VBALLOT (R410). -/
def execVballot (o : MaskOp) (d a : Nat) (s : State) : Out :=
  .next (s.attach { s := sr d, v := [a], m := [o.k] } (fun k => k.vecUses [a] (k.active o)) fun k =>
    { ws := [.s d (bitsOf (k.active o) 0#32 fun i => k.ul a i != 0#32) false] })
/-- VLANE in its three forms (R410). -/
def execVlane (f : LaneForm) (s : State) : Out :=
  .next (match f with
    | .get d a b =>
      s.attach { s := sr d ++ sr b, v := [a] } (fun k => k.poisonedUses [sr b]) fun k =>
        let i := (k.rd b).toNat % 32
        { ws := [.s d ((k.vreg a).lane i) ((k.vreg a).bad i)] }
    | .put d a b =>
      s.attach { s := sr a ++ sr b, v := [d] } (fun k => k.poisonedUses [sr b]) fun k =>
        laneEff k d (BitVec.twoPow 32 ((k.rd b).toNat % 32)) fun _ => (k.raw a, k.psnAny (sr a), noFlags)
    | .id o d =>
      s.attach { v := [d], m := [o.k] } (fun _ => 0) fun k =>
        laneEff k d (k.active o) fun i => (BitVec.ofNat 32 i, false, noFlags))

/-! ### Conversions (R328, R411, R412) -/

/-- The number of active lanes below a lane. -/
def rank (act : Word) (i : Nat) : Nat := ((List.range i).filter act.getLsbD).length
/-- The mode of the n-th element that a conversion produces, from 0 (R325, R326). -/
def Ctx.convRnd (k : Ctx) (rm n : Nat) : Rnd := rndOf (k.rmCode rm true) (rngNum (rngAfter (n + 1) k.ctl.rngseed))
/-- The generator after n elements under code 4, and none otherwise. -/
def Ctx.convRng (k : Ctx) (rm n : Nat) : Option Word :=
  if k.rmCode rm true = 4 then some (rngAfter n k.ctl.rngseed) else none
/-- VCVT (R411). -/
def execVcvt (dt st : Ty) (rm : Nat) (o : MaskOp) (d a : Nat) (s : State) : Out :=
  .next (s.attach { v := [d, a], m := [o.k] } (fun k => k.vecUses [a] (k.active o)) fun k =>
    let act := k.active o
    { laneEff k d act (fun i =>
        let r := convert dt st (k.convRnd rm (rank act i)) k.sat8 (k.ul a i).toNat
        (BitVec.ofNat 32 r.1, false, r.2)) with rng := k.convRng rm (popc act) })
/-- VPACK: element j of a lane comes from v(a + j) (R412). -/
def execVpack (dt st : Ty) (rm : Nat) (o : MaskOp) (d a : Nat) (s : State) : Out :=
  let n := 32 / dt.width
  let srcs := (List.range n).map (a + ·)
  .next (s.attach { v := d :: srcs, m := [o.k] } (fun k => k.vecUses srcs (k.active o)) fun k =>
    let act := k.active o
    { laneEff k d act (fun i =>
        let r := elemwise dt.width fun j => convert dt st (k.convRnd rm (rank act i * n + j)) k.sat8 (k.ul (a + j) i).toNat
        (r.1, false, r.2)) with rng := k.convRng rm (popc act * n) })
/-- VUNPACK: v(d + j) takes element j of each lane (R412). -/
def execVunpack (dt st : Ty) (o : MaskOp) (d a : Nat) (s : State) : Out :=
  let n := 32 / st.width
  let dsts := (List.range n).map (d + ·)
  .next (s.attach { v := a :: dsts, m := [o.k] } (fun k => k.vecUses [a] (k.active o)) fun k =>
    { ws := (List.range n).flatMap fun j =>
        (laneEff k (d + j) (k.active o) fun i =>
          (BitVec.ofNat 32 (unpackElem dt st (elem st.width j (k.ul a i))), false, noFlags)).ws })

/-! ### Dot products (R332, R333, R335, R413, R414) -/

/-- Poisoned register lanes among those read, each counted once (R305, R414). -/
def Ctx.laneUses (k : Ctx) (ps : List (Nat × Word)) : Nat :=
  ((ps.map (·.1)).eraseDups.map fun r =>
    popc (k.badLanes r (ps.foldl (fun w p => if p.1 = r then w ||| p.2 else w) 0#32))).sum
/-- One lane of VDOT without blocks (R413): all its elements form one group (R332). -/
def dotLane (t : Ty) (x y z : Word) : Word × Flags :=
  let n := 32 / t.width
  if t.isInt then
    (BitVec.ofInt 32 ((z.toNat : Int) +
      ((List.range n).map fun j => intVal t (elem t.width j x) * intVal t (elem t.width j y)).sum), noFlags)
  else
    let g := sumV ((List.range n).map fun j => mulV ((fmtOf t).val (elem t.width j x)) ((fmtOf t).val (elem t.width j y)))
    let r := accGroup z.toNat g
    (BitVec.ofNat 32 r.1, r.2)
/-- Elements of one block, by its code (R369). -/
def blockSize (blk : Nat) : Nat := 4 * 2 ^ blk
/-- The active lanes of block i, of w lanes. -/
def blockLanes (act : Word) (w i : Nat) : List Nat := (lanesOf act).filter fun l => l / w == i
/-- The blocks that are read: those with an active lane (R414). -/
def liveBlocks (act : Word) (w : Nat) : List Nat := (List.range (32 / w)).filter fun i => blockLanes act w i != []
/-- A block scale: byte i mod 4 of lane i / 4 (R414), in E5M2 or E8M0. -/
def Ctx.scaleOf (k : Ctx) (r i : Nat) (se : Bool) : FVal :=
  fltVal (if se then .e5m2 else .e8m0) (elem 8 (i % 4) (k.ul r (i / 4)))
/-- One block's contribution (R335 steps 1 and 2). -/
def Ctx.blockDot (k : Ctx) (t : Ty) (se : Bool) (a b : Nat) (act : Word) (w i : Nat) : Nat × Flags :=
  let ps := (blockLanes act w i).flatMap fun l => (List.range (32 / t.width)).map fun j =>
    mulV ((fmtOf t).val (elem t.width j (k.ul a l))) ((fmtOf t).val (elem t.width j (k.ul b l)))
  blockContrib (sumV ps) (k.scaleOf (a + 1) i se) (k.scaleOf (b + 1) i se)
/-- The block-scaled dot product over the wave, before the addend (R414). -/
def Ctx.dotBlocks (k : Ctx) (t : Ty) (blk : Nat) (se : Bool) (ts : Option Nat) (a b : Nat) (act : Word) : Nat × Flags :=
  let w := blockSize blk / (32 / t.width)
  let r := (liveBlocks act w).foldl (fun (r : Nat × Flags) i =>
    let c := k.blockDot t se a b act w i
    let n := accContrib r.1 c
    (n.1, r.2 ||| n.2 ||| c.2)) (0, noFlags)
  match ts with
  | none => r
  | some p =>
    let n := tensorScale r.1 (k.rd p).toNat (k.rd (p + 1)).toNat
    (n.1, r.2 ||| n.2)
/-- The scalars of a tensor-scale pair. -/
def tsRegs (ts : Option Nat) : List Nat := match ts with | some p => [p, p + 1] | none => []
/-- VDOT (R413, R414). -/
def execVdot (t : Ty) (blk : Nat) (se : Bool) (ts : Option Nat) (o : MaskOp) (d a b c : Nat) (s : State) : Out :=
  .next (if blk = 0 then
      s.laneOp o d [a, b, c] fun k i => dotLane t (k.ul a i) (k.ul b i) (k.ul c i)
    else
      let w := blockSize blk / (32 / t.width)
      s.attach { s := tsRegs ts, v := [d, a, b, c, a + 1, b + 1], m := [o.k] }
        (fun k =>
          let act := k.active o
          let sc := bitsOf 0xFFFFFFFF#32 0#32 fun l => (liveBlocks act w).any fun i => i / 4 == l
          k.laneUses [(a, act), (b, act), (c, act), (a + 1, sc), (b + 1, sc)] +
            (if act = 0#32 then 0 else k.poisonedUses ((tsRegs ts).map sr)))
        fun k =>
          let act := k.active o
          if act = 0#32 then { ws := [] }
          else
            let r := k.dotBlocks t blk se ts a b act
            let e := laneEff k d act fun i =>
              let n := f32Add r.1 (k.ul c i).toNat
              (BitVec.ofNat 32 n.1, false, n.2)
            { e with flags := e.flags ||| r.2 })

/-! ### Queries, keys and hashes (R415 to R417) -/

/-- VUNIF (R415). -/
def execVunif (d a : Nat) (s : State) : Out :=
  .next (s.attach { s := sr d, v := [a] } (fun _ => 0) fun k =>
    { ws := [.s d (if (k.vreg a).uniform then 1#32 else 0#32) false] })
/-- A coordinate clamped (R416). -/
def coord (t : Ty) (mx : Nat) (x : Word) : Nat :=
  let v := intVal t x.toNat
  if v < 0 then 0 else if (mx : Int) < v then mx else v.toNat
/-- The bits of some coordinates interleaved, n bits each (R416). -/
def interleave (n : Nat) (cs : List Nat) : Nat :=
  ((List.range n).flatMap fun i => (List.range cs.length).map fun j =>
    cs.getD j 0 / 2 ^ i % 2 * 2 ^ (cs.length * i + j)).sum
/-- VMORTON (R416). -/
def execVmorton (two : Bool) (t : Ty) (o : MaskOp) (d a b c : Nat) (s : State) : Out :=
  .next (if two then
      s.laneOp o d [a, b] fun k i =>
        (BitVec.ofNat 32 (interleave 16 [coord t 65535 (k.ul a i), coord t 65535 (k.ul b i)]), noFlags)
    else
      s.laneOp o d [a, b, c] fun k i =>
        (BitVec.ofNat 32 (interleave 10 [coord t 1023 (k.ul a i), coord t 1023 (k.ul b i), coord t 1023 (k.ul c i)]), noFlags))
/-- The hash of R417. -/
def hashW (x seed : Word) (n : Nat) : Word :=
  let h := x ^^^ seed
  let h := h ^^^ (h >>> 16)
  let h := h * 0x2C1B3C6D#32
  let h := h ^^^ (h >>> 13)
  let h := h * 0x297A2D39#32
  let h := h ^^^ (h >>> 16)
  if n = 0 then h else h >>> (32 - n)
/-- VHASH (R417). -/
def execVhash (n : Nat) (o : MaskOp) (d a b : Nat) (s : State) : Out := .next (s.word2 o d a b fun x y => hashW x y n)

/-! ### Mask registers (R418) -/

/-- A mask operation of two sources (R418). -/
def State.maskOp (s : State) (d a : Nat) (b : MaskSrc) (g : Word → Word → Word) : State :=
  match b with
  | .m n => s.attach { m := [d, a, n] } (fun _ => 0) fun k => { ws := [.m d (g (k.mreg a) (k.mreg n))] }
  | .s n => s.attach { s := sr n, m := [d, a] } (fun k => k.poisonedUses [sr n]) fun k => { ws := [.m d (g (k.mreg a) (k.rd n))] }
/-- MAND (R418). -/
def execMand (d a : Nat) (b : MaskSrc) (s : State) : Out := .next (s.maskOp d a b (· &&& ·))
/-- MOR (R418). -/
def execMor (d a : Nat) (b : MaskSrc) (s : State) : Out := .next (s.maskOp d a b (· ||| ·))
/-- MXOR (R418). -/
def execMxor (d a : Nat) (b : MaskSrc) (s : State) : Out := .next (s.maskOp d a b (· ^^^ ·))
/-- MNOT (R418). -/
def execMnot (d a : Nat) (s : State) : Out :=
  .next (s.attach { m := [d, a] } (fun _ => 0) fun k => { ws := [.m d (~~~k.mreg a)] })
/-- MPOP (R418). -/
def execMpop (d a : Nat) (s : State) : Out :=
  .next (s.attach { s := sr d, m := [a] } (fun _ => 0) fun k => { ws := [.s d (BitVec.ofNat 32 (popc (k.mreg a))) false] })
/-- MFIRST (R418). -/
def execMfirst (d a : Nat) (s : State) : Out :=
  .next (s.attach { s := sr d, m := [a] } (fun _ => 0) fun k =>
    { ws := [.s d (BitVec.ofNat 32 ((lanesOf (k.mreg a)).headD 32)) false] })

end Sys2Proof.Machine
end

