-- ==== Sys2Proof/Machine/Scratch.lean ====
section
/-! DEFINITION. Scratch: the windows an address names, an access at the scratch port, parked entries and their passes, and the scratch
instructions (R69, R70, R221, R240, R244, R264 to R267, R423, R424, R430 to R433). -/
namespace Sys2Proof.Machine

/-! ### Windows (R69, R430) -/

/-- What a scratch address names for an access from a tile. -/
inductive Win where
  | own (off : Nat)
  | tile (t off : Nat)
  | pkg (p t off : Nat)
  | event (off : Nat)
  | none
  deriving DecidableEq, Repr

/-- The window of an address (R69, R430); another tile's event window names nothing (R256). -/
def State.scrWin (s : State) (t va : Nat) : Win :=
  if 0xFC0000000000 ≤ va ∧ va < 0xFC0000080000 then .own (va % 2 ^ 19)
  else if 0xFE0000000000 ≤ va ∧ va < 0xFE2000000000 then
    let p := bits va 36 29
    let d := bits va 28 19
    if p == s.pkgOf (dieOf t) then (if d == t then .own (va % 2 ^ 19) else .tile d (va % 2 ^ 19)) else .pkg p d (va % 2 ^ 19)
  else if 0xFD0000000000 ≤ va ∧ va < 0xFD0004000000 ∧ va / 2 ^ 16 % 1024 = t then .event (va % 2 ^ 16)
  else .none

/-! ### An access at the scratch port (R244, R264, R304, R306, R430) -/

/-- The owning tile and offset of a scratch element. -/
def Elem.scr? (e : Elem) : Option (Nat × Nat) := match e.loc with | some (.scr t off) => some (t, off) | _ => none
/-- Whether a scratch operation counts as a store in R244 and R307. -/
def OpKind.scrWrites : OpKind → Bool
  | .scrStore | .syncStore | .feset _ | .copyWrite => true
  | _ => false
/-- Whether an operation belongs to a copy (R269): it writes words one by one, each FULL where its data says so. -/
def OpKind.isCopy : OpKind → Bool
  | .copyRead | .copyWrite => true
  | _ => false
/-- Whether an operation waits on the full/empty bit. -/
def OpKind.syncs : OpKind → Bool
  | .syncLoad _ | .syncStore => true
  | _ => false
/-- Poison bits of the words of a scratch access. -/
def State.scrPoisN (s : State) (t off n : Nat) : BitVec 2 :=
  (if s.scrPois t off then 1#2 else 0#2) ||| (if n == 8 && s.scrPois t (off + 4) then 2#2 else 0#2)
/-- A scratch write of up to 8 bytes with the poison of each word. -/
def State.scrPut (s : State) (t off n v : Nat) (p : BitVec 2) : State :=
  if n == 8 then (s.scrWrite t off 4 (v % 2 ^ 32) (p.getLsbD 0)).scrWrite t (off + 4) 4 (v / 2 ^ 32) (p.getLsbD 1)
  else s.scrWrite t off n v (p.getLsbD 0)
/-- A word's full/empty bit changed, which starts a pass of the park table (R265). -/
def State.changeFull (s : State) (t off : Nat) (b : Bool) : State :=
  let ch := s.scrFull t off != b
  let s := s.setFull t off b
  if ch then s.pend .parkPass { tile := t, off := off / 4 * 4 } else s
/-- Entries parked on a word. -/
def Sync.parkedOn (y : Sync) (off : Nat) : List Park := y.park.filter fun p => p.off == off / 4 * 4
/-- An element attempted at its port: what it returned and the state after, or none when it must wait (R264, R265). -/
def State.scrAttempt (s : State) (o : Op) (e : Elem) (t off : Nat) (parked : Bool) : Option (Elem × State) :=
  let w := o.kind.scrWrites
  if !(s.tile t).allows o.lidx off e.n w (o.ctx == sysCtx) then
    some ({ e with done := true, res := 0#64, rpois := poisOf true e.n },
      s.violate t o.tile o.ctx o.lidx o.pc.toNat e.va w)
  else
    let behind := !parked && !((s.tile t).sync.parkedOn off).isEmpty
    let got (s : State) : Elem := { e with done := true, res := BitVec.ofNat 64 (s.scrRead t off e.n), rpois := s.scrPoisN t off e.n }
    match o.kind with
    | .scrLoad | .copyRead => some (got s, s)
    | .copyWrite =>
      let s := s.scrPut t off e.n e.data.toNat e.dpois
      some ({ e with done := true }, if e.cmp != 0#64 then s.changeFull t off true else s)
    | .scrStore => some ({ e with done := true }, s.scrPut t off e.n e.data.toNat e.dpois)
    | .syncLoad take =>
      if behind || !s.scrFull t off then none else some (got s, if take then s.changeFull t off false else s)
    | .syncStore =>
      if behind || s.scrFull t off then none
      else some ({ e with done := true }, (s.scrPut t off e.n e.data.toNat e.dpois).changeFull t off true)
    | .feset b => some ({ e with done := true }, s.changeFull t off b)
    | _ => some ({ e with done := true }, s)
/-- Whether every element of an operation at a tile has been performed. -/
def Op.doneAt (o : Op) (t : Nat) : Bool := o.elems.all fun e => e.done || e.scr?.all fun p => p.1 != t
/-- The tile of another package behind a foreign operation, if it is one: its package and tile. -/
def Op.foreign? (o : Op) : Option (Nat × Nat) := if o.tile < 1024 then none else some (o.tile / 1024 - 1, o.tile % 1024)
/-- The status of a remote reply. -/
def replyOk : Nat := 0
/-- The park table was full (R265). -/
def replyRetry : Nat := 1
/-- The entry timed out (R266). -/
def replyTimeout : Nat := 2
/-- The answer for an operation from a tile: to its own context, or on VC4 to a remote one (R430). -/
def State.scrAnswer (s : State) (id : Nat) (o : Op) (t status : Nat) : State :=
  match o.foreign? with
  | some (p, src) =>
    let e := o.elems.headD (mkElem 0 0 4 none 0 0)
    let s := s.delOp id
    (s.sendOut t p 4 1 o.lidx .remoteScratchReply
      { tile := src, id := o.dest, val := status, off := e.lane, tok := e.rpois.toNat, acc := e.res.toNat }).getD s
  | none =>
    s.send (.tile t) (.tile o.tile) 4 1 o.lidx .remoteScratchReply
      { tile := o.tile, ctx := o.ctx, id := id, val := status, off := t,
        lanes := laneMask (o.elems.filter fun e => e.done && e.scr?.any fun p => p.1 == t) }
/-- An element of an operation replaced. -/
def Op.setElem (o : Op) (e : Elem) : Op := { o with elems := o.elems.map fun f => if f.lane == e.lane then e else f }
/-- After an element was performed at a tile: the answer goes out when the tile has performed all of its own (R431). -/
def State.scrElemDone (s : State) (id : Nat) (o : Op) (e : Elem) (t : Nat) : State :=
  let o := o.setElem { e with back := o.tile == t }
  let s := s.setOp id o
  if o.tile == t then (if o.allBack then s.answerOp id o else s)
  else if o.doneAt t then s.scrAnswer id o t replyOk
  else s
/-- A parked entry added, with its time-out (R265, R266). -/
def State.park (s : State) (id : Nat) (e : Elem) (t off : Nat) : State :=
  let y := (s.tile t).sync
  let p := y.parkId
  let s := s.updSync t fun y => { y with park := y.park ++ [⟨p, id, e.lane, off / 4 * 4⟩], parkId := p + 1 }
  (s.after (s.fetmo t * tileTicks) .syncTimeout { tile := t, id := p }).pend .parkPass { tile := t, off := off / 4 * 4 }
/-- Whether an element waits in a tile's park table. -/
def Sync.isParked (y : Sync) (id lane : Nat) : Bool := y.park.any fun p => p.op == id && p.lane == lane
/-- The elements of an operation at a tile are attempted in lane order; one that must wait is parked; with the table full a
local one stays at its context, and a remote operation is answered RETRY (R265, R431). -/
def State.scrServe (s : State) (id t : Nat) : State :=
  match s.op? id with
  | none => s
  | some o =>
    let todo := o.elems.filter fun e => !e.done && !(s.tile t).sync.isParked id e.lane
    todo.foldl (fun s e =>
      match s.op? id, e.scr? with
      | some o, some (u, off) =>
        if u != t then s
        else
          match s.scrAttempt o e t off false with
          | some (e, s) => s.scrElemDone id o e t
          | none =>
            if (s.tile t).sync.park.length < 64 then s.park id e t off
            else if o.tile == t then s else s.scrAnswer id o t replyRetry
      | _, _ => s) s

/-! ### Issue (R263, R423, R424, R427, R430 to R433) -/

/-- An operation of the issuing context, with the given elements. -/
def State.mkOp (s : State) (kind : OpKind) (ty : Ty) (w64 : Bool) (ord : MemOrd) (es : List Elem) (dest : Nat) (vec : Bool) : Op :=
  { tile := s.cur.1, ctx := s.cur.2, lidx := s.me.lidx, pc := s.me.regs.pc, seq := none, kind := kind, aop := .add, ty := ty,
    w64 := w64, ord := ord, elems := es, dest := dest, vec := vec, err := false,
    nf := false, aux := [] }
/-- The access width of a type and of .w64 (R422). -/
def accWidth (ty : Ty) (w64 : Bool) : Nat := if w64 then 8 else ty.width / 8
/-- The ordering that a synchronising access carries of its own (R281, R433). -/
def OpKind.ownOrd : OpKind → MemOrd → MemOrd
  | .syncLoad _, _ => ⟨1, 3⟩
  | .syncStore, _ => ⟨2, 3⟩
  | _, o => o
/-- A later access waits for an acquire, a release for every earlier access, and a scratch access for an earlier
synchronising one at the same tile (R280, R427). -/
def State.scrHeld (s : State) (ord : MemOrd) (targets : List Nat) : Bool :=
  s.acqHeld || s.me.mxReading || (ordReleases ord && s.myOps.any fun p => !p.2.allDone) ||
  s.myOps.any fun p => p.2.kind.syncs && p.2.elems.any fun e => !e.done && e.scr?.any fun q => targets.contains q.1
/-- The code of an operation in a message to another package. -/
def OpKind.wire (k : OpKind) (fe : Bool) : Nat :=
  match k with
  | .scrLoad | .copyRead => 0
  | .scrStore => 1
  | .copyWrite => if fe then 7 else 1
  | .syncLoad false => 2
  | .syncLoad true => 3
  | .syncStore => 4
  | .feset false => 5
  | _ => 6
/-- Lanes whose request cannot be sent complete as UNREACHABLE, and the others go on; with the last of them the operation completes (R61,
R71, R431). -/
def State.scrUnreached (s : State) (id : Nat) (o : Op) (which : Elem → Bool) : State :=
  let o := o.failedOn which
  let s := s.setOp id o
  if o.allBack && !o.kind.isCopy then s.pend .storeAck { tile := o.tile, ctx := o.ctx, id := id } else s
/-- The message of a remote operation to one tile that its lanes name, or one for each lane to a tile of another package; `only`
restricts it to one lane.  The lanes that name a tile that cannot be reached complete with an error (R61, R71, R430). -/
def State.scrSendTo (s : State) (id t d : Nat) (only : Option Nat) : State :=
  match s.op? id with
  | none => s
  | some o =>
    if d < 1024 then
      match s.sendTile t (s.pkgOf (dieOf t)) d 3 1 o.lidx .remoteScratchRequest { tile := d, id := id } with
      | some s => s
      | none => s.scrUnreached id o fun e => !e.done && e.scr?.any fun p => p.1 == d
    else
      o.elems.foldl (fun s e =>
        match e.scr? with
        | some (u, off) =>
          if u != d || e.done || (match only with | some l => l != e.lane | none => false) then s
          else
            match s.sendOut t (d / 1024 - 1) 3 1 o.lidx .remoteScratchRequest
                { tile := d % 1024, id := id, off := off, width := e.n, val := e.data.toNat, lidx := o.lidx, who := (t, e.lane),
                  tok := e.dpois.toNat, cls := o.kind.wire (e.cmp != 0#64) } with
            | some s => s
            | none => match s.op? id with | some o => s.scrUnreached id o fun f => f.lane == e.lane | none => s
        | none => s) s
/-- The messages of a remote operation, in lane order (R430, R431). -/
def State.scrSend (s : State) (id : Nat) (t : Nat) : State :=
  match s.op? id with
  | none => s
  | some o =>
    let dsts := ((o.elems.filter fun e => !e.done).filterMap fun e => e.scr?.map (·.1)).eraseDups.filter (· != t)
    dsts.foldl (fun s d => s.scrSendTo id t d none) s
/-- The time-out of a remote access (R61): FETMO more for a synchronising one. -/
def State.scrTimeout (s : State) (kind : OpKind) (t : Nat) : Nat :=
  plainTimeout + (if kind.syncs then s.fetmo t * tileTicks else 0)
/-- A remote scalar access that goes on without waiting in place (R426, R430). -/
def State.scrRemote (s : State) (o : Op) : State :=
  if s.ctrFull o.kind then s
  else
    let (id, s) := s.issueOp o 8
    s.scrSend id o.tile
/-- A synchronising access that waits in place (R265, R433): its operation, with SCR raised when it is remote. -/
def State.scrWait (s : State) (o : Op) (remote : Bool) : State :=
  if remote && s.ctrFull o.kind then s
  else
    let s := s.flushFor o.ord
    let (id, s) := s.fresh
    let s := (s.setOp id { o with aux := [1] }).waitWith 1
    if remote then
      let s := s.updMe fun k => k.raiseCtr .scr id
      (s.after (s.scrTimeout o.kind o.tile) .responseTimeout { tile := o.tile, ctx := o.ctx, id := id }).scrSend id o.tile
    else s.scrServe id o.tile
/-- The result of a scalar access written. -/
def Ctx.putLoad (k : Ctx) (o : Op) (e : Elem) : Ctx := k.deliver { o with elems := [e] }
/-- A scalar access that waited in place completes with its answer. -/
def State.finishWait (s : State) (o : Op) (e : Elem) (ws : List Word) : State :=
  let e := { e with done := true, back := true, res := (ws.getD 1 0#32) ++ (ws.getD 0 0#32), rpois := (ws.getD 2 0#32).setWidth 2 }
  (s.updMe fun k => k.putLoad o e).retire 8

/-! ### The scalar and vector forms -/

/-- What a scratch instruction does, whatever its lanes: its kind, type, width, ordering, data register and base, and whether
it is a migrating form (R221, R432). -/
structure ScrOp where
  kind : OpKind
  ty : Ty
  w64 : Bool
  ord : MemOrd
  d : Nat
  a : Nat
  mv : Bool
  deriving DecidableEq, Repr

/-- The access kind of a scratch instruction in TRAPCAUSE (R85, R295). -/
def OpKind.scrAcc (k : OpKind) : Nat := if k.scrWrites then 1 else 0
/-- The registers of a migrating form that a path thread may name (R221, R432). -/
def ScrOp.mvOk (q : ScrOp) (c : Nat) : Bool :=
  !(q.mv && isPath c) ||
  ((q.a == 63 || q.a ≤ 8) &&
   (!q.kind.scrWrites || q.d == 63 || (if q.w64 then q.d ≤ 8 else q.d ≤ 9)))
/-- The data register is named and read as data, or only named as the destination. -/
def ScrOp.dRegs (q : ScrOp) : List Nat := match q.kind with | .feset _ => [] | _ => sxr q.w64 q.d
/-- The data of a store from scalars, with the poison of its words (R424). -/
def ScrOp.data (q : ScrOp) (k : Ctx) : Dword × BitVec 2 :=
  match q.kind with
  | .scrStore | .syncStore =>
    if q.w64 then
      (k.rawx q.d, (if k.psnAny (sr q.d) then 1#2 else 0#2) ||| (if q.d != 63 && k.psn (q.d + 1) then 2#2 else 0#2))
    else ((k.raw q.d).setWidth 64, if k.psnAny (sr q.d) then 1#2 else 0#2)
  | _ => (0#64, 0#2)
/-- A scalar scratch access at a place: here, or at another tile. -/
def State.scrAt (s : State) (q : ScrOp) (va n u off : Nat) : State :=
  let t := s.cur.1
  let (v, p) := q.data s.me
  let ord := q.kind.ownOrd q.ord
  let e := mkElem 0 va n (some (.scr u off)) v p
  let o := s.mkOp q.kind q.ty q.w64 ord [e] q.d false
  if s.scrHeld ord [u] then s
  else if u == t then
    match s.scrAttempt o e t off false with
    | some (e, s') => (((s'.flushFor ord)).updMe fun k => k.putLoad o e).retire 8
    | none => if (s.tile t).sync.park.length < 64 then s.scrWait o false else s
  else if q.kind.syncs then s.scrWait o true
  else s.scrRemote o
/-- A thread leaves for the tile that its SLD.M or SST.M names, and executes it again there (R221). -/
def State.moveTo (s : State) (dest : Nat) : State :=
  s.depart s.me.regs.pc false dest fun s p => s.inject s.cur.1 p
/-- The number of a tile of another package in an operation's place. -/
def foreignTile (p t : Nat) : Nat := 1024 * (p + 1) + t

/-! ### Event lines, mutexes and named barriers (R254 to R258) -/

/-- A phase that is complete ends: the barrier becomes IDLE, or the queued arrivals open the next one in their order, and
those that do not fit take BAR_MISMATCH (R254). -/
def State.barSettle (s : State) (t b : Nat) : State :=
  let x := fget (s.tile t).sync.bar b Barrier.init
  if x.opened && x.n ≤ x.arrived.length then
    let q := x.queued
    let x := { x with opened := false, n := 0, arrived := [], queued := [], phase := x.phase + 1 }
    let (x, good, badOnes) := q.foldl (fun (r : Barrier × List Nat × List Nat) a =>
      let (x, good, badOnes) := r
      if !x.opened then ({ x with opened := true, n := a.2.1, lidx := a.2.2, arrived := [a.1] }, good ++ [a.1], badOnes)
      else if a.2.2 == x.lidx && a.2.1 == x.n then ({ x with arrived := x.arrived ++ [a.1] }, good ++ [a.1], badOnes)
      else (x, good, badOnes ++ [a.1])) (x, [], [])
    let s := s.updSync t fun y => { y with bar := fset y.bar b x }
    let s := good.foldl (fun s c => s.updCtx t c fun k => { k with barPhase := fset k.barPhase b x.phase }) s
    let s := badOnes.foldl (fun s c => s.failWait t c causeBarMismatch 0 0) s
    if x.opened && x.n ≤ x.arrived.length then s.pend .barrierPhaseComplete { tile := t, id := b } else s
  else s
/-- The status word of a named barrier (R255). -/
def Barrier.word (x : Barrier) : Word :=
  BitVec.ofNat 32 (x.phase % 4096 + (if x.opened then x.arrived.length % 256 * 2 ^ 12 + x.n % 256 * 2 ^ 20 + 2 ^ 30 else 0) +
    x.overrun.toNat * 2 ^ 31)
/-- Whether the phase of a context's last arrival at a barrier has completed (R254). -/
def State.barPassed (s : State) (t c b : Nat) : Bool :=
  match fget? (s.ctx t c).barPhase b with
  | none => true
  | some p => p < (fget (s.tile t).sync.bar b Barrier.init).phase
/-- A context registered as waiting under a key. -/
def Sync.wait (y : Sync) (key c : Nat) : Sync := { y with waiters := y.waiters ++ [(key, c)] }
/-- A load from the event window (R256): its value, or none while it waits. -/
def State.eventLoad (s : State) (off : Nat) : Option Word × State :=
  let (t, c) := s.cur
  let y := (s.tile t).sync
  let waits (key : Nat) : Option Word × State :=
    match s.answered with
    | some ws => (some (ws.headD 0#32), s)
    | none => (none, if s.waited = 0 then (s.updSync t fun y => y.wait key c).waitWith 1 else s)
  if off < 0x100 then
    let e := off / 4
    match fget y.ev e (false, 0#32) with
    | (true, v) =>
      if s.answered.isNone && s.waited = 0 then (some v, s.updSync t fun y => { y with ev := fset y.ev e (false, v) })
      else waits e
    | _ => waits e
  else if off < 0x140 then
    let m := (off - 0x100) / 4
    if s.waited = 0 && (fget? y.mutex m).isNone && !y.waiters.any fun w => w.1 == 64 + m then
      (some 1#32, s.updSync t fun y => { y with mutex := fset y.mutex m c })
    else waits (64 + m)
  else if off < 0x180 then
    let m := (off - 0x140) / 4
    if s.unreleased then (none, s)
    else if fget? y.mutex m = some c then
      (some 0#32, (s.updSync t fun y => { y with mutex := fdel y.mutex m }).pend .mutexGrant { tile := t, id := m })
    else (some 1#32, s)
  else if 0x200 ≤ off ∧ off < 0x280 then
    let b := (off - 0x200) / 4
    let s := s.barSettle t b
    if s.barPassed t c b then (some (fget (s.tile t).sync.bar b Barrier.init).word, s) else (none, s)
  else if 0x300 ≤ off ∧ off < 0x380 then
    let b := (off - 0x300) / 4
    let s := s.barSettle t b
    let x := fget (s.tile t).sync.bar b Barrier.init
    (some x.word, if x.overrun then s.updSync t fun y => { y with bar := fset y.bar b { x with overrun := false } } else s)
  else if off = 0x400 ∨ off = 0x404 then
    (some (BitVec.ofNat 32 (((List.range 32).map fun i =>
      (fget y.ev (8 * (off - 0x400) + i) (false, 0#32)).1.toNat * 2 ^ i).sum)), s)
  else (some 0#32, s)

/-- A scalar scratch instruction (R221, R423, R430, R432, R433). -/
def State.scrScalar (s : State) (q : ScrOp) (off : BitVec 16) : State :=
  if !q.mvOk s.cur.2 then s.illegal
  else
    s.guard .A (q.dRegs ++ xr q.a) [xr q.a] fun s =>
      let k := s.me
      let n := accWidth q.ty q.w64
      let acc := q.kind.scrAcc
      let va := (k.rdx q.a + off.signExtend 64).toNat
      let o := s.mkOp q.kind q.ty q.w64 q.ord [] q.d false
      if s.waited = 1 && (match s.scrWin s.cur.1 va with | .event _ => false | _ => true) then
        match s.answered with
        | some ws => s.finishWait o (mkElem 0 va n none 0#64 0#2) ws
        | none => s
      else if k.psnAny (xr q.a) then (s.updMe fun k => k.putLoad o { mkElem 0 va n none 0#64 0#2 with done := true, back := true }).retire 8
      else if va % n ≠ 0 then s.raise causeMisalign acc 0xF va
      else
        match s.scrWin s.cur.1 va with
        | .none => s.raise causeAccess acc 0xF va
        | .own p => s.scrAt q va n s.cur.1 p
        | .tile u p => if q.mv && isPath s.cur.2 then s.moveTo (s.pkgOf (dieOf s.cur.1) * 1024 + u) else s.scrAt q va n u p
        | .pkg g u p => if q.mv && isPath s.cur.2 then s.moveTo (g * 1024 + u) else s.scrAt q va n (foreignTile g u) p
        | .event p =>
          if q.kind != .scrLoad || n != 4 || (q.mv && isPath s.cur.2) then s.raise causeAccess acc 0xF va
          else if s.scrHeld q.ord [s.cur.1] then s
          else
            match s.eventLoad p with
            | (none, s) => s
            | (some v, s) => (s.updMe fun k => k.wr q.d v).retire 8

/-! ### The .v forms (R423, R424, R431) -/

/-- The address of a lane of an index form (R423). -/
def Ctx.laneVa (k : Ctx) (a b scale lane : Nat) : Nat := (k.rdx a + (k.ul b lane).setWidth 64 <<< scale).toNat
/-- The data of a lane with the poison of its words (R424). -/
def Ctx.laneData (k : Ctx) (d : Nat) (w64 : Bool) (lane : Nat) : Dword × BitVec 2 :=
  if w64 then
    ((k.vreg (d + 1)).lane lane ++ (k.vreg d).lane lane,
      (if (k.vreg d).bad lane then 1#2 else 0#2) ||| (if (k.vreg (d + 1)).bad lane then 2#2 else 0#2))
  else (((k.vreg d).lane lane).setWidth 64, if (k.vreg d).bad lane then 1#2 else 0#2)
/-- An attached memory operation dispatched (R298, R426): its entry, its counter, its destination busy. -/
def State.dispatchMem (s : State) (o : Op) (unit : Nat) (counts : Bool) : Nat × State :=
  let s := s.flushFor o.ord
  let (id, s) := s.fresh
  let q := s.me.dseq
  let o := { o with seq := some q }
  let s := s.setOp id o
  let s := s.updMe fun k =>
    let k := match o.kind.ctr with | some c => if counts then k.raiseCtr c id else k | none => k
    ((k.markBusy id o).putEntry unit (.mem id) 0).retire 8
  (id, if counts then s.after plainTimeout .responseTimeout { tile := o.tile, ctx := o.ctx, id := id } else s)
/-- The scratch element of a lane, or the trap cause it meets (R423, R430). -/
def State.scrElem (s : State) (q : ScrOp) (va lane : Nat) : Option Elem :=
  let n := accWidth q.ty q.w64
  let (v, p) := match q.kind with
    | .scrStore | .syncStore => s.me.laneData q.d q.w64 lane
    | _ => (0#64, 0#2)
  match s.scrWin s.cur.1 va with
  | .own off => some (mkElem lane va n (some (.scr s.cur.1 off)) v p)
  | .tile u off => some (mkElem lane va n (some (.scr u off)) v p)
  | .pkg g u off => some (mkElem lane va n (some (.scr (foreignTile g u) off)) v p)
  | _ => none
/-- The vector registers of a .v form's data. -/
def ScrOp.vRegs (q : ScrOp) : List Nat := match q.kind with | .feset _ => [] | _ => vyr q.w64 q.d
/-- A .v scratch instruction (R431): every active lane is checked at dispatch, local lanes are performed at the port, remote
ones travel to their tiles; under LENIENT a lane with a poisoned address makes no access (R305). -/
def State.scrVector (s : State) (q : ScrOp) (m : MaskOp) (b scale : Nat) : State :=
  let nm : Named := { s := xr q.a, v := b :: q.vRegs, m := [m.k] }
  if !(Class.W.allows s.cur.2 && s.namesOk nm) then s.illegal
  else if s.me.busyAny nm || s.me.ringBusy then s
  else
    s.useThen (s.me.poisonedUses [xr q.a] + s.me.vecUses [b] (s.me.active m)) fun s =>
      let k := s.me
      let n := accWidth q.ty q.w64
      let acc := q.kind.scrAcc
      let bad := fun l => k.psnAny (xr q.a) || (k.vreg b).bad l
      let lanes := lanesOf (k.active m)
      let live := lanes.filter fun l => !bad l
      let va := fun l => k.laneVa q.a b scale l
      let dead := (lanes.filter bad).map fun l => { mkElem l (va l) n none 0#64 0#2 with done := true, back := true }
      let ord := q.kind.ownOrd q.ord
      match live.find? fun l => va l % n != 0 with
      | some l => s.raise causeMisalign acc 0xF (va l)
      | none =>
        let ev := match live.head? with
          | some l => (match s.scrWin s.cur.1 (va l) with | .event off => some off | _ => none)
          | none => none
        match ev with
        | some off =>
          if q.kind != .scrLoad || n != 4 then s.raise causeAccess acc 0xF (va (live.headD 0))
          else
            match s.eventLoad off with
            | (none, s) => s
            | (some v, s) =>
              let es := live.map fun l => { mkElem l (va l) n none 0#64 0#2 with done := true, back := true, res := v.setWidth 64 }
              let o := s.mkOp q.kind q.ty q.w64 ord (es ++ dead) q.d true
              let (id, s) := s.dispatchMem o 1 false
              s.pend .loadReply { tile := o.tile, ctx := o.ctx, id := id }
        | none =>
          match live.find? fun l => (s.scrElem q (va l) l).isNone with
          | some l => s.raise causeAccess acc 0xF (va l)
          | none =>
            let es := live.filterMap fun l => s.scrElem q (va l) l
            let targets := (es.filterMap fun e => e.scr?.map (·.1)).eraseDups
            let remote := targets.any (· != s.cur.1)
            if s.scrHeld ord targets || (remote && s.ctrFull q.kind) then s
            else
              let o := s.mkOp q.kind q.ty q.w64 ord (es ++ dead) q.d true
              let (id, s) := s.dispatchMem o 1 remote
              let s := (s.scrServe id o.tile).scrSend id o.tile
              if (es.isEmpty) then s.answerOp id o else s
/-- A scratch instruction in either form. -/
def State.scrInstr (s : State) (q : ScrOp) (m : SMem) : State :=
  match m with
  | .disp off => s.scrScalar q off
  | .vec o b scale => s.scrVector q o b scale

/-- SLD (R430, R431). -/
def execSld (ty : Ty) (w64 : Bool) (o : MemOrd) (m : SMem) (d a : Nat) (s : State) : Host.Outcome State Fault Refusal :=
  .next (s.scrInstr ⟨.scrLoad, ty, w64, o, d, a, false⟩ m)
/-- SST (R430, R431). -/
def execSst (ty : Ty) (w64 : Bool) (o : MemOrd) (m : SMem) (d a : Nat) (s : State) : Host.Outcome State Fault Refusal :=
  .next (s.scrInstr ⟨.scrStore, ty, w64, o, d, a, false⟩ m)
/-- SLD.M (R221, R432). -/
def execSldM (ty : Ty) (w64 : Bool) (m : SMem) (d a : Nat) (s : State) : Host.Outcome State Fault Refusal :=
  .next (s.scrInstr ⟨.scrLoad, ty, w64, ⟨0, 0⟩, d, a, true⟩ m)
/-- SST.M (R221, R432). -/
def execSstM (ty : Ty) (w64 : Bool) (m : SMem) (d a : Nat) (s : State) : Host.Outcome State Fault Refusal :=
  .next (s.scrInstr ⟨.scrStore, ty, w64, ⟨0, 0⟩, d, a, true⟩ m)
/-- SYNCLD, with or without .take (R264, R433). -/
def execSyncld (take : Bool) (ty : Ty) (m : SMem) (d a : Nat) (s : State) : Host.Outcome State Fault Refusal :=
  .next (s.scrInstr ⟨.syncLoad take, ty, false, ⟨0, 0⟩, d, a, false⟩ m)
/-- SYNCST (R264, R433). -/
def execSyncst (ty : Ty) (m : SMem) (d a : Nat) (s : State) : Host.Outcome State Fault Refusal :=
  .next (s.scrInstr ⟨.syncStore, ty, false, ⟨0, 0⟩, d, a, false⟩ m)
/-- FESET (R264, R433). -/
def execFeset (full : Bool) (m : SMem) (a : Nat) (s : State) : Host.Outcome State Fault Refusal :=
  .next (s.scrInstr ⟨.feset full, .b32, false, ⟨0, 0⟩, 0, a, false⟩ m)

end Sys2Proof.Machine
end

