-- ==== Sys2Proof/Machine/Memory.lean ====
section
/-! DEFINITION. Global loads and stores, gather and scatter, atomics and reductions, and cache control, from their issue to the
messages they send (R70, R280, R422 to R429, R434 to R437, R444). -/
namespace Sys2Proof.Machine

/-! ### What a global access is -/

/-- A global access but for its lanes. -/
structure GOp where
  kind : OpKind
  aop : AtomOp
  ty : Ty
  w64 : Bool
  ord : MemOrd
  d : Nat
  nf : Bool
  deriving DecidableEq, Repr

/-- The access kind of R85. -/
def OpKind.acc : OpKind → Nat
  | .store => 1
  | .atom => 2
  | .red => 3
  | _ => 0
/-- Whether an atomic has a PCIe AtomicOp form (R77, R435). -/
def atomForm (op : AtomOp) (ty : Ty) : Bool :=
  match op with
  | .add => ty == .i32 || ty == .n32
  | .exch | .cas => true
  | _ => false
/-- Whether the access of an operation has a form on HOST and PEER (R77). -/
def Op.form (o : Op) : Bool :=
  match o.kind with
  | .atom | .red => atomForm o.aop o.ty
  | _ => true
/-- The bytes of one lane's access; cache control acts on a line and needs no alignment (R444). -/
def GOp.width (g : GOp) : Nat :=
  match g.kind with
  | .cinv | .cflush | .pref => 1
  | _ => accWidth g.ty g.w64
/-- The operation of a global access. -/
def State.gop (s : State) (g : GOp) (es : List Elem) (vec : Bool) : Op :=
  { s.mkOp g.kind g.ty g.w64 g.ord es g.d vec with aop := g.aop, nf := g.nf }

/-! ### Scalar forms (R295, R423, R425, R426) -/

/-- A scalar access of a virtual address with its data and compare value: the checks, the translation, the waits, and the
issue (R70, R83, R263, R280, R295, R423, R426). -/
def State.memScalar (s : State) (g : GOp) (va : Nat) (data : Dword) (dpois : BitVec 2) (cmp : Dword) : State :=
  let (t, c) := s.cur
  let n := g.width
  let acc := g.kind.acc
  if va % n ≠ 0 then s.raise causeMisalign acc 0xF va
  else if !globalVa va then (if g.kind == .pref then s.retire 8 else s.raise causeAccess acc 0xF va)
  else if s.acqHeld || s.myTile.un.stalled then s
  else
    let o := s.gop g [] false
    match s.tileTranslate t c s.me.regs.pc.toNat va acc o.form with
    | .miss => s.askWalk t c va acc
    | .fault f => if g.kind == .pref then (s.dropXfault t f).retire 8 else s.memFault f
    | .ok lf p =>
      let e := { mkElem 0 va n (some p) data dpois with cls := lf.cls, page := lf.size, cmp := cmp }
      if s.held g.ord [e] || s.ctrFull g.kind then s
      else
        let (id, s) := s.issueOp { o with elems := [e] } 8
        s.launchOp id
/-- A scalar access through a base pair, which under LENIENT makes no access when it is poisoned: a load yields zero, a store
is dropped (R305). -/
def State.memBase (s : State) (g : GOp) (named : List Nat) (a : Nat) (uses : List (List Nat)) (va : Ctx → Dword)
    (data : Ctx → Dword × BitVec 2) (cmp : Ctx → Dword) : State :=
  s.guard .A (named ++ xr a) (xr a :: uses) fun s =>
    let k := s.me
    if k.psnAny (xr a) then
      (s.updMe fun k => k.deliver (s.gop g [{ mkElem 0 0 g.width none 0#64 0#2 with done := true, back := true }] false)).retire 8
    else s.memScalar g (va k).toNat (data k).1 (data k).2 (cmp k)
/-- An access at a displacement (R423). -/
def State.memDisp (s : State) (g : GOp) (named : List Nat) (a : Nat) (off : BitVec 16) (data : Ctx → Dword × BitVec 2) : State :=
  s.memBase g named a [] (fun k => k.rdx a + off.signExtend 64) data fun _ => 0#64
/-- No data. -/
def noData (_ : Ctx) : Dword × BitVec 2 := (0#64, 0#2)
/-- The data of a scalar store, which passes poison (R424). -/
def storeData (w64 : Bool) (d : Nat) (k : Ctx) : Dword × BitVec 2 :=
  if w64 then
    (k.rawx d, (if k.psnAny (sr d) then 1#2 else 0#2) ||| (if d != 63 && k.psn (d + 1) then 2#2 else 0#2))
  else ((k.raw d).setWidth 64, if k.psnAny (sr d) then 1#2 else 0#2)

/-- LD (R425). -/
def execLd (ty : Ty) (w64 : Bool) (o : MemOrd) (d a : Nat) (off : BitVec 16) (s : State) : Out :=
  .next (s.memDisp ⟨.load, .add, ty, w64, o, d, false⟩ (sxr w64 d) a off noData)
/-- ST (R425). -/
def execSt (ty : Ty) (w64 : Bool) (o : MemOrd) (d a : Nat) (off : BitVec 16) (s : State) : Out :=
  .next (s.memDisp ⟨.store, .add, ty, w64, o, d, false⟩ (sxr w64 d) a off (storeData w64 d))
/-- ATOM, with .nr as a reduction of its operation (R434, R435). -/
def execAtom (op : AtomOp) (nr : Bool) (ty : Ty) (w64 : Bool) (o : MemOrd) (d a b c : Nat) (s : State) : Out :=
  let dest := if nr then [] else sxr w64 d
  let cs := if op = .cas then sxr w64 c else []
  .next (s.memBase ⟨if nr then .red else .atom, op, ty, w64, o, d, false⟩ (dest ++ sxr w64 b ++ cs) a [sxr w64 b, cs]
    (fun k => k.rdx a) (fun k => (k.rdsx w64 b, 0#2)) fun k => if op = .cas then k.rdsx w64 c else 0#64)
/-- RED (R434, R436). -/
def execRed (op : AtomOp) (ty : Ty) (w64 : Bool) (o : MemOrd) (a b : Nat) (s : State) : Out :=
  .next (s.memBase ⟨.red, op, ty, w64, o, 0, false⟩ (sxr w64 b) a [sxr w64 b] (fun k => k.rdx a)
    (fun k => (k.rdsx w64 b, 0#2)) fun _ => 0#64)
/-- A cache-control instruction, relaxed (R444). -/
def State.cacheOp (s : State) (kind : OpKind) (a : Nat) (off : BitVec 16) : State :=
  s.memDisp ⟨kind, .add, .b32, false, ⟨0, 0⟩, 63, false⟩ [] a off noData
/-- CINV (R444). -/
def execCinv (a : Nat) (off : BitVec 16) (s : State) : Out := .next (s.cacheOp .cinv a off)
/-- CFLUSH (R444). -/
def execCflush (a : Nat) (off : BitVec 16) (s : State) : Out := .next (s.cacheOp .cflush a off)
/-- PREF (R444). -/
def execPref (a : Nat) (off : BitVec 16) (s : State) : Out := .next (s.cacheOp .pref a off)

/-! ### Vector forms (R295, R300, R423, R426, R428, R429, R434, R436) -/

/-- Lanes whose access has been performed, those that ride with another lane's contribution included (R299, R436). -/
def Op.doneMask (o : Op) : Word :=
  o.elems.foldl (fun w e =>
    if e.done && (e.n != 0 || o.elems.any fun f => f.va == e.va && f.n != 0 && f.done) then w ||| BitVec.twoPow 32 e.lane
    else w) 0#32
/-- An attached memory access faults (R300): its entry is FAULTED with the lanes performed, and the late trap follows. -/
def State.lateFaultAt (s : State) (o : Op) (seq : Nat) (f : FaultRec) (rows : Nat) : State :=
  let s := s.updCtx o.tile o.ctx fun k =>
    let e := k.entry seq
    { k with ring := fset k.ring (seq % 64) { e with state := .faulted, fault := some f, doneMask := o.doneMask, rows := rows } }
  s.pend .lateFault { tile := o.tile, ctx := o.ctx, seq := seq }
/-- The earliest FAULTED entry of a wave (R300, R316). -/
def Ctx.earliestFault (k : Ctx) : Option Entry :=
  let age := fun (e : Entry) => (k.dseq + 65536 - e.seq) % 65536
  (k.ring.filter fun p => p.2.state == .faulted).foldl (fun b p =>
    match b with
    | some e => if age e < age p.2 then some p.2 else some e
    | none => some p.2) none
/-- A wave takes the late trap of its earliest FAULTED entry, if it has one: MSC keeps an array entry's progress (R294, R300, R316,
R461). -/
def State.lateTrap (s : State) (t c : Nat) : State :=
  match (s.ctx t c).earliestFault with
  | none => s
  | some e =>
    match e.fault with
    | none => s
    | some f =>
      let s := s.updCtx t c fun k =>
        { k with frec := some f,
                 ctl := if e.unit == 2 then { k.ctl with msc := BitVec.ofNat 32 (2 ^ 31 + e.rows % 512) } else k.ctl }
      s.trap t c (if e.unit == 2 then causeLateMatrix else causeLateVector) f.acc f.kind f.va (some e.seq)
/-- Lanes that are not translated yet are translated, in lane order, as far as the tile's translation port takes them (R82, R83, R300,
R428); those that are go to their places. -/
def State.translateOp (s : State) (id : Nat) : State :=
  match s.op? id with
  | none => s
  | some o =>
    let acc := o.kind.acc
    let r := o.elems.foldl (fun (r : List Elem × Option FaultRec × State) e =>
      let (es, bad, s) := r
      if e.done || e.loc.isSome || (s.tile o.tile).un.stalled then (es ++ [e], bad, s)
      else
        match s.tileTranslate o.tile o.ctx o.pc.toNat e.va acc o.form with
        | .ok lf p => (es ++ [{ e with loc := some p, cls := lf.cls, page := lf.size }], bad, s)
        | .miss => (es ++ [e], bad, s.askWalk o.tile o.ctx e.va acc)
        | .fault f =>
          if o.nf then (es ++ [{ e with done := true, back := true, rpois := poisOf true e.n }], bad, s.dropXfault o.tile f)
          else (es ++ [e], bad.or (some f), s)) ([], none, s)
    let o := { o with elems := r.1 }
    let s := ((r.2.2.setOp id o).launchOp id).portNext o.tile o.ctx
    match r.2.1, o.seq, s.op? id with
    | some f, some q, some o => (s.dropXfault o.tile f).lateFaultAt o q f 0
    | _, _, _ => s
/-- Whether an operation still has lanes to translate and is not stopped by a fault. -/
def State.untranslated (s : State) (o : Op) : Bool :=
  o.elems.any (fun e => !e.done && e.loc.isNone) &&
  (match o.seq with
   | some q => ((s.ctx o.tile o.ctx).entry q).state == .issued
   | none => false)
/-- A tile's walks have returned: its waiting lanes translate again (R83). -/
def State.retranslate (s : State) (t : Nat) : State :=
  s.ops.foldl (fun s (p : Nat × Op) => if p.2.tile == t && s.untranslated p.2 then s.translateOp p.1 else s) s
/-- Elements of a reduction combined by word in increasing lane number (R436): the first lane of a word carries the sum, the
others ride with it. -/
def combineLanes (op : AtomOp) (ty : Ty) : List Elem → List Elem → List Elem
  | _, [] => []
  | seen, e :: es =>
    (if seen.any fun f => f.va == e.va then { e with done := true, back := true, n := 0 }
     else
       { e with data := BitVec.ofNat 64 ((es.filter fun f => f.va == e.va).foldl (fun n f => atomNew op ty 4 n f.data.toNat 0)
           e.data.toNat) }) ::
      combineLanes op ty (seen ++ [e]) es
/-- A vector memory instruction (R298, R423, R425, R426): checked at dispatch for every active lane, then attached; that of VREDM goes
through the group combiner first (R436). -/
def State.memVector (s : State) (g : GOp) (nm : Named) (m : MaskOp) (a : Nat) (idx : List Nat) (uses : Ctx → Nat)
    (va : Ctx → Nat → Nat) (elem : Ctx → Nat → Dword × BitVec 2 × Dword) (groups : Bool := false) : State :=
  if !(Class.W.allows s.cur.2 && s.namesOk nm) then s.illegal
  else if s.me.busyAny nm || s.me.ringBusy || s.acqHeld || s.myTile.un.stalled then s
  else
    s.useThen (uses s.me) fun s =>
      let k := s.me
      let n := g.width
      let acc := g.kind.acc
      let lanes := lanesOf (k.active m)
      let bad := fun l => k.psnAny (xr a) || idx.any fun r => (k.vreg r).bad l
      let live := lanes.filter fun l => !bad l
      match live.find? fun l => va k l % n != 0 with
      | some l => s.raise causeMisalign acc 0xF (va k l)
      | none =>
        match (if g.nf then none else live.find? fun l => !globalVa (va k l)) with
        | some l => s.raise causeAccess acc 0xF (va k l)
        | none =>
          let mk := fun l => let x := elem k l; { mkElem l (va k l) n none x.1 x.2.1 with cmp := x.2.2 }
          let es := live.map fun l =>
            if globalVa (va k l) then mk l else { mk l with done := true, back := true, rpois := poisOf true n }
          let es := if groups then combineLanes g.aop g.ty [] es else es
          let dead := (lanes.filter bad).map fun l => { mkElem l 0 n none 0#64 0#2 with done := true, back := true }
          if s.held g.ord es || s.ctrFull g.kind then s
          else
            let (id, s) := s.dispatchMem (s.gop g (es ++ dead) true) 1 true
            s.translateOp id
/-- The address of a lane of a displacement form (R423). -/
def Ctx.dispVa (k : Ctx) (a : Nat) (off : BitVec 16) (n lane : Nat) : Nat :=
  (k.rdx a + off.signExtend 64 + BitVec.ofNat 64 (lane * n)).toNat
/-- VLD (R425). -/
def execVld (ty : Ty) (w64 : Bool) (o : MemOrd) (m : MaskOp) (d a : Nat) (off : BitVec 16) (s : State) : Out :=
  .next (s.memVector ⟨.load, .add, ty, w64, o, d, false⟩ { s := xr a, v := vyr w64 d, m := [m.k] } m a []
    (fun k => k.poisonedUses [xr a]) (fun k l => k.dispVa a off (accWidth ty w64) l) fun _ _ => (0#64, 0#2, 0#64))
/-- VST (R425). -/
def execVst (ty : Ty) (w64 : Bool) (o : MemOrd) (m : MaskOp) (d a : Nat) (off : BitVec 16) (s : State) : Out :=
  .next (s.memVector ⟨.store, .add, ty, w64, o, d, false⟩ { s := xr a, v := vyr w64 d, m := [m.k] } m a []
    (fun k => k.poisonedUses [xr a]) (fun k l => k.dispVa a off (accWidth ty w64) l) fun k l =>
      ((k.laneData d w64 l).1, (k.laneData d w64 l).2, 0#64))
/-- Uses of an index form: the base and the index lanes. -/
def Ctx.idxUses (k : Ctx) (a : Nat) (vs : List Nat) (m : MaskOp) : Nat :=
  k.poisonedUses [xr a] + k.vecUses vs (k.active m)
/-- VGATHER (R428). -/
def execVgather (nf : Bool) (ty : Ty) (w64 : Bool) (sc : Nat) (o : MemOrd) (m : MaskOp) (d a b : Nat) (s : State) : Out :=
  .next (s.memVector ⟨.load, .add, ty, w64, o, d, nf⟩ { s := xr a, v := b :: vyr w64 d, m := [m.k] } m a [b]
    (fun k => k.idxUses a [b] m) (fun k l => k.laneVa a b sc l) fun _ _ => (0#64, 0#2, 0#64))
/-- VSCATTER (R429). -/
def execVscatter (ty : Ty) (w64 : Bool) (sc : Nat) (o : MemOrd) (m : MaskOp) (d a b : Nat) (s : State) : Out :=
  .next (s.memVector ⟨.store, .add, ty, w64, o, d, false⟩ { s := xr a, v := b :: vyr w64 d, m := [m.k] } m a [b]
    (fun k => k.idxUses a [b] m) (fun k l => k.laneVa a b sc l) fun k l =>
      ((k.laneData d w64 l).1, (k.laneData d w64 l).2, 0#64))
/-- VATOM: the compare value of .cas is the lane of v_d; with .nr it is a reduction of one contribution a lane, in lane order (R434, R435). -/
def execVatom (op : AtomOp) (nr : Bool) (ty : Ty) (sc : Nat) (o : MemOrd) (m : MaskOp) (d a b c : Nat) (s : State) : Out :=
  let dest := if nr then [] else [d]
  let cs := if op = .cas then [d] else []
  let g : GOp := ⟨.atom, op, ty, false, o, d, false⟩
  let nm : Named := { s := xr a, v := b :: c :: dest, m := [m.k] }
  let elem := fun (k : Ctx) l => ((k.ul c l).setWidth 64, 0#2, if op = .cas then (k.ul d l).setWidth 64 else 0#64)
  .next (if nr then
      s.memVector { g with kind := .red } nm m a [b] (fun k => k.idxUses a [b, c] m) (fun k l => k.laneVa a b sc l) elem
    else s.memVector g nm m a [b] (fun k => k.idxUses a (b :: c :: cs) m) (fun k l => k.laneVa a b sc l) elem)
/-- VREDM (R434, R436). -/
def execVredm (op : AtomOp) (ty : Ty) (sc : Nat) (o : MemOrd) (m : MaskOp) (a b c : Nat) (s : State) : Out :=
  .next (s.memVector ⟨.red, op, ty, false, o, 0, false⟩ { s := xr a, v := [b, c], m := [m.k] } m a [b]
    (fun k => k.idxUses a [b, c] m) (fun k l => k.laneVa a b sc l) (fun k l => ((k.ul c l).setWidth 64, 0#2, 0#64)) true)

end Sys2Proof.Machine
end

