-- ==== Sys2Proof/Machine/System.lean ====
section
/-! DEFINITION. System instructions, control registers, gangs and quota moves (R251 to R253, R274, R275, R362, R387 to R395). -/
namespace Sys2Proof.Machine

/-! ### NOP, YIELD, EXIT, BKPT, TRAP, SVC, UIRET (R387 to R391) -/

/-- NOP and its alias (R387). -/
def State.nopOp (s : State) (len : Nat) : State := s.guard .A [] [] fun s => s.retire len
/-- NOP (R387). -/
def execNop (s : State) : Out := .next (s.nopOp 4)
/-- NOP, the 16-bit alias (R362). -/
def execNop16 (s : State) : Out := .next (s.nopOp 2)
/-- YIELD (R387): a wave is passed over once; in a path thread it acts as NOP. -/
def State.yieldOp (s : State) (len : Nat) : State :=
  s.guard .A [] [] fun s =>
    (if isPath s.cur.2 then s else s.updMe fun k => { k with yielded := true }).retire len
/-- YIELD (R387). -/
def execYield (s : State) : Out := .next (s.yieldOp 4)
/-- YIELD, the 16-bit alias (R362). -/
def execYield16 (s : State) : Out := .next (s.yieldOp 2)
/-- The issuing context ends (R388 steps 2 to 5). -/
def State.endContext (s : State) : State :=
  let (t, c) := s.cur
  let k := s.me
  let s := s.releaseMutexes t c
  let s :=
    if isPath c then ((s.setMe Ctx.init).slotFreed t k.hdr.seg).returnCredit t k.hdr.opkg k.hdr.otile k.lidx
    else ((s.updTile t fun x => x.giveUpRegs c).setMe { Ctx.init with lidx := k.lidx }).regrant t
  s.pend .commitRequest { lidx := k.lidx }
/-- EXIT and its alias (R388): it waits until the six counters are zero, and until its attached instructions have completed. -/
def State.exitOp (s : State) : State :=
  s.guard .A [] [] fun s => if !(s.me.quiet && s.me.attachedDone) then s else s.endContext
/-- EXIT (R388). -/
def execExit (s : State) : Out := .next s.exitOp
/-- EXIT, the 16-bit alias (R362). -/
def execExit16 (s : State) : Out := .next s.exitOp
/-- BKPT (R389). -/
def State.bkptOp (s : State) : State := s.guard .A [] [] fun s => s.raise causeBkpt 0 0 s.me.regs.pc.toNat
/-- BKPT (R389). -/
def execBkpt (s : State) : Out := .next s.bkptOp
/-- BKPT, the 16-bit alias (R362). -/
def execBkpt16 (s : State) : Out := .next s.bkptOp
/-- TRAP: its code stays in the instruction (R389). -/
def execTrap (_code : Nat) (s : State) : Out := .next s.bkptOp
/-- SVC (R390): the supervisor finds the function number in the instruction. -/
def execSvc (fn : Nat) (s : State) : Out :=
  .next (s.guard .A [] [] fun s => (s.waitWith fn).raise causeSvc 0 0 s.me.regs.pc.toNat)
/-- A queued user interrupt may be taken at the next boundary (R272). -/
def State.offerUint (s : State) : State :=
  if s.me.uiq.isEmpty then s else s.pend .userInterrupt { tile := s.cur.1, ctx := s.cur.2 }
/-- UIRET and its alias (R391). -/
def State.uiretOp (s : State) : State :=
  s.guard .A [] [] fun s =>
    let u := s.me.ctl.uipc
    if u.getLsbD 63 then
      (s.updMe fun k =>
        { k with ctl := { k.ctl with uipc := u &&& ~~~BitVec.twoPow 64 63 } }.jump (u.setWidth 48)).offerUint
    else s.illegal
/-- UIRET (R391). -/
def execUiret (s : State) : Out := .next s.uiretOp
/-- UIRET, the 16-bit alias (R362). -/
def execUiret16 (s : State) : Out := .next s.uiretOp

/-! ### Control registers (R274, R275, R394, R395) -/

/-- The width of a control register in bits, or none for an unassigned number (R274). -/
def ctlWidth (n : Nat) : Option Nat :=
  if n = 0x006 ∨ n = 0x00A ∨ n = 0x010 ∨ n = 0x017 ∨ (0x100 ≤ n ∧ n ≤ 0x17F) then some 64
  else if n ≤ 0x01C then some 32 else none
/-- Whether a context may write a control register (R274): RW, and the system slot's own. -/
def ctlWritable (n c : Nat) : Bool :=
  [0x007, 0x008, 0x009, 0x00A, 0x014, 0x018, 0x01A, 0x01B].contains n || (c == sysCtx && (n == 0x019 || n == 0x01C))
/-- TSTAT's 64 bits; TXSTAT is their low word (R484). -/
def Launch.tstat (x : Launch) : Dword :=
  BitVec.ofNat 64 (x.att.attempts % 256 + x.sheltered.toNat * 2 ^ 10 + x.r.txn.toNat * 2 ^ 11 + x.att.reason % 16 * 2 ^ 12 +
    x.att.pcode % 2 ^ 16 * 2 ^ 16 + x.att.milestone % 2 ^ 16 * 2 ^ 32 + (if x.r.txn then x.vtag?.getD 0 else 0) * 2 ^ 48)
/-- DIEORIENT of a die (R11). -/
def State.dieorient (s : State) (d : Nat) : Nat := s.pkgOf d * 16 + d % 4 * 4 + d % 4
/-- The largest j such that a block of 2^j KiB lies aligned in the local area (R241, R242). -/
def Tile.lmax (x : Tile) : Nat :=
  let fits := fun j => x.locBase + 2 ^ (10 + j) ≤ 0x80000 &&
    (x.locBase + 2 ^ (10 + j) - 1) / 2 ^ (10 + j) * 2 ^ (10 + j) + 2 ^ (10 + j) ≤ 0x80000
  ((List.range 10).filter fits).getLastD 0
/-- SCRATCHCFG (R242). -/
def Tile.scratchcfg (x : Tile) : Nat :=
  x.lmax * 2 ^ 20 + (0x80000 - x.locBase) / 1024 * 2 ^ 10 + x.segU % 32 * 2 ^ 5 + x.inboxU % 4
/-- A word of the SEQRING window (R299): zero for path threads (R298). -/
def Ctx.ringWord (k : Ctx) (c i : Nat) : Dword :=
  if isPath c then 0#64
  else
    let e := fget k.ring (i / 2) Entry.init
    if i % 2 = 0 then BitVec.ofNat 64 (e.seq % 65536 * 2 ^ 48 + e.pc.toNat)
    else
      let st := match e.state with | .empty => 0 | .issued => 1 | .done => 2 | .faulted => 3
      BitVec.ofNat 64 (st * 2 ^ 62 + e.unit % 4 * 2 ^ 60 + e.doneMask.toNat)
/-- The value of a control register as CTLR returns it (R274, R299, R395). -/
def State.ctlVal (s : State) (n : Nat) : Dword :=
  let (t, c) := s.cur
  let k := s.me
  let x := s.myTile
  let y := x.sync
  let l := s.launch k.lidx
  let sh := x.share? k.lidx
  let w (n : Nat) : Dword := BitVec.ofNat 64 n
  if 0x100 ≤ n then k.ringWord c (n - 0x100)
  else
    match n with
    | 0x000 => w ((if isPath c then 0 else k.windex % 256 * 256) + c)
    | 0x001 => w (match k.gang with | some g => g % 64 | none => 0x40)
    | 0x002 => w (handleOf (k.lidx % 2 ^ 13))
    | 0x003 => w (s.pkgOf (dieOf t) % 256 * 1024 + t % 1024)
    | 0x004 => w (s.tilephys t)
    | 0x005 => w (s.dieorient (dieOf t))
    | 0x006 => w (s.cycle t)
    | 0x007 => k.ctl.fpmode.setWidth 64
    | 0x008 => k.ctl.fpstat.setWidth 64
    | 0x009 => k.ctl.wavectl.setWidth 64
    | 0x00A => k.ctl.uipc
    | 0x00B => k.ctl.xferid.setWidth 64
    | 0x00C => l.tstat &&& 0xFFFFFFFF#64
    | 0x00D => w (l.att.attempts % 256)
    | 0x00E => w (if isPath c then k.hdr.seq % 256 else 0)
    | 0x00F => k.ctl.trapcause.setWidth 64
    | 0x010 => k.ctl.trapaddr
    | 0x011 => k.ctl.trapseq.setWidth 64
    | 0x012 => w (sh.elim 0 (·.viol))
    | 0x013 => w l.att.drops
    | 0x014 => k.ctl.msc.setWidth 64
    | 0x015 => w (if isPath c then 0 else k.regs.q)
    | 0x016 => w (match k.gang with | some g => x.mx.accmap g | none => 0)
    | 0x017 => w k.inflight
    | 0x018 => k.ctl.rngseed.setWidth 64
    | 0x019 => (y.inForce s.tileCycle n (BitVec.ofNat 32 x.scratchcfg)).setWidth 64
    | 0x01A => (y.inForce s.tileCycle n y.mbarcfg).setWidth 64
    | 0x01B => (y.inForce s.tileCycle n y.mbtmo).setWidth 64
    | 0x01C => (y.inForce s.tileCycle n y.fetmo).setWidth 64
    | _ => 0#64
/-- Whether an access of a control register waits for earlier attached instructions (R338, R395, R461). -/
def Ctx.ctlWaits (k : Ctx) (n : Nat) (write : Bool) : Bool :=
  if n = 0x008 ∨ (n = 0x007 ∧ write) then !k.attachedDone
  else if n = 0x014 then k.ring.any fun e => e.2.unit == 2 && e.2.state == .issued
  else false
/-- The scalars that the register field names (R394), or none where it is illegal. -/
def ctlRegs (n r c : Nat) (write : Bool) : Option (List Nat) :=
  match ctlWidth n with
  | some 64 =>
    if r = 63 then some []
    else if r % 2 = 0 then (if r ≤ 60 then some [r, r + 1] else none)
    else if write && isPath c then none else some [r]
  | some _ => some (sr r)
  | none => none
/-- CTLR (R394). -/
def execCtlr (d n : Nat) (s : State) : Out :=
  .next (match ctlRegs n d s.cur.2 false with
    | none => s.illegal
    | some rs =>
      s.guard .A rs [] fun s =>
        if s.me.ctlWaits n false then s
        else
          let v := s.ctlVal n
          (s.updMe fun k => if rs.length = 2 then k.wrx d v else k.wr d (v.setWidth 32)).retire 4)

/-- The bits of a control register that a write changes (R274, R336, R337, R461). -/
def ctlMask (n : Nat) : Dword :=
  match n with
  | 0x007 => 0x1F#64
  | 0x008 => 0x3F#64
  | 0x009 => 0x1#64
  | 0x00A => 0x8000FFFFFFFFFFFF#64
  | 0x014 => 0x800001FF#64
  | 0x019 => 0x3E3#64
  | 0x01A => 0x8FFFFFFF#64
  | _ => 0xFFFFFFFF#64
/-- MBARCFG written (R259): the open phase's arrivals on the tile are discarded, and the contexts waiting in it take
MESHBAR_TIMEOUT; a phase that has completed keeps its waiters. -/
def State.writeMbarcfg (s : State) (t : Nat) (v : Word) : State :=
  let y := (s.tile t).sync
  let open_ := y.mbRelease.isNone
  let out := y.mbWait.filter fun w => !w.2.2
  let s := s.updSync t fun y =>
    { y with mbarcfg := v, mbWait := y.mbWait.filter (·.2.2), mbNext := [],
             mbArr := if open_ then [] else y.mbArr, mbDone := if open_ then false else y.mbDone }
  out.foldl (fun s w => s.failWait t w.1 causeMeshbar 0 0) s
/-- A write to a control register takes effect (R243, R266, R274, R327, R336, R395, R461). -/
def State.ctlWrite (s : State) (n : Nat) (v : Dword) : State :=
  let t := s.cur.1
  let w : Word := v.setWidth 32
  let ctl (f : Ctl → Ctl) : State := s.updMe fun k => { k with ctl := f k.ctl }
  match n with
  | 0x007 => ctl fun c => { c with fpmode := if 5 ≤ w.toNat % 8 then (w &&& ~~~7#32) ||| (c.fpmode &&& 7#32) else w }
  | 0x008 => ctl fun c => { c with fpstat := w }
  | 0x009 => (ctl fun c => { c with wavectl := w }).offerUint
  | 0x00A => (ctl fun c => { c with uipc := v }).offerUint
  | 0x014 =>
    s.updMe fun k =>
      let k' := { k with ctl := { k.ctl with msc := w } }
      let q := k.ctl.trapseq.toNat % 65536
      let e := k.entry q
      if w.getLsbD 31 && e.state == .faulted && e.unit == 2 && e.seq == q then
        { k' with ring := fset k'.ring (q % 64) { e with rows := w.toNat % 512 } }
      else k'
  | 0x018 => ctl fun c => { c with rngseed := if w = 0#32 then 1#32 else w }
  | 0x019 =>
    if w.toNat / 32 % 32 ≤ 24 then s.updTile t fun x => { x with inboxU := w.toNat % 4, segU := w.toNat / 32 % 32 } else s
  | 0x01A => s.writeMbarcfg t w
  | 0x01B => s.updSync t fun y => { y with mbtmo := w }
  | 0x01C => s.updSync t fun y => { y with fetmo := if w.toNat < 256 then 256#32 else w }
  | _ => s
/-- The control registers that belong to the tile (R274). -/
def tileRegs : List Nat := [0x019, 0x01A, 0x01B, 0x01C]
/-- A write of a control register as the pipelines make it: of two writes of one tile register in one tile cycle the wave's stands, and a read
in that cycle still gives the value before (R395).  MBARCFG takes effect at once (R259); so does SCRATCHCFG here, whose field is read by no
instruction of the cycle. -/
def State.ctlPut (s : State) (n : Nat) (old v : Dword) : State :=
  if !tileRegs.contains n then s.ctlWrite n v
  else
    let c := s.tileCycle
    let wave := !isPath s.cur.2
    if !wave && s.myTile.sync.ctlPend.any fun p => p.1 == c && p.2.1 == n && p.2.2.2 then s
    else
      (s.updSync s.cur.1 fun y =>
        { y with ctlPend := (y.ctlPend.filter fun p => p.1 == c) ++ [(c, n, old.setWidth 32, wave)] }).ctlWrite n v
/-- CTLW, CTLS and CTLC (R275, R394): the new value is g of the old value and the source, in the bits that are not reserved. -/
def State.ctlOp (s : State) (n a : Nat) (g : Dword → Dword → Dword) : State :=
  match (if ctlWritable n s.cur.2 then ctlRegs n a s.cur.2 true else none) with
  | none => s.illegal
  | some rs =>
    s.guard .A rs [rs] fun s =>
      if s.me.ctlWaits n true then s
      else
        let k := s.me
        let src := if rs.length = 2 then k.rdx a else (k.rd a).setWidth 64
        let old := s.ctlVal n
        (s.ctlPut n old ((old &&& ~~~ctlMask n) ||| (g old src &&& ctlMask n))).retire 4
/-- CTLW (R394). -/
def execCtlw (n a : Nat) (s : State) : Out := .next (s.ctlOp n a fun _ v => v)
/-- CTLS (R394). -/
def execCtls (n a : Nat) (s : State) : Out := .next (s.ctlOp n a fun r v => r ||| v)
/-- CTLC (R394). -/
def execCtlc (n a : Nat) (s : State) : Out := .next (s.ctlOp n a fun r v => r &&& ~~~v)

/-! ### Gangs (R251, R393) -/

/-- The wave completes a gang instruction with a status in s_d, poison 0 (R253, R393). -/
def State.status (s : State) (d n : Nat) : State := (s.updMe fun k => k.wr d (BitVec.ofNat 32 n)).retire 4
/-- GJOIN (R393). -/
def execGjoin (d n : Nat) (s : State) : Out :=
  .next (s.guard .W (sr d) [] fun s =>
    let (t, c) := s.cur
    let k := s.me
    let join (s : State) : State := (s.updMe fun k => { k with gang := some n }).status d 0
    if k.gang.isSome then s.status d 8
    else
      match s.myTile.gang? n with
      | some g =>
        if g.lidx != k.lidx then s.status d 7
        else if g.members.length = 32 then s.status d 6
        else join (s.updTile t fun x => x.updGang n fun g => { g with members := g.members ++ [c] })
      | none =>
        join (s.updMx t fun m =>
          { m with gangs := fset m.gangs n { lidx := k.lidx, members := [c], rank := s.cycle t * 64 + n, pool := [] } }))
/-- GLEAVE (R252, R393). -/
def execGleave (d : Nat) (s : State) : Out :=
  .next (s.guard .W (sr d) [] fun s =>
    let (t, c) := s.cur
    match s.me.gang with
    | none => s.status d 1
    | some g =>
      (((s.updTile t fun x => x.leaveGang g c).updMe fun k => { k with gang := none }).regrant t).status d 0)
/-- QGIVE (R253): the top block goes to the gang's pool, once no earlier instruction has yet to write it. -/
def execQgive (d j : Nat) (s : State) : Out :=
  .next (s.guard .W (sr d) [] fun s =>
    let (t, c) := s.cur
    let k := s.me
    let n := 2 ^ j
    match k.gang with
    | none => s.status d 1
    | some g =>
      match k.regs.blocks.getLast? with
      | none => s.status d 2
      | some (b, m) =>
        if m ≠ n then s.status d 2
        else if k.regs.q = 8 * n then s.status d 3
        else
          let q := k.regs.q - 8 * n
          if k.busyV.any fun r => q ≤ r.1 then s
          else
            let s := s.updTile t fun x => x.poolPut g b n (k.granules q n)
            let s := s.updCtx t c fun k =>
              { k with regs := { k.regs with q := q, blocks := k.regs.blocks.dropLast, v := k.regs.v.filter fun p => p.1 < q } }
            s.status d 0)
/-- The lowest aligned block of n granules that lies in a pool (R253). -/
def Gang.block (g : Gang) (n : Nat) : Option Nat :=
  ((List.range (1024 / n)).map (· * n)).find? fun b => rangeFree (fun i => (fget? g.pool i).isSome) b n
/-- The registers of a block in a pool, as a wave's registers from r up. -/
def Gang.take (g : Gang) (b n r : Nat) (v : FMap VReg) : FMap VReg :=
  (List.range n).foldl (fun v i =>
    (List.range 8).foldl (fun v j => fset v (r + 8 * i + j) (((fget g.pool (b + i) []).getD j VReg.zero))) v) v
/-- QTAKE (R253): a block of the pool becomes the top registers; the compactor makes one where the pool has none aligned. -/
def execQtake (d j : Nat) (s : State) : Out :=
  .next (s.guard .W (sr d) [] fun s =>
    let (t, c) := s.cur
    let k := s.me
    let n := 2 ^ j
    match k.gang with
    | none => s.status d 1
    | some g =>
      let x := s.myTile
      match x.gang? g with
      | none => s.status d 4
      | some y =>
        if 256 < k.regs.q + 8 * n then s.status d 5
        else if y.pool.length < n then s.status d 4
        else
          match y.block n with
          | none =>
            if x.un.compact.any fun r => r.2 == c then s
            else (s.updUn t fun u => { u with compact := u.compact ++ [(j, c)] }).pend .compactorMove { tile := t }
          | some b =>
            let s := s.updTile t fun x => x.poolTake g c b n
            let s := s.updCtx t c fun k =>
              { k with regs := { k.regs with q := k.regs.q + 8 * n, blocks := k.regs.blocks ++ [(b, n)],
                                             v := y.take b n k.regs.q k.regs.v } }
            s.status d 0)

end Sys2Proof.Machine
end

