-- ==== Sys2Proof/Machine/Sync.lean ====
section
/-! DEFINITION. Fences, named and mesh barriers, event lines, mutexes, counters, the start of copies, and stage queues: the
instructions, and the events that end their waits (R254 to R263, R268, R269, R279, R281, R438 to R443, R180 to R182). -/
namespace Sys2Proof.Machine

/-! ### Fences and counters (R279, R438, R441) -/

/-- FENCE (R438): scope wave waits for nothing; an acquire waits for earlier reads, a release for every earlier access and the
store acknowledgements; at pkg or sys a release is followed by the flushing read of R289. -/
def execFence (kind scope : Nat) (s : State) : Out :=
  .next (s.guard .A [] [] fun s =>
    let rel := kind = 2 ∨ kind = 3
    let acq := kind = 1 ∨ kind = 3
    if scope = 0 then s.retire 8
    else if rel && (s.myOps.any (fun p => !p.2.allDone) || s.me.counter .gst != 0) then s
    else if acq && s.myOps.any (fun p => p.2.kind.returns) then s
    else (if rel && 3 ≤ scope then s.flushPosted else s).retire 8)
/-- WAITC (R441): waits until the counter is at or below the threshold. -/
def execWaitc (c : Ctr) (a : Nat) (s : State) : Out :=
  .next (s.guard .A (sr a) [sr a] fun s => if s.me.counter c ≤ (s.me.rd a).toNat then s.retire 8 else s)

/-! ### Named barriers (R254, R439) -/

/-- How an arrival at a named barrier is taken. -/
inductive Arrived where
  | counted | queued | mismatch
  deriving DecidableEq, Repr

/-- An arrival of the issuing context with count n (R254). -/
def State.barArrive (s : State) (b n : Nat) : Arrived × State :=
  let (t, c) := s.cur
  let s := s.barSettle t b
  let k := s.me
  let x := fget (s.tile t).sync.bar b Barrier.init
  let put (s : State) (x : Barrier) : State := s.updSync t fun y => { y with bar := fset y.bar b x }
  let count (x : Barrier) : Arrived × State :=
    let s := (put s x).updMe fun k => { k with barPhase := fset k.barPhase b x.phase }
    (.counted, if x.n ≤ x.arrived.length then s.pend .barrierPhaseComplete { tile := t, id := b } else s)
  if n = 0 ∨ 224 < n then (.mismatch, s)
  else if !x.opened then count { x with opened := true, n := n, lidx := k.lidx, arrived := [c] }
  else if x.arrived.contains c && fget? k.barPhase b == some x.phase then
    (.queued, (put s { x with queued := x.queued ++ [(c, n, k.lidx)], overrun := true }).updMe fun k =>
      { k with barPhase := fdel k.barPhase b })
  else if x.lidx != k.lidx || x.n != n then (.mismatch, s)
  else count { x with arrived := x.arrived ++ [c] }
/-- BAR and BARA (R439, R281): the arrival, once the context's earlier accesses are performed; BAR waits for its phase, BARA
only while it is queued. -/
def State.barInstr (s : State) (b a : Nat) (waits : Bool) : State :=
  s.guard .A (sr a) [sr a] fun s =>
    if s.waited = 0 then
      if s.unreleased then s
      else
        match s.barArrive b (s.me.rd a).toNat with
        | (.mismatch, s) => s.raise causeBarMismatch 0 0 s.me.regs.pc.toNat
        | (.counted, s) => if waits then s.waitWith 1 else s.retire 8
        | (.queued, s) => s.waitWith 2
    else
      let s := s.barSettle s.cur.1 b
      if (fget? s.me.barPhase b).isSome && (!waits || s.barPassed s.cur.1 s.cur.2 b) then s.retire 8 else s
/-- BAR (R439). -/
def execBar (n a : Nat) (s : State) : Out := .next (s.barInstr n a true)
/-- BARA (R439). -/
def execBara (n a : Nat) (s : State) : Out := .next (s.barInstr n a false)
/-- BARW (R439). -/
def execBarw (n : Nat) (s : State) : Out :=
  .next (s.guard .A [] [] fun s =>
    let s := s.barSettle s.cur.1 n
    if s.barPassed s.cur.1 s.cur.2 n then s.retire 8 else s)
/-- BARRIER_PHASE_COMPLETE (R254): the barrier of a completed phase becomes IDLE or opens the next one. -/
def execBarrierPhaseComplete (s : State) : Out := .next (s.barSettle s.arg.tile s.arg.id)

/-! ### The mesh barrier (R259, R260, R261, R439) -/

/-- The rectangle of a MBARCFG: column, row, width and height. -/
def mbRect (w : Word) : Nat × Nat × Nat × Nat :=
  let n := w.toNat
  (bits n 4 0, bits n 9 5, bits n 14 10 + 1, bits n 19 15 + 1)
/-- Whether MBAR takes MESHBAR_TIMEOUT at once on a tile (R259). -/
def mbBad (w : Word) (t : Nat) : Bool :=
  let (x, y, wd, ht) := mbRect w
  !w.getLsbD 31 || bits w.toNat 27 20 == 0 || 32 < x + wd || 32 < y + ht ||
    !(decide (x ≤ tileX t) && tileX t < x + wd && decide (y ≤ tileY t) && tileY t < y + ht)
/-- The tiles of a rectangle that take part: those of dies that are not left out (R260). -/
def State.mbTiles (s : State) (w : Word) : List Nat :=
  let (x, y, wd, ht) := mbRect w
  (rectTiles x y wd ht).filter fun t => !s.tilesGone (dieOf t)
/-- Whether a tile has arrived in the open phase of a rectangle (R260). -/
def Sync.mbThere (y : Sync) (w : Word) : Bool :=
  y.mbarcfg.getLsbD 31 && mbRect y.mbarcfg == mbRect w && y.mbDone && y.mbRelease.isNone
/-- Ticks from the last arrival to the release: 36 tile cycles inside a die, 96 across dies (R260). -/
def mbDelay (w : Word) : Nat :=
  let (x, y, wd, ht) := mbRect w
  let ds := (rectTiles x y wd ht).map dieOf
  (if ds.all fun d => ds.head? == some d then 36 else 96) * tileTicks
/-- The phase of a tile's rectangle completes when every tile of it has arrived: each is released after the same delay
(R260). -/
def State.mbCheck (s : State) (t : Nat) : State :=
  let w := (s.tile t).sync.mbarcfg
  let ts := s.mbTiles w
  if mbBad w t || !ts.all fun u => (s.tile u).sync.mbThere w then s
  else
    ts.foldl (fun s u =>
      (s.updSync u fun y =>
        { y with mbRelease := some (s.now + mbDelay w),
                 mbWait := y.mbWait.map fun (e : Nat × Nat × Bool) => if y.mbArr.contains e.1 then (e.1, e.2.1, true) else e }).after
        (mbDelay w) .meshBarrierRelease { tile := u }) s
/-- A context counted for the open phase, or kept for the next one (R260). -/
def Sync.mbArrive (y : Sync) (c : Nat) : Sync :=
  if y.mbDone || y.mbArr.contains c then { y with mbNext := y.mbNext ++ [c] }
  else
    let arr := y.mbArr ++ [c]
    { y with mbArr := arr, mbDone := arr.length == bits y.mbarcfg.toNat 27 20 }
/-- A time-out armed for a context waiting in MBAR since a tick; 0 is no limit (R261). -/
def State.mbArm (s : State) (t c since : Nat) : State :=
  let n := s.mbtmo t
  if n = 0 then s else s.after (since + n * tileTicks - s.now) .meshbarTimeout { tile := t, ctx := c, val := since }
/-- MBAR (R259, R260, R439). -/
def execMbar (s : State) : Out :=
  .next (s.guard .A [] [] fun s =>
    let (t, c) := s.cur
    let y := s.myTile.sync
    if s.waited = 0 then
      if mbBad y.mbarcfg t then s.raise causeMeshbar 0 0 s.me.regs.pc.toNat
      else if s.unreleased then s
      else
        let s := s.flushPosted.updSync t fun y => { y.mbArrive c with mbWait := y.mbWait ++ [(c, s.now, false)] }
        ((s.waitWith 1).mbArm t c s.now).mbCheck t
    else if y.mbWait.any fun e => e.1 == c then s
    else s.retire 8)
/-- MESH_BARRIER_RELEASE (R260): the contexts of the completed phase resume, and the next phase begins with the arrivals kept
for it. -/
def execMeshBarrierRelease (s : State) : Out :=
  let t := s.arg.tile
  let y := (s.tile t).sync
  .next (match y.mbRelease with
    | none => s
    | some r =>
      if s.now < r then s
      else
        let kept := y.mbNext
        let y := { y with mbArr := [], mbNext := [], mbDone := false, mbRelease := none, mbWait := y.mbWait.filter fun e => !e.2.2 }
        let y := kept.foldl Sync.mbArrive y
        let s := s.updSync t fun _ => y
        let s := (y.mbWait.filter fun e => y.mbArr.contains e.1).foldl (fun s e => s.mbArm t e.1 e.2.1) s
        s.mbCheck t)
/-- MESHBAR_TIMEOUT (R261): in an open phase the tile withdraws, and every context waiting in MBAR there traps. -/
def execMeshbarTimeout (s : State) : Out :=
  let t := s.arg.tile
  let y := (s.tile t).sync
  .next (if y.mbRelease.isNone && y.mbArr.contains s.arg.ctx && y.mbWait.contains (s.arg.ctx, s.arg.val, false) then
      let s := s.updSync t fun y => { y with mbArr := [], mbNext := [], mbDone := false, mbWait := [] }
      y.mbWait.foldl (fun s e => s.failWait t e.1 causeMeshbar 0 0) s
    else s)

/-! ### Event lines and mutexes (R257, R258, R440) -/

/-- A line of a tile fires (R257): its waiters resume with the value, or it becomes PENDING. -/
def State.fireLine (s : State) (t e : Nat) (v : Word) : State :=
  let ws := (s.tile t).sync.waiters.filter fun w => w.1 == e
  let s := s.updSync t fun y =>
    { y with ev := fset y.ev e (ws.isEmpty, v), waiters := y.waiters.filter fun w => w.1 != e }
  ws.foldl (fun s w => s.answer t w.2 [v]) s
/-- EVSIG (R440). -/
def execEvsig (e a : Nat) (s : State) : Out :=
  .next (s.guard .A (sr a) [sr a] fun s =>
    ((s.fireLine s.cur.1 e (s.me.rd a)).updSync s.cur.1 fun y => { y with evLocal := fset y.evLocal e s.tileCycle }).retire 8)
/-- EVMSG (R440): a message that cannot be delivered is discarded. -/
def execEvmsg (e a b : Nat) (s : State) : Out :=
  .next (s.guard .A (sr a ++ sr b) [sr a, sr b] fun s =>
    if s.acqHeld then s
    else
      let k := s.me
      let dst := (k.rd b).toNat
      let t := s.cur.1
      if 2 ^ 18 ≤ dst then s.accessOp
      else
        ((s.sendTile t (dst / 1024) (dst % 1024) 4 1 k.lidx .eventMessage
          { tile := dst % 1024, line := e, val := (k.rd a).toNat }).getD s).retire 8)
/-- EVENT_MESSAGE (R257, R440): one that arrives in the tile cycle of an EVSIG of the same line counts as applied before it, so that the
signal's value stands. -/
def execEventMessage (s : State) : Out :=
  let a := s.arg
  let y := (s.tile a.tile).sync
  .next (if fget? y.evLocal a.line == some s.tileCycle then
      s.updSync a.tile fun y => { y with ev := fset y.ev a.line (true, (fget y.ev a.line (false, 0#32)).2) }
    else s.fireLine a.tile a.line (BitVec.ofNat 32 a.val))
/-- MUTEX_GRANT (R258): a free mutex goes to the oldest waiting load. -/
def execMutexGrant (s : State) : Out :=
  let t := s.arg.tile
  let m := s.arg.id
  let y := (s.tile t).sync
  .next (if (fget? y.mutex m).isSome then s
    else
      match y.waiters.find? fun w => w.1 == 64 + m with
      | none => s
      | some w =>
        (s.updSync t fun y => { y with mutex := fset y.mutex m w.2, waiters := y.waiters.erase w }).answer t w.2 [1#32])

/-! ### Copies (R268, R269, R442) -/

/-- A parameter block as a copy (R269), and whether a reserved field is non-zero or a field out of range. -/
def readBlock (n : Nat) : Copy × Bool :=
  let c : Copy :=
    { id := 0, ctx := 0, lidx := 0, pc := 0, src := bits n 63 0, dst := bits n 127 64, rowBytes := bits n 159 128,
      rows := bits n 191 160, spitch := bits n 223 192, dpitch := bits n 255 224, xfer := bits n 271 256,
      flags := bits n 279 272, lbuf := bits n 281 280, handler := bits n 383 320, cursor := 0, state := 0, bad := false,
      buf := [], op := none, onFault := none }
  let bad := bits n 279 277 != 0 || bits n 287 282 != 0 || bits n 319 288 != 0 || bits n 511 384 != 0 ||
    c.rowBytes < 4 || 2 ^ 20 < c.rowBytes || c.rowBytes % 4 != 0 || c.rows == 0 || 65535 < c.rows || c.spitch % 4 != 0 ||
    c.dpitch % 4 != 0 || (bitB c.flags 2 && (c.handler % 2 != 0 || 2 ^ 48 ≤ c.handler)) || c.src % 4 != 0 || c.dst % 4 != 0 ||
    (bitB c.flags 3 && (8 < c.rows || 2048 < c.rowBytes))
  (c, bad)
/-- Flags of a copy (R269). -/
def Copy.fe (c : Copy) : Bool := bitB c.flags 0
/-- CNT. -/
def Copy.cnt (c : Copy) : Bool := bitB c.flags 1
/-- IRQ. -/
def Copy.irq (c : Copy) : Bool := bitB c.flags 2
/-- LBUSE. -/
def Copy.lbuse (c : Copy) : Bool := bitB c.flags 3
/-- LBINV. -/
def Copy.lbinv (c : Copy) : Bool := bitB c.flags 4
/-- The addresses of the rows of one side of a copy. -/
def rowVas (base pitch rows : Nat) : List Nat := (List.range rows).map fun r => base + r * pitch
/-- Whether an address of a copy is bad: outside every window at or above the first, or above 48 bits (R269). -/
def State.copyAddrBad (s : State) (t va : Nat) : Bool :=
  !globalVa va && (match s.scrWin t va with | .own _ | .tile _ _ | .pkg _ _ _ => false | _ => true)
/-- Whether the rows of a side that lie in the issuing tile's scratch all pass R244. -/
def State.copyRowsOk (s : State) (t l : Nat) (sys : Bool) (vas : List Nat) (n : Nat) (write : Bool) : Bool :=
  vas.all fun va => match s.scrWin t va with
    | .own off => (s.tile t).allows l off n write sys
    | _ => true
/-- MBSTAT (R442). -/
def execMbstat (d : Nat) (s : State) : Out :=
  .next (s.scalar .A 8 (sr d) [] fun k =>
    let mb := s.myTile.un.mb
    let full := fun i => (fget? mb i).isSome
    let mine := fun i => match fget? mb i with | some c => c.ctx == s.cur.2 | none => false
    k.wr d (BitVec.ofNat 32 (((List.range 4).map fun i => (full i).toNat * 2 ^ i + (mine i).toNat * 2 ^ (4 + i)).sum)))
/-- MBW once its mailbox is EMPTY: the block is read, and the copy enters the mailbox QUEUED, or done at once when the block
is bad (R269, R442). -/
def State.startCopy (s : State) (n off : Nat) : State :=
  let (t, c) := s.cur
  let k := s.me
  let x := s.myTile
  let sys := c == sysCtx
  let inside := match x.share? k.lidx with
    | some h => decide (h.lbase ≤ off) && off + 64 ≤ h.lbase + h.lsize
    | none => false
  let (b, bad) := readBlock (if inside then s.scrRead t off 64 else 0)
  let bad := bad || !inside || s.copyAddrBad t b.src || s.copyAddrBad t b.dst ||
    !s.copyRowsOk t k.lidx sys (rowVas b.src b.spitch b.rows) b.rowBytes false ||
    !s.copyRowsOk t k.lidx sys (rowVas b.dst b.dpitch b.rows) b.rowBytes true
  if b.cnt && 63 ≤ k.counter .cpy then s
  else
    let (id, s) := s.fresh
    let cp := { b with id := id, ctx := c, lidx := k.lidx, pc := k.regs.pc, bad := bad, state := if bad then 4 else 0 }
    let s := if bad then s.violate t t c k.lidx k.regs.pc.toNat (0xFC0000000000 + off) false else s
    let s := (s.updUn t fun u => { u with mb := fset u.mb n cp }).updMe fun k => if b.cnt then k.raiseCtr .cpy id else k
    (s.retire 8).pend (if bad then .copyDone else .copyAdvance) { tile := t, id := id }
/-- MBW (R268, R442). -/
def execMbw (n a : Nat) (s : State) : Out :=
  .next (s.guard .A (xr a) [xr a] fun s =>
    let (t, _) := s.cur
    let k := s.me
    let va := (k.rdx a).toNat
    if k.psnAny (xr a) then s.retire 8
    else
      match s.scrWin t va with
      | .own off =>
        if va % 64 ≠ 0 then s.raise causeMisalign 0 0xF va
        else if s.unreleased || (fget? s.myTile.un.mb n).isSome then s
        else s.startCopy n off
      | _ => s.raise causeAccess 0 0xF va)

/-! ### Stage queues (R180, R181, R182, R443) -/

/-- The descriptor's address in pool GLOBAL (R152). -/
def stageAddr (n : Nat) : Nat := 0x1000 + 0x1000 * (n / 64) + 64 * (n % 64)
/-- The copy of a stage queue's descriptor, read afresh when the queue is idle (R180); a copy that no push or pop may use has
en false. -/
def State.stageCopy (s : State) (n : Nat) : StageQ × State :=
  let x := fget s.stageQs n StageQ.init
  if x.ptag != 0 || x.ctag != 0 || x.pushed != x.freed then (x, s)
  else
    match s.poolKey 0 0 (stageAddr n) with
    | none => (x, s)
    | some k =>
      let w := s.devRead k 40
      let e := bits w 4 1
      let d := bits w 8 5
      let ok := bitB w 0 && bits w 63 9 == 0 && bits w 319 120 == 0 && decide (1 ≤ d) && d ≤ 12 && 6 ≤ e && e ≤ 12 &&
        bits w 75 64 == 0
      let x := { x with en := ok, asid := bits w 119 112, base := bits w 111 64, dlog := d, elog := e }
      (x, { s with stageQs := fset s.stageQs n x })
/-- Entries between two free-running counters (R181). -/
def stageDiff (a b : Nat) : Nat := (a + 2 ^ 32 - b) % 2 ^ 32
/-- The slice that serves a stage queue: die-local logical tile 4n (R180). -/
def stageSlice (n : Nat) : Nat := tileAt (n / 64) (4 * (n % 64) % 16) (4 * (n % 64) / 16)
/-- What a QPOP that waits on a stage queue has noted by its PC. -/
def popWait (n : Nat) : Nat := 65536 + n
/-- Whether a launch waits in QPOP on a stage queue (R182). -/
def State.popWaits (s : State) (h n : Nat) : Bool :=
  s.tiles.any fun p => p.2.ctxs.any fun q =>
    q.2.status != .idle && handleOf q.2.lidx == h && fget? q.2.waitOn q.2.regs.pc.toNat == some (popWait n)
/-- The place of line i of an entry (R180); none where BASE has no DIRECT leaf. -/
def State.stageLoc (s : State) (n : Nat) (x : StageQ) (i idx : Nat) : Option Loc :=
  match s.translate (n / 64) x.asid (x.base + idx % 2 ^ x.dlog * 2 ^ x.elog + 64 * i) 1 false true with
  | .ok (l, p) => if l.cls == 1 then some p else none
  | .error _ => none
/-- How the data address of a push or pop answers. -/
inductive StageData where
  | ok (es : List Elem)
  | miss (va : Nat)
  | fault (f : FaultRec)
  | outside
  deriving DecidableEq, Repr
/-- The lines of the data of a push or pop (R443): own-tile scratch, or translated GLOBAL or DIRECT memory. -/
def State.stageData (s : State) (va n acc : Nat) : StageData :=
  let (t, c) := s.cur
  let pc := s.me.regs.pc.toNat
  match s.scrWin t va with
  | .own off => .ok ((List.range (n / 64)).map fun i => mkElem i (va + 64 * i) 64 (some (.scr t (off + 64 * i))) 0 0)
  | _ =>
    (List.range (n / 64)).foldl (fun (r : StageData) i =>
      match r with
      | .ok es =>
        let a := va + 64 * i
        if !globalVa a then .outside
        else
          match s.tileTranslate t c pc a acc true with
          | .miss => .miss a
          | .fault f => .fault f
          | .ok lf p =>
            if 2 ≤ lf.cls then .fault (s.faultRec t c pc a acc 3 lf.level false)
            else .ok (es ++ [{ mkElem i a 64 (some p) 0 0 with cls := lf.cls, page := lf.size }])
      | r => r) (.ok [])
/-- QPUSH and QPOP (R180, R182, R443): checked, then waiting or FULL, then one transfer to the queue's slice. -/
def State.stageInstr (s : State) (push : Bool) (d a b : Nat) : State :=
  s.guard .A (sr d ++ xr a ++ sr b) [xr a, sr b] fun s =>
    let (t, _) := s.cur
    let k := s.me
    let n := (k.rd b).toNat
    let tag := (s.launch k.lidx).tag + 1
    let acc := if push then 0 else 1
    let va := (k.rdx a).toNat
    let done (s : State) (v : Word) : State := (s.updMe fun k => k.wr d v).retire 8
    if s.waited = 1 then (match s.answered with | some ws => done s (ws.headD 0#32) | none => s)
    else if k.psnAny (xr a) then done s 0#32
    else if 256 ≤ n then s.accessOp
    else
      let (x, s) := s.stageCopy n
      let bound := if push then x.ptag else x.ctag
      if !x.en || (bound != 0 && bound != tag) then s.accessOp
      else if va % 64 ≠ 0 then s.raise causeMisalign acc 0xF va
      else
        match s.stageData va (2 ^ x.elog) acc with
        | .outside => s.raise causeAccess acc 0xF va
        | .miss a => s.askWalk t s.cur.2 a acc
        | .fault f => s.memFault f
        | .ok es =>
          let full := stageDiff x.pushed x.freed == 2 ^ x.dlog
          let ready := x.readyix != x.popped
          if s.unreleased then s
          else if push && full then
            if ready || (x.popped != x.freed && !s.popWaits x.cons n) then s else done s 1#32
          else if !push && !ready then s.waitWith (popWait n)
          else
            let o := s.mkOp (if push then .qpush else .qpop) .b32 false ⟨0, 0⟩ es d false
            let (id, s) := s.fresh
            ((s.setOp id { o with aux := [1] }).waitWith 1).send (.tile t) (.slice (stageSlice n)) 6 1 k.lidx
              .stageQueueTransfer { tile := stageSlice n, id := id, val := n }
/-- QPUSH (R443). -/
def execQpush (d a b : Nat) (s : State) : Out := .next (s.stageInstr true d a b)
/-- QPOP (R443). -/
def execQpop (d a b : Nat) (s : State) : Out := .next (s.stageInstr false d a b)
/-- QSTAT (R443). -/
def execQstat (d b : Nat) (s : State) : Out :=
  .next (s.guard .A (sr d ++ sr b) [sr b] fun s =>
    let n := (s.me.rd b).toNat
    if 256 ≤ n then s.accessOp
    else
      let (x, s) := s.stageCopy n
      if !x.en then s.accessOp
      else
        (s.updMe fun k => k.wr d (BitVec.ofNat 32 (stageDiff x.readyix x.popped % 2 ^ 16 +
          (2 ^ x.dlog - stageDiff x.pushed x.freed) * 2 ^ 16))).retire 8)
/-- A waiting push or pop issues again. -/
def State.stageAgain (s : State) (id : Nat) (o : Op) : State :=
  (s.delOp id).updCtx o.tile o.ctx fun k => { k with waitOn := fdel k.waitOn o.pc.toNat }
/-- A push or pop is answered. -/
def State.stageDone (s : State) (id : Nat) (o : Op) (v : Nat) : State :=
  (s.delOp id).updCtx o.tile o.ctx fun k => { k with answer := fset k.answer o.pc.toNat [BitVec.ofNat 32 v] }
/-- Whether R244 allows the scratch data of a push or pop; a refusal is one violation (R306). -/
def State.stageAllowed (s : State) (o : Op) (write : Bool) : Bool × State :=
  match o.elems with
  | e :: _ =>
    match e.loc with
    | some (.scr t off) =>
      if (s.tile t).allows o.lidx off (64 * o.elems.length) write (o.ctx == sysCtx) then (true, s)
      else (false, s.violate t o.tile o.ctx o.lidx o.pc.toNat e.va write)
    | _ => (true, s)
  | [] => (true, s)
/-- A line of scratch read with whether any of its words is poisoned. -/
def State.scrLine (s : State) (t off : Nat) : Nat × Bool :=
  (s.scrRead t off 64, (List.range 16).any fun i => s.scrPois t (off + 4 * i))
/-- Words written by an engine to scratch, each set FULL as it is written (R264). -/
def State.engineWords (s : State) (t off n v : Nat) (pois fe : Bool) : State :=
  (List.range (n / 4)).foldl (fun s i =>
    let s := s.scrWrite t (off + 4 * i) 4 (v / 2 ^ (32 * i) % 2 ^ 32) pois
    if fe then s.changeFull t (off + 4 * i) true else s) s
/-- Whether the lines of a transfer may be read and written now: those of the entry on the queue's die, and those of the data on the issuer's;
else the transfer waits for a line (R96, R165), for the sheltered launch's hold (R177) or for a shadow way (R154). -/
def State.stageReach (s : State) (n : Nat) (o : Op) (places : List (Option Loc)) (ev : Event) : Bool × State :=
  let push := o.kind == .qpush
  let dq := n / 64
  let dt := dieOf o.tile
  let data := o.elems.filterMap fun e => match e.loc with | some (.dev k a) => some (e.cls, Loc.dev k a) | _ => none
  let entry := places.flatMap fun p => match p with | some q => (placeLines q 64 push).map fun l => (dq, l) | none => []
  let mine := data.flatMap fun w => (s.unitLines o.lidx w.1 w.2 64 (!push)).map fun l => (dt, l)
  if push && data.any fun w => s.shelterHeld o.lidx w.1 (addrOf w.2) then (false, s.holdEvent ev)
  else
    let r := if push then (true, s)
      else data.foldl (fun (r : Bool × State) w => if r.1 then r.2.wayFor o.lidx w.1 w.2 ev else r) (true, s)
    if r.1 then r.2.linesOn (entry ++ mine) ev else r
/-- A line of a transfer written on a die; one that is not shadowed is tested at the die's slice (R162). -/
def State.stageTest (s : State) (d l cls : Nat) (p : Loc) : State :=
  match p, s.shTag l cls with
  | .dev _ a, none => s.testAt d a (some l)
  | _, _ => s
/-- STAGE_QUEUE_TRANSFER (R181, R443): the entry moves at the slice, and the instruction completes. -/
def execStageQueueTransfer (s : State) : Out :=
  let id := s.arg.id
  let n := s.arg.val
  .next (match s.op? id with
    | none => s
    | some o =>
      let x := fget s.stageQs n StageQ.init
      let h := handleOf o.lidx
      let txn := (s.launch o.lidx).r.txn
      let push := o.kind == .qpush
      let tag := (s.launch o.lidx).tag + 1
      let bound := if push then x.ptag else x.ctag
      let idx := if push then x.pushed else x.popped
      let places := o.elems.map fun e => s.stageLoc n x e.lane idx
      if !x.en || (bound != 0 && bound != tag) || places.any (·.isNone) then (s.delOp id).failWait o.tile o.ctx causeAccess 0 0xF
      else if (push && stageDiff x.pushed x.freed == 2 ^ x.dlog) || (!push && x.readyix == x.popped) then s.stageAgain id o
      else
        match s.stageReach n o places ⟨.stageQueueTransfer, s.arg⟩ with
        | (false, s) => s
        | (true, s) =>
          let (allowed, s) := s.stageAllowed o (!push)
          let s := (o.elems.zip places).foldl (fun s ep =>
            match ep.1.loc, ep.2 with
            | some p, some q =>
              if push then
                let (v, pois, s) := match p with
                  | .scr t off => if allowed then let r := s.scrLine t off; (r.1, r.2, s) else (0, true, s)
                  | p => s.loadAt o.tile o.lidx ep.1.cls p 64
                (s.agentWrite (n / 64) q 64 v pois).stageTest (n / 64) o.lidx 1 q
              else
                let (v, pois) := s.agentRead (n / 64) q 64
                match p with
                | .scr t off => if allowed then s.engineWords t off 64 v pois true else s
                | p => (s.storeAt o.tile o.lidx ep.1.cls ep.1.va p 64 v pois).stageTest (dieOf o.tile) o.lidx ep.1.cls p
            | _, _ => s) s
          if push then
            (s.updStage n fun x =>
              let x := { x with pushed := (x.pushed + 1) % 2 ^ 32, prod := h, ptag := tag }
              if txn then x else { x with readyix := x.pushed }).stageDone id o 0
          else
            (s.updStage n fun x =>
              let x := { x with popped := (x.popped + 1) % 2 ^ 32, cons := h, ctag := tag }
              if txn then x else { x with freed := x.popped }).stageDone id o idx)

end Sys2Proof.Machine
end

