-- ==== Sys2Proof/Machine/Replies.lean ====
section
/-! DEFINITION. What ends an operation: replies, acknowledgements, completions of attached instructions, time-outs, remote scratch
messages and the passes of the park table (R61, R71, R113, R114, R116, R264 to R267, R300, R308, R426, R430, R431). -/
namespace Sys2Proof.Machine

/-! ### Replies and completions (R61, R113, R114, R300, R426) -/

/-- A reply or an acknowledgement for an operation whose lanes have all been performed; one that comes after its time-out is
discarded (R61). -/
def State.replyEvent (s : State) (i : Instr) : State :=
  match s.op? s.arg.id with
  | some o =>
    let o := o.returned s.arg.lanes
    let s := s.setOp s.arg.id o
    if o.allBack then s.returnOp s.arg.id ⟨i, s.arg⟩ else s
  | none => s
/-- LOAD_REPLY (R426). -/
def execLoadReply (s : State) : Out := .next (s.replyEvent .loadReply)
/-- STORE_ACK (R113). -/
def execStoreAck (s : State) : Out := .next (s.replyEvent .storeAck)
/-- An event recorded in a die's COHLOG, if it holds none (R116). -/
def State.cohEvent (s : State) (d kind who addr : Nat) : State :=
  s.updBar0 d fun b =>
    if b.cohlog.getLsbD 63 then b
    else { b with cohlog := BitVec.ofNat 64 (2 ^ 63 + kind * 2 ^ 60 + who % 4 * 2 ^ 58 + addr % 2 ^ 52 / 64 * 64), cohT := some s.now }
/-- A lane of an atomic or reduction that has acted on a GLOBAL or DIRECT line, and whose answer has not come. -/
def Elem.acted (e : Elem) : Bool := e.done && !e.back && (match e.loc with | some (.dev ..) => true | _ => false)
/-- A lane that reports an error after its side effect (R114): inside a transaction on GLOBAL the launch aborts; else the issuing die records
the line. -/
def State.atomLane (s : State) (o : Op) (e : Elem) : State :=
  let a := match e.loc with | some p => addrOf p | none => 0
  if (s.shTag o.lidx e.cls).isSome then s.abortLaunch o.lidx 4 (a / 64 * 64) true o.tile
  else
    let d := dieOf o.tile
    (s.cohEvent d 2 d a).updBar0 d fun b => { b with atomerr := sat 0xFF (b.atomerr + 1) }
/-- An atomic or reduction whose reply is lost: each lane that has acted reports an error (R114). -/
def State.atomLost (s : State) (o : Op) : State := (o.elems.filter Elem.acted).foldl (fun s e => s.atomLane o e) s
/-- A request on VC7 that a context waits for is still on its way, or waits for its turn at a tile of this package (R217, R238). -/
def State.asked (s : State) (t tok : Nat) : Bool :=
  let mine := fun (e : Event) => e.arg.who == (t, tok) || (e.arg.tile == t && e.arg.ctx == tok)
  (s.msgs.any fun m => mine m.payload) || s.pending.any mine ||
  s.tiles.any fun p => p.2.trav.hitQ.contains (t, tok) || p.2.shares.any fun h => h.creditQ.contains (t, tok)
/-- RESPONSE_TIMEOUT (R61): the operation completes with an error status and a poisoned result.  One that still waits for a
translation or a page fault has sent no request, and one that is parked has a longer time-out: each waits on.  With ok it is that of a
request on VC7, which fails where it, or its answer, is lost. -/
def execResponseTimeout (s : State) : Out :=
  let id := s.arg.id
  .next (if s.arg.ok then
      if s.arg.val == s.pkgOf (dieOf s.arg.tile) && s.asked s.arg.tile s.arg.ctx then s.after plainTimeout .responseTimeout s.arg
      else if ((fget? (s.ctx s.arg.tile (s.arg.ctx % 256)).answer (s.arg.ctx / 256 % 2 ^ 48))).isSome then s
      else s.answer s.arg.tile s.arg.ctx [1#32]
    else match s.op? id with
    | none => s
    | some o =>
      if o.elems.any fun e => !e.done && e.loc.isNone then s.after plainTimeout .responseTimeout s.arg
      else
        let s := if o.kind == .atom || o.kind == .red then s.atomLost o else s
        match s.op? id with
        | none => s
        | some o =>
          let s := s.setOp id o.failed
          if o.kind.isCopy then s else s.returnOp id ⟨.storeAck, s.arg⟩)

/-! ### Remote scratch (R430, R431, R71) -/

/-- A request of another package as an operation here (R430): its requester, its number there, and its one lane. -/
def State.foreignOp (_ : State) (a : Arg) : Op :=
  let kind : OpKind := match a.cls with
    | 0 => .scrLoad | 1 => .scrStore | 2 => .syncLoad false | 3 => .syncLoad true | 4 => .syncStore | 5 => .feset false
    | 6 => .feset true | _ => .copyWrite
  { tile := foreignTile a.idx a.who.1, ctx := 0, lidx := a.lidx, pc := 0, seq := none, kind := kind, aop := .add, ty := .b32,
    w64 := a.width == 8, ord := ⟨0, 0⟩,
    elems := [{ mkElem a.who.2 a.off a.width (some (.scr a.tile a.off)) (BitVec.ofNat 64 a.val) (BitVec.ofNat 2 a.tok) with
                cmp := if a.cls == 7 then 1#64 else 0#64 }],
    dest := a.id, vec := false, err := false, nf := false, aux := [] }
/-- REMOTE_SCRATCH_REQUEST (R430, R431): the lanes for this tile are checked and performed in arrival order, or parked.  They come to the
scratch port at the end of the tile cycle, after the tile's own accesses of that cycle (R293). -/
def execRemoteScratchRequest (s : State) : Out :=
  let a := s.arg
  .next (if a.unit != 1 then s.after (tileTicks - s.now % tileTicks) .remoteScratchRequest { a with unit := 1 }
    else if a.req == 1 then
      let (id, s) := s.fresh
      (s.setOp id (s.foreignOp a)).scrServe id a.tile
    else s.scrServe a.id a.tile)
/-- A synchronising operation times out: its context takes SYNC_TIMEOUT (R266, R295). -/
def State.syncFail (s : State) (id : Nat) (o : Op) (e : Elem) : State :=
  let s := s.updCtx o.tile o.ctx fun k =>
    let k := (k.unbusy id).lower id
    let k := match o.seq with
      | some q => { k with ring := fset k.ring (q % 64) { k.entry q with state := .done } }
      | none => k
    { k with waitOn := fdel k.waitOn o.pc.toNat }
  (s.delOp id).trap o.tile o.ctx causeSyncTimeout o.kind.scrAcc 0xF e.va none
/-- Ticks after which a request that was answered RETRY is sent again (R265). -/
def resendTicks : Nat := 64 * tileTicks
/-- REMOTE_SCRATCH_REPLY (R430): data or a status; for another package's tile, one lane of it.  One that comes after its time-out is
discarded (R61). -/
def execRemoteScratchReply (s : State) : Out :=
  let a := s.arg
  .next (match s.op? a.id with
    | none => s
    | some o =>
      let lane := o.elems.find? fun e => if a.req == 1 then e.lane == a.off else !e.done
      if a.val == replyRetry then s.after resendTicks .parkRetryResend { a with tile := o.tile, ctx := o.ctx }
      else if a.val == replyTimeout then (match lane with | some e => s.syncFail a.id o e | none => s)
      else
        let o := match a.req, lane with
          | 1, some e => o.setElem { e with done := true, back := true, res := BitVec.ofNat 64 a.acc, rpois := BitVec.ofNat 2 a.tok }
          | _, _ => o.returned a.lanes
        let s := s.setOp a.id o
        if o.allBack && !o.kind.isCopy then s.returnOp a.id ⟨.remoteScratchReply, a⟩ else s)
/-- PARK_RETRY_RESEND (R265). -/
def execParkRetryResend (s : State) : Out :=
  let a := s.arg
  .next (match s.op? a.id with
    | none => s
    | some o =>
      if a.req == 1 then
        match (o.elems.find? fun e => e.lane == a.off).bind Elem.scr? with
        | some (u, _) => s.scrSendTo a.id o.tile u (some a.off)
        | none => s
      else s.scrSendTo a.id o.tile a.off none)

/-! ### The park table (R265, R266, R267) -/

/-- One pass over the entries of a word, oldest first (R265). -/
def State.parkRun (s : State) (t off : Nat) : State :=
  ((s.tile t).sync.parkedOn off).foldl (fun s p =>
    let out (s : State) : State := s.updSync t fun y => { y with park := y.park.filter fun q => q.id != p.id }
    match s.op? p.op with
    | none => out s
    | some o =>
      match o.elems.find? fun e => e.lane == p.lane with
      | none => out s
      | some e =>
        match s.scrAttempt o e t off true with
        | none => s
        | some (e, s) => (out s).scrElemDone p.op o e t) s
/-- Local accesses that waited for an entry of a full table take one (R265). -/
def State.parkTake (s : State) (t : Nat) : State :=
  s.ops.foldl (fun s (p : Nat × Op) =>
    if p.2.tile == t && p.2.kind.syncs && p.2.elems.any fun e => !e.done && !(s.tile t).sync.isParked p.1 e.lane then
      s.scrServe p.1 t
    else s) s
/-- PARK_PASS (R265). -/
def execParkPass (s : State) : Out := .next ((s.parkRun s.arg.tile s.arg.off).parkTake s.arg.tile)
/-- SYNC_TIMEOUT (R266, R267): an entry that can proceed by now is performed; else it is removed and its requester is told. -/
def execSyncTimeout (s : State) : Out :=
  let t := s.arg.tile
  .next (match (s.tile t).sync.park.find? fun p => p.id == s.arg.id with
    | none => s
    | some p =>
      let s := s.parkRun t p.off
      if !(s.tile t).sync.park.any fun q => q.id == p.id then s
      else
        let s := s.updSync t fun y => { y with park := y.park.filter fun q => q.id != p.id }
        match s.op? p.op with
        | none => s
        | some o =>
          if o.tile == t then
            match o.elems.find? fun e => e.lane == p.lane with
            | some e => (s.syncFail p.op o e).parkTake t
            | none => s
          else (s.scrAnswer p.op o t replyTimeout).parkTake t)
/-- LOCAL_BLOCK_ZERO (R245): the block of a launch that has ended is zeroed and EMPTY, and then free. -/
def execLocalBlockZero (s : State) : Out :=
  let t := s.arg.tile
  .next (match (s.tile t).shares.find? fun h => h.lidx == s.arg.lidx && h.ended with
    | none => s
    | some h =>
      let lo := scrKey t h.lbase
      let s := s.updMem fun m =>
        { m with scr := m.scr.clear lo h.lsize,
                 full := m.full.filter fun (p : Nat × Bool) => p.1 < lo / 4 || (lo + h.lsize) / 4 ≤ p.1,
                 spois := m.spois.filter fun (p : Nat × Bool) => p.1 < lo / 4 || (lo + h.lsize) / 4 ≤ p.1 }
      let s := s.updTile t fun x => { x with shares := x.shares.filter fun g => !(g.lidx == h.lidx && g.ended && g.lbase == h.lbase) }
      (if (s.tile t).scrset.isSome then s.pend .scrsetApply { tile := t } else s).redispatch)

end Sys2Proof.Machine
end

