-- ==== Sys2Proof/Machine/Copies.lean ====
section
/-! DEFINITION. The copy unit: one request of a copy at a time, its completion, its suspension and its replay, and the user-level
interrupts it queues (R204, R269 to R273). -/
namespace Sys2Proof.Machine

/-! ### Where a copy stands -/

/-- A copy of a tile by number, in its mailbox or suspended. -/
def Units.copy? (u : Units) (id : Nat) : Option Copy :=
  ((u.mb.map (·.2)) ++ u.susp).find? fun c => c.id == id
/-- A copy replaced. -/
def Units.putCopy (u : Units) (c : Copy) : Units :=
  { u with mb := u.mb.map fun p => if p.2.id == c.id then (p.1, c) else p, susp := u.susp.map fun d => if d.id == c.id then c else d }
/-- A copy removed: its mailbox is EMPTY. -/
def Units.dropCopy (u : Units) (id : Nat) : Units :=
  { u with mb := u.mb.filter fun p => p.2.id != id, susp := u.susp.filter fun c => c.id != id }
/-- Bytes of a copy. -/
def Copy.total (c : Copy) : Nat := c.rowBytes * c.rows
/-- The row in hand, the offset in it, and the bytes of the next request: at most 256, inside its row and its 4 KiB chunk
(R270). -/
def Copy.row (c : Copy) : Nat := c.cursor / c.rowBytes
/-- Offset in the row. -/
def Copy.off (c : Copy) : Nat := c.cursor % c.rowBytes
/-- Bytes of the next request. -/
def Copy.reqBytes (c : Copy) : Nat := min 256 (min (c.rowBytes - c.off) (4096 - c.cursor % 4096))
/-- Source address of the request in hand. -/
def Copy.srcVa (c : Copy) : Nat := c.src + c.row * c.spitch + c.off
/-- Destination address of the request in hand. -/
def Copy.dstVa (c : Copy) : Nat := c.dst + c.row * c.dpitch + c.off

/-! ### The words of a request (R269, R270, R305) -/

/-- How a side of a request can be reached. -/
inductive CopySide where
  /-- Words here: each one's class and place. -/
  | here (ws : List (Nat × Loc))
  /-- Scratch of another tile, or of another package, from an offset up. -/
  | there (t off : Nat)
  | miss (va : Nat)
  | fault (f : FaultRec)
  deriving DecidableEq, Repr
/-- The words from an address up, as a copy of an issuer reaches them (R269). -/
def State.copySide (s : State) (t : Nat) (c : Copy) (va n acc : Nat) : CopySide :=
  match s.scrWin t va with
  | .own off => .here ((List.range (n / 4)).map fun i => (0, .scr t (off + 4 * i)))
  | .tile u off => .there u off
  | .pkg g u off => .there (foreignTile g u) off
  | _ =>
    (List.range (n / 4)).foldl (fun (r : CopySide) i =>
      match r with
      | .here ws =>
        match s.translateFor c.lidx t c.ctx c.pc.toNat (va + 4 * i) acc true with
        | .miss => .miss (va + 4 * i)
        | .fault f => .fault f
        | .ok lf p => .here (ws ++ [(lf.cls, p)])
      | r => r) (.here [])
/-- The event in which a copy that waits on a line makes its request. -/
def Copy.event (c : Copy) (t : Nat) : Event :=
  ⟨if c.state == 3 then .copyReplay else .copyAdvance, { tile := t, id := c.id, ok := true }⟩
/-- Whether the words of a request may be read or written now; else the copy waits, for its tile's translation port (R83), for a line of the
die's slices (R96, R101, R165), for the sheltered launch's hold (R177) or for a shadow way (R154). -/
def State.copyReach (s : State) (t : Nat) (c : Copy) (ws : List (Nat × Loc)) (write : Bool) : Bool × State :=
  let ev := c.event t
  let live := ws.filter fun w => match w.2 with | .scr .. => false | p => !s.placeDead p
  let lines := (live.flatMap fun w => s.unitLines c.lidx w.1 w.2 4 write).eraseDups
  if !live.isEmpty && (s.tile t).un.stalled then (false, s)
  else if !write && live.any fun w => s.shelterHeld c.lidx w.1 (addrOf w.2) then (false, s)
  else
    let r := if write then
        live.foldl (fun (r : Bool × State) w => if r.1 then r.2.wayFor c.lidx w.1 w.2 ev else r) (true, s)
      else (true, s)
    if r.1 then r.2.linesFor (dieOf t) lines ev else r
/-- A word read by a copy; one behind a port that is not there is poisoned (R81, R270). -/
def State.copyReadWord (s : State) (t : Nat) (c : Copy) (w : Nat × Loc) : (Word × Bool) × State :=
  match w.2 with
  | .scr u off => ((BitVec.ofNat 32 (s.scrRead u off 4), s.scrPois u off), s)
  | p => if s.placeDead p then ((0#32, true), s) else let r := s.loadAt t c.lidx w.1 p 4; ((BitVec.ofNat 32 r.1, r.2.1), r.2.2)
/-- A write of a copy that failed is a use of poison by its issuer (R178, R270). -/
def State.copyWriteFailed (s : State) (c : Copy) : State := if s.lenient c.lidx then s.countPois c.lidx 1 else s.stick c.lidx
/-- A word written by a copy: scratch words are set FULL with FE (R272); one behind a port that is not there stays as it is (R81, R270);
a write to a device line that is not shadowed is tested at the die's slice (R162). -/
def State.copyWriteWord (s : State) (t : Nat) (c : Copy) (va : Nat) (w : Nat × Loc) (v : Word × Bool) : State :=
  match w.2 with
  | .scr u off =>
    let s := s.scrWrite u off 4 v.1.toNat v.2
    if c.fe then s.changeFull u off true else s
  | p =>
    if s.placeDead p then s.copyWriteFailed c
    else
      let s := s.storeAt t c.lidx w.1 va p 4 v.1.toNat v.2
      match p, s.shTag c.lidx w.1 with
      | .dev _ a, none => s.testAt (dieOf t) a (some c.lidx)
      | _, _ => s
/-- An operation of a copy on another tile's scratch (R269, R430). -/
def State.copyOp (s : State) (t : Nat) (c : Copy) (write : Bool) (va u off : Nat) (ws : List (Word × Bool)) : Nat × State :=
  let es := (List.range ws.length).map fun i =>
    let w := ws.getD i (0#32, false)
    { mkElem i (va + 4 * i) 4 (some (.scr u (off + 4 * i))) (w.1.setWidth 64) (if w.2 then 1#2 else 0#2) with
      cmp := if write && c.fe then 1#64 else 0#64 }
  let o : Op := { tile := t, ctx := c.ctx, lidx := c.lidx, pc := c.pc, seq := none, kind := if write then .copyWrite else .copyRead,
                  aop := .add, ty := .b32, w64 := false, ord := ⟨0, 0⟩, elems := es, dest := 63, vec := false,
                  err := false, nf := false, aux := [] }
  let (id, s) := s.fresh
  let s := (s.setOp id o).after plainTimeout .responseTimeout { tile := t, ctx := copyCtx, id := id }
  (id, s.scrSend id t)
/-- A row enters a line buffer in place of the least recently used one (R271). -/
def bufPut (rows : List LineRow) (r : LineRow) : List LineRow :=
  let rows := rows.filter fun q => !(q.src == r.src && q.len == r.len)
  (if 8 ≤ rows.length then rows.drop 1 else rows) ++ [r]

/-! ### One request (R270, R271, R273) -/

/-- How an issue cycle spent on a copy ends. -/
inductive CopyRes where
  | moved | waits | done
  | fault (f : FaultRec)
  deriving DecidableEq, Repr
/-- Words of a row read at once, for a line buffer or a request. -/
def State.copyRead (s : State) (t : Nat) (c : Copy) (va n : Nat) : Except CopyRes (List (Word × Bool)) × State :=
  match s.copySide t c va n 5 with
  | .here ws =>
    match s.copyReach t c ws false with
    | (false, s) => (.error .waits, s)
    | (true, s) =>
      let r := ws.foldl (fun (r : List (Word × Bool) × State) w =>
        let (v, s) := r.2.copyReadWord t c w
        (r.1 ++ [v], s)) ([], s)
      (.ok r.1, r.2)
  | .there u off =>
    let (id, s) := s.copyOp t c false va u off (List.replicate (n / 4) (0#32, false))
    (.error .waits, s.updUn t fun x => x.putCopy { c with op := some id })
  | .miss a => (.error .waits, s.askWalkFor (s.asidOf c.lidx) t a 5)
  | .fault f => (.error (.fault f), s)
/-- The words in hand written, and the cursor moved (R270). -/
def State.copyWrite (s : State) (t : Nat) (c : Copy) : CopyRes × State :=
  let n := 4 * c.buf.length
  match s.copySide t c c.dstVa n 6 with
  | .here ws =>
    match s.copyReach t c ws true with
    | (false, s) => (.waits, s)
    | (true, s) =>
      let s := s.wholeLines (dieOf t) c.lidx 4 (ws.filter fun w => !s.placeDead w.2)
      let s := (List.range ws.length).foldl (fun s i =>
        s.copyWriteWord t c (c.dstVa + 4 * i) (ws.getD i (0, .scr t 0)) (c.buf.getD i (0#32, false))) s
      let c := { c with cursor := c.cursor + n, buf := [] }
      (if c.total ≤ c.cursor then .done else .moved, s.updUn t fun x => x.putCopy c)
  | .there u off =>
    let (id, s) := s.copyOp t c true c.dstVa u off c.buf
    (.waits, s.updUn t fun x => x.putCopy { c with op := some id })
  | .miss a => (.waits, s.askWalkFor (s.asidOf c.lidx) t a 6)
  | .fault f => (.fault f, s)
/-- A remote operation of a copy has returned: a read that failed gives poisoned words; a write that failed counts as a use of
poison by the issuer (R270). -/
def State.copyBack (s : State) (t : Nat) (c : Copy) (id : Nat) (o : Op) : CopyRes × State :=
  let s := s.delOp id
  if o.kind == .copyWrite then
    let s := if o.err then s.copyWriteFailed c else s
    let c := { c with cursor := c.cursor + 4 * c.buf.length, buf := [], op := none }
    (if c.total ≤ c.cursor then .done else .moved, s.updUn t fun x => x.putCopy c)
  else
    let ws := o.elems.map fun e => (e.res.setWidth 32, e.rpois != 0#2)
    let c := { c with op := none }
    if c.lbuse then
      (.moved, s.updUn t fun x =>
        { x.putCopy c with lbufs := fset x.lbufs c.lbuf (bufPut (fget x.lbufs c.lbuf [])
            ⟨c.src + c.row * c.spitch, c.rowBytes, ws⟩) })
    else (.moved, s.updUn t fun x => x.putCopy { c with buf := ws })
/-- One issue cycle of a copy: it starts, reads the words of its next request, from its line buffer where LBUSE holds the row, or
writes them (R270, R271, R273). -/
def State.copyStep (s : State) (t : Nat) (c : Copy) : CopyRes × State :=
  match c.op with
  | some id =>
    match s.op? id with
    | some o => if o.allBack then s.copyBack t c id o else (.waits, s)
    | none => (.moved, s.updUn t fun x => x.putCopy { c with op := none })
  | none =>
    if !c.buf.isEmpty then s.copyWrite t c
    else if c.lbuse then
      let base := c.src + c.row * c.spitch
      match (fget (s.tile t).un.lbufs c.lbuf []).find? fun r => r.src == base && r.len == c.rowBytes with
      | some r =>
        let c := { c with buf := (r.words.drop (c.off / 4)).take (c.reqBytes / 4) }
        (.moved, s.updUn t fun x => { x.putCopy c with lbufs := fset x.lbufs c.lbuf (bufPut (fget x.lbufs c.lbuf []) r) })
      | none =>
        match s.copyRead t c base c.rowBytes with
        | (.error r, s) => (r, s)
        | (.ok ws, s) =>
          (.moved, s.updUn t fun x => { x with lbufs := fset x.lbufs c.lbuf (bufPut (fget x.lbufs c.lbuf []) ⟨base, c.rowBytes, ws⟩) })
    else
      match s.copyRead t c c.srcVa c.reqBytes with
      | (.error r, s) => (r, s)
      | (.ok ws, s) => (.moved, s.updUn t fun x => x.putCopy { c with buf := ws })
/-- A copy that the unit serves for the first time becomes ACTIVE, and LBINV empties its buffer (R271, R273). -/
def State.copyBegin (s : State) (t : Nat) (c : Copy) : Copy × State :=
  if c.state == 0 then
    let c := { c with state := 1 }
    (c, s.updUn t fun x =>
      { x.putCopy c with lbufs := if c.lbinv then fset x.lbufs c.lbuf [] else x.lbufs })
  else (c, s)
/-- What follows an issue cycle of a copy. -/
def State.copyNext (s : State) (t id : Nat) (again : Instr) (r : CopyRes) : State :=
  match r with
  | .done =>
    (s.updUn t fun x => match x.copy? id with | some c => x.putCopy { c with state := 4 } | none => x).pend .copyDone { tile := t, id := id }
  | .fault _ =>
    (s.updUn t fun x =>
      match x.copy? id with
      | some c => x.putCopy { c with state := if c.state == 3 then 6 else 5 }
      | none => x).pend .copySuspend { tile := t, id := id }
  | _ => s.after tileTicks again { tile := t, id := id }
/-- The mailbox that slot 31 serves next: the next one after the last that holds a copy to move (R204). -/
def Units.nextMb (u : Units) : Option (Nat × Copy) :=
  ([1, 2, 3, 4].map fun i => (u.mbLast + i) % 4).findSome? fun m =>
    (fget? u.mb m).bind fun c => if c.state ≤ 1 then some (m, c) else none
/-- A copy whose event a line is kept for makes its request, or one that waited for a shadow way asks again (R96, R154): the issue cycles of
its slot go on by themselves, so nothing follows but the end of the copy. -/
def State.copyResumed (s : State) (t id : Nat) : State :=
  match (s.tile t).un.copy? id with
  | none => s
  | some c =>
    if !(s.die (dieOf t)).slice.any fun p => p.2.kept == some (c.event t) then s
    else
      let (r, s) := s.copyStep t c
      match r with
      | .done | .fault _ => s.copyNext t c.id .copyAdvance r
      | _ => s
/-- COPY_ADVANCE (R270): one issue cycle of slot 31; with ok, a line that a copy waits on is kept for it. -/
def execCopyAdvance (s : State) : Out :=
  let t := s.arg.tile
  .next (if s.arg.ok then s.copyResumed t s.arg.id
    else
      match (s.tile t).un.nextMb with
      | none => s
      | some (m, c) =>
        let (c, s) := s.copyBegin t c
        let s := s.updUn t fun x => { x with mbLast := m }
        let (r, s) := s.copyStep t c
        s.copyNext t c.id .copyAdvance r)
/-- COPY_REPLAY (R273): one issue cycle of slot 30 for a copy whose fault was answered RETRY. -/
def execCopyReplay (s : State) : Out :=
  let t := s.arg.tile
  .next (if s.arg.ok then s.copyResumed t s.arg.id
    else
      match (s.tile t).un.susp.find? fun c => c.id == s.arg.id with
      | none => s
      | some c =>
        if c.state != 3 then s
        else
          let (r, s) := s.copyStep t c
          s.copyNext t c.id .copyReplay r)

/-! ### Suspension (R85, R86, R140, R273) -/

/-- The fault that stops a copy where it stands, if there is one. -/
def State.copyFault? (s : State) (t : Nat) (c : Copy) : Option FaultRec :=
  let r := if !c.buf.isEmpty then s.copySide t c c.dstVa (4 * c.buf.length) 6
    else if c.lbuse then s.copySide t c (c.src + c.row * c.spitch) c.rowBytes 5
    else s.copySide t c c.srcVa c.reqBytes 5
  match r with
  | .fault f => some f
  | _ => none
/-- Ticks after which an access that waits for space in a fault queue tries again (R140). -/
def faultRetryTicks : Nat := 64 * tileTicks
/-- COPY_SUSPEND (R273): the copy goes back to the start of its chunk and leaves its mailbox, and its fault is recorded; a class
fault, or one that cannot be recorded, discards it and aborts its launch. -/
def execCopySuspend (s : State) : Out :=
  let t := s.arg.tile
  .next (match (s.tile t).un.copy? s.arg.id with
    | none => s
    | some c =>
      if c.state != 5 && c.state != 6 then s
      else
      match s.copyFault? t c with
      | none =>
        (s.updUn t fun x => x.putCopy { c with state := if c.state == 6 then 3 else 1 }).after tileTicks
          (if c.state == 6 then .copyReplay else .copyAdvance) { tile := t, id := c.id }
      | some f =>
        match s.fileFault (s.launch c.lidx).queue f with
        | (.full, s) => s.after faultRetryTicks .copySuspend s.arg
        | (.dead, s) => ((s.updUn t fun x => x.dropCopy c.id).dropXfault t f).abortLaunch c.lidx 3 f.va false t
        | (.at q i, s) =>
          let s := s.dropXfault t f
          if f.kind == 3 then (s.updUn t fun x => x.dropCopy c.id).abortLaunch c.lidx 3 f.va false t
          else
            s.updUn t fun x =>
              let x := x.dropCopy c.id
              let c := { c with cursor := c.cursor / 4096 * 4096, state := 2, buf := [], op := none, onFault := some (q, i) }
              { x with susp := x.susp ++ [c] })

/-! ### Completion and user-level interrupts (R272) -/

/-- A context takes its oldest queued user interrupt (R272): XFERID, UIPC with VALID, and the handler. What it was waiting for on an
event line or a mutex it asks for again when it comes back. -/
def Ctx.takeUint (k : Ctx) (waited : Bool) : Ctx :=
  match k.uiq with
  | [] => k
  | u :: rest =>
    { k with uiq := rest, status := .ready, waitOn := if waited then fdel k.waitOn k.regs.pc.toNat else k.waitOn,
             ctl := { k.ctl with xferid := BitVec.ofNat 32 u.xfer, uipc := k.regs.pc.setWidth 64 ||| BitVec.twoPow 64 63 },
             regs := { k.regs with pc := u.handler } }
/-- Whether a context may take an interrupt now (R272). -/
def Ctx.uintReady (k : Ctx) : Bool :=
  (k.status == .ready || k.status == .waiting) && !k.uiq.isEmpty && !k.ctl.uipc.getLsbD 63 && !k.ctl.wavectl.getLsbD 0
/-- USER_INTERRUPT (R272). -/
def execUserInterrupt (s : State) : Out :=
  let (t, c) := (s.arg.tile, s.arg.ctx)
  .next (if !(s.ctx t c).uintReady then s
    else
      let y := (s.tile t).sync
      let waited := y.waiters.any fun w => w.2 == c
      let s := s.updSync t fun y => { y with waiters := y.waiters.filter fun w => w.2 != c }
      let s := s.updCtx t c (·.takeUint waited)
      let held := ((s.tile t).un.mb.map (·.2) ++ (s.tile t).un.susp).filter fun d => d.ctx == c && d.state == 4
      held.foldl (fun s d => s.pend .copyDone { tile := t, id := d.id }) s)
/-- A copy that is done completes as its flags select: while its issuer is trapped the completion is held, and while the issuer has
8 interrupts queued its mailbox stays FULL (R272, R308). -/
def State.finishCopy (s : State) (t id : Nat) : State :=
  match (s.tile t).un.copy? id with
  | none => s
  | some c =>
    let k := s.ctx t c.ctx
    let mine := c.ctx != noCtx && k.status != .idle && k.lidx == c.lidx
    if c.state != 4 then s
    else if mine && k.status == .trapped then
      s.updCtx t c.ctx fun k => { k with deferred := k.deferred ++ [⟨.copyDone, { tile := t, id := id }⟩] }
    else if mine && c.irq && 8 ≤ k.uiq.length then s
    else
      let s := s.updUn t fun x => x.dropCopy id
      if !mine then s
      else
        let s := if c.cnt then s.updCtx t c.ctx (·.lower id) else s
        if c.irq then
          (s.updCtx t c.ctx fun k =>
            { k with uiq := k.uiq ++ [⟨BitVec.ofNat 48 c.handler, c.xfer⟩] }).pend .userInterrupt { tile := t, ctx := c.ctx }
        else s
/-- COPY_DONE (R272). -/
def execCopyDone (s : State) : Out := .next (s.finishCopy s.arg.tile s.arg.id)

end Sys2Proof.Machine
end

