-- ==== Sys2Proof/Machine/Fetch.lean ====
section
/-! DEFINITION. Fetching the next instruction of a context (R340, R341). -/
namespace Sys2Proof.Machine

/-- How a fetch ends. -/
inductive Fetched where
  /-- The instruction's bytes as a number, the first lowest. -/
  | word (w : Nat)
  /-- The PC is odd (R340). -/
  | odd
  /-- A halfword lies outside the translated addresses (R70). -/
  | outside (va : Nat)
  | miss (va : Nat)
  /-- The instruction cache does not hold the line: its address, place and leaf (R2, R341). -/
  | cold (va : Nat) (p : Loc) (l : Leaf)
  | fault (f : FaultRec)
  deriving DecidableEq, Repr

/-- Whether a tile's instruction cache holds the line of a place: it has entered, and the answer has come (R2, R341). -/
def State.cached (s : State) (t : Nat) (p : Loc) : Bool :=
  (s.tile t).un.ic.contains (lineKeyOf p) &&
  !s.ops.any fun q => q.2.kind == .fetch && q.2.tile == t && q.2.elems.any fun e => e.loc.map lineKeyOf == some (lineKeyOf p)
/-- A line that the instruction cache does not hold is asked for, as a load of the line (R2, R91, R341). -/
def State.fetchLine (s : State) (t l va : Nat) (p : Loc) (lf : Leaf) : State :=
  if s.ops.any fun q => q.2.kind == .fetch && q.2.tile == t && q.2.elems.any fun e => e.loc.map lineKeyOf == some (lineKeyOf p) then s
  else
    let (id, s) := s.fresh
    let s := s.setOp id
      { tile := t, ctx := noCtx, lidx := l, pc := 0, seq := none, kind := .fetch, aop := .add, ty := .b32, w64 := false, ord := ⟨0, 0⟩,
        elems := [{ mkElem 0 va 2 (some p) 0 0 with cls := lf.cls, page := lf.size }], dest := 63, vec := false, err := false, nf := false,
        aux := [] }
    (s.after plainTimeout .responseTimeout { tile := t, ctx := noCtx, id := id }).launchOp id
/-- One halfword fetched with access kind 4 (R341): its value, or how it ends; that of a poisoned line is a free value. -/
def State.fetchHalf (s : State) (t c pc va : Nat) : Except Fetched Nat :=
  if !globalVa va then .error (.outside va)
  else match s.tileTranslate t c pc va 4 false with
    | .miss => .error (.miss va)
    | .fault f => .error (.fault f)
    | .ok l p =>
      if !s.cached t p then .error (.cold va p l)
      else
      let r := s.agentRead (dieOf t) p 2
      .ok (if r.2 then (Config.freeWord (2 ^ 64 * (va + 1) + s.free)).toNat % 2 ^ 16 else r.1)
/-- n halfwords from an address up, as one number. -/
def State.fetchHalves (s : State) (t c pc : Nat) : Nat → Nat → Except Fetched Nat
  | 0, _ => .ok 0
  | n + 1, va =>
    match s.fetchHalf t c pc va with
    | .error e => .error e
    | .ok lo =>
      match s.fetchHalves t c pc n (va + 2) with
      | .error e => .error e
      | .ok hi => .ok (lo + 2 ^ 16 * hi)
/-- The bytes of a body instruction at an address, from the repeat buffer (R456). -/
def Rep.word? (r : Rep) (pc : BitVec 48) : Option Nat :=
  if r.first ≤ pc && pc < r.stop then
    let w := r.code / 2 ^ (8 * (pc.toNat - r.first.toNat))
    some (w % 2 ^ (8 * lengthOf (w % 2 ^ 16)))
  else none
/-- The instruction at a context's PC (R340, R341): the first halfword gives the length, and every halfword is fetched before
the instruction is checked.  A body instruction of a running REP comes from the repeat buffer (R456). -/
def State.fetch (s : State) (t c : Nat) : Fetched :=
  let k := s.ctx t c
  let pc := k.regs.pc.toNat
  if pc % 2 == 1 then .odd
  else match k.rep.bind fun r => r.word? k.regs.pc with
  | some w => .word w
  | none =>
    match s.fetchHalf t c pc pc with
    | .error e => e
    | .ok h =>
      match s.fetchHalves t c pc (lengthOf h / 2 - 1) (pc + 2) with
      | .error e => e
      | .ok hi => .word (h + 2 ^ 16 * hi)

end Sys2Proof.Machine
end

