-- ==== Sys2Proof/Machine/Matrix.lean ====
section
/-! DEFINITION. The matrix array: ownership and accumulators, stream registers, transfer maps, the repeat buffer, and the attached
array instructions, dispatched into their queues and performed row by row (R204, R205, R447 to R466). -/
namespace Sys2Proof.Machine

/-! ### Transfer maps and patches (R454, R455) -/

/-- A transfer-map descriptor's fields (R454). -/
structure TMap where
  base : Nat
  ty : Ty
  edge : Nat
  walk1 : Bool
  ext : List Nat
  pitch : List Nat
  pcols : Nat
  prows : Nat
  deriving DecidableEq, Repr

/-- The fields of a descriptor, and whether it breaks a rule of R454. -/
def tmap (d : BitVec 512) : TMap × Bool :=
  let w := d.toNat
  let nd := bits w 74 72
  let ext := (List.range 5).map fun i => bits w (191 + 32 * i) (160 + 32 * i)
  let pitch := 0 :: (List.range 4).map fun i => bits w (351 + 32 * i) (320 + 32 * i)
  let m : TMap := { base := bits w 47 0, ty := Ty.ofCode (bits w 67 64), edge := bits w 79 78, walk1 := bitB w 77, ext := ext,
                    pitch := pitch, pcols := bits w 463 448, prows := bits w 479 464 }
  let bad := bits w 63 48 != 0 || bits w 71 68 != 0 || bits w 76 75 != 0 || bits w 159 80 != 0 || bits w 511 480 != 0 ||
    m.edge == 3 || 4 < nd || m.pcols == 0 || 256 < m.pcols || m.prows == 0 || 256 < m.prows || m.base % 4 != 0 ||
    m.pcols * m.ty.width % 32 != 0 ||
    (List.range 5).any fun i =>
      let n := ext.getD i 0
      let p := pitch.getD i 0
      if i ≤ nd then n == 0 || p % 4 != 0 else n != 0 || p != 0
  (m, bad)
/-- The extent of a dimension: those above NDIM act as 1. -/
def TMap.n (m : TMap) (i : Nat) : Nat := max 1 (m.ext.getD i 0)
/-- Patch-grid positions of a dimension (R455 step 2). -/
def TMap.g (m : TMap) (i : Nat) : Nat :=
  match i with
  | 0 => (m.n 0 + m.pcols - 1) / m.pcols
  | 1 => (m.n 1 + m.prows - 1) / m.prows
  | i => m.n i
/-- The grid coordinates of a patch index (R455 step 2). -/
def TMap.q (m : TMap) (pi : Nat) : List Nat :=
  let order := if m.walk1 then [1, 0, 2, 3, 4] else [0, 1, 2, 3, 4]
  let r := order.foldl (fun (r : FMap Nat × Nat) i => (fset r.1 i (r.2 % m.g i), r.2 / m.g i))
    ([], pi % ((order.map m.g).foldl (· * ·) 1))
  (List.range 5).map fun i => fget r.1 i 0
/-- A patch (R455 step 3): origin in dimensions 0 and 1, and what dimensions 2 to 4 add to BASE. -/
structure Patch where
  m : TMap
  c0 : Nat
  c1 : Nat
  off : Nat
  deriving DecidableEq, Repr
/-- The patch of an index. -/
def TMap.patch (m : TMap) (pi : Nat) : Patch :=
  let q := m.q pi
  { m := m, c0 := q.getD 0 0 * m.pcols, c1 := q.getD 1 0 * m.prows,
    off := ([2, 3, 4].map fun i => q.getD i 0 * m.pitch.getD i 0).sum }
/-- Where a patch element is read: at a bit address, or a value that no access makes. -/
inductive PElem where
  | at (bit : Nat)
  | zero
  | poison
  deriving DecidableEq, Repr
/-- The bit address of tensor element (i, j) of a patch's plane. -/
def Patch.bit (p : Patch) (i j : Nat) : Nat := 8 * (p.m.base + p.off + j * p.m.pitch.getD 1 0) + i * p.m.ty.width
/-- Whether a patch element lies inside the tensor (R455 step 4). -/
def Patch.inside (p : Patch) (j0 j1 : Nat) : Bool := p.c0 + j0 < p.m.n 0 && p.c1 + j1 < p.m.n 1
/-- A patch element as it is read, EDGE included (R455 step 4). -/
def Patch.elem (p : Patch) (j0 j1 : Nat) : PElem :=
  if p.inside j0 j1 then .at (p.bit (p.c0 + j0) (p.c1 + j1))
  else
    match p.m.edge with
    | 1 => .at (p.bit (min (p.c0 + j0) (p.m.n 0 - 1)) (min (p.c1 + j1) (p.m.n 1 - 1)))
    | 2 => .poison
    | _ => .zero
/-- The patch of a kept map. -/
def MWork.patch? (w : MWork) : Option Patch := w.map.map fun m => (tmap m.1).1.patch m.2
/-- The patch of a kept scale map. -/
def MWork.spatch? (w : MWork) : Option Patch := w.smap.map fun m => (tmap m.1).1.patch m.2

/-! ### Stream registers (R453) -/

/-- A stream register. -/
def Ctx.stream (k : Ctx) (i : Nat) : Stream := fget k.regs.st i ⟨0, 0, 0, 0⟩
/-- A stream register written. -/
def Ctx.putStream (k : Ctx) (i : Nat) (x : Stream) : Ctx := { k with regs := { k.regs with st := fset k.regs.st i x } }
/-- LIM. -/
def Stream.lim (x : Stream) : Nat := if x.limit = 0 then 2 ^ 32 else x.limit.toNat
/-- The address of row j from the current index, formed in 64 bits. -/
def Stream.row (x : Stream) (j : Nat) : Nat :=
  (((x.base.toNat : Int) + ((x.count.toNat + j) % x.lim : Nat) * x.stride.toInt) % (2 ^ 64 : Int)).toNat
/-- COUNT advanced. -/
def Stream.advance (x : Stream) (n : Nat) : Stream := { x with count := BitVec.ofNat 32 ((x.count.toNat + n) % x.lim) }
/-- COUNT of a stream register advanced. -/
def Ctx.advance (k : Ctx) (i n : Nat) : Ctx := k.putStream i ((k.stream i).advance n)
/-- STSET (R453). -/
def execStset (d a b c : Nat) (s : State) : Out :=
  .next (s.scalar .W 8 (xr a ++ sr b ++ sr c) [xr a, sr b, sr c] fun k =>
    k.putStream d ⟨(k.rdx a).setWidth 48, k.rd b, k.rd c, 0⟩)
/-- STADV (R453). -/
def execStadv (d a : Nat) (s : State) : Out :=
  .next (s.scalar .W 8 (sr a) [sr a] fun k => k.advance d (k.rd a).toNat)

/-! ### The repeat buffer (R456) -/

/-- Whether an instruction may stand in a body, by its bytes. -/
def bodyOk (w : Nat) : Bool :=
  if w % 2 == 0 then let op := bits w 5 1; 1 ≤ op && op ≤ 24
  else if w % 4 == 1 then let m := bits w 7 2; 1 ≤ m && m ≤ 0x11
  else
    let op := bits w 9 2
    (0xA4 ≤ op && op ≤ 0xAF && op != 0xA8) || (0x10 ≤ op && op ≤ 0x4D) || op == 0xF0 || op == 0x7E
/-- The bytes of n instructions from an address up, and the address past them. -/
def State.fetchBody (s : State) (t c pc : Nat) : Nat → Nat → Except Fetched (Nat × Nat × Bool)
  | 0, va => .ok (0, va, true)
  | n + 1, va =>
    match s.fetchHalf t c pc va with
    | .error e => .error e
    | .ok h =>
      let len := lengthOf h
      match s.fetchHalves t c pc (len / 2) va with
      | .error e => .error e
      | .ok w =>
        if va / 4096 != pc / 4096 || (va + len - 1) / 4096 != pc / 4096 || !bodyOk w then .ok (0, va, false)
        else
          match s.fetchBody t c pc n (va + len) with
          | .error e => .error e
          | .ok (code, stop, ok) => .ok (w + code * 2 ^ (8 * len), stop, ok)
/-- REP (R456): the body is copied and checked; a count of zero skips it. -/
def execRep (a len : Nat) (s : State) : Out :=
  let (t, c) := s.cur
  let pc := s.me.regs.pc.toNat
  .next (if !(Class.W.allows c) then s.illegal
    else if (pc + 8) / 4096 != pc / 4096 then s.illegal
    else
      match s.fetchBody t c pc len (pc + 8) with
      | .error (.miss va) => s.askWalk t c va 4
      | .error (.fault f) => s.memFault f
      | .error _ => s.illegal
      | .ok (code, stop, ok) =>
        if !ok then s.illegal
        else
          s.guard .W (sr a) [sr a] fun s =>
            let n := (s.me.rd a).toNat
            let stop := BitVec.ofNat 48 stop
            s.updMe fun k =>
              if n = 0 then k.jump stop
              else { k.retire 8 with rep := some ⟨BitVec.ofNat 48 (pc + 8), stop, n, code⟩ })

/-! ### Ownership and accumulators (R204, R205, R451, R452) -/

/-- A status in s_d, poison 0. -/
def State.status8 (s : State) (d n : Nat) : State := (s.updMe fun k => k.wr d (BitVec.ofNat 32 n)).retire 8
/-- An array instruction of the queues, with its entry. -/
def Tile.queued (x : Tile) (q : List (Nat × Nat)) : List (Nat × MWork) :=
  q.filterMap fun p =>
    let e := (x.ctx p.1).entry p.2
    if e.seq == p.2 then (match e.work with | .matrix w => some (p.1, w) | _ => none) else none
/-- Every queued instruction of the array's three queues. -/
def Tile.queuedAll (x : Tile) : List (Nat × MWork) := x.queued x.mx.loadQ ++ x.queued x.mx.compQ ++ x.queued x.mx.drainQ
/-- An instruction of the array itself, as MREL waits for it (R452, R466). -/
def MKind.ofArray : MKind → Bool
  | .mlds | .mflip | .mstream _ => true
  | _ => false
/-- Whether a queued instruction names an accumulator tile. -/
def MWork.names (w : MWork) (a : Nat) : Bool :=
  match w.kind with
  | .acczero | .mstream _ | .mdrain _ => w.acc == a
  | _ => false
/-- MACQ (R204, R452). -/
def execMacq (d : Nat) (s : State) : Out :=
  .next (s.guard .W (sr d) [] fun s =>
    let (t, c) := s.cur
    match s.me.gang with
    | none => s.status8 d 1
    | some g =>
      if s.myTile.mx.owner == some g then s.status8 d 0
      else if s.waited = 1 then s
      else ((s.updMx t fun m => { m with macq := m.macq ++ [(g, c)] }).waitWith 1).regrant t)
/-- MREL (R452). -/
def execMrel (d : Nat) (s : State) : Out :=
  .next (s.guard .W (sr d) [] fun s =>
    let t := s.cur.1
    match s.me.gang with
    | none => s.status8 d 1
    | some g =>
      if s.myTile.mx.owner != some g then s.status8 d 3
      else if s.myTile.queuedAll.any fun p => p.2.kind.ofArray then s
      else ((s.updMx t fun m => { m with owner := none }).regrant t).status8 d 0)
/-- ARRAY_GRANT (R204, R447): the next gang owns the array, with both planes NONE. -/
def execArrayGrant (s : State) : Out :=
  let t := s.arg.tile
  .next (s.updMx t fun m =>
    match m.owner, m.macq with
    | none, (g, _) :: _ =>
      { m with owner := some g, macq := m.macq.filter fun p => p.1 != g, active := .none, shadow := .none }
    | _, _ => m)
/-- Accumulator tiles held by a gang. -/
def Matrix.held (m : Matrix) (g : Nat) : Nat := (m.accOwner.filter fun p => p.2 == g).length
/-- Free tiles of a launch's reservation on a tile (R205). -/
def Tile.accFree (x : Tile) (l : Nat) : Nat :=
  ((x.share? l).elim 0 (·.acc)) - (x.mx.accOwner.filter fun p => (x.mx.gangsOf l).contains p.2).length
/-- An accumulator tile set to +0. -/
def Matrix.zeroAcc (m : Matrix) (a : Nat) : Matrix := { m with acc := m.acc.filter fun p => p.1 / 2048 != a }
/-- The lowest-numbered free tiles of the store. -/
def Matrix.lowest (m : Matrix) (n : Nat) : List Nat :=
  ((List.range 16).filter fun a => (fget? m.accOwner a).isNone).take n
/-- Tiles granted to a gang: all +0 (R447). -/
def Matrix.grant (m : Matrix) (g : Nat) (ts : List Nat) : Matrix :=
  ts.foldl (fun m a => { m.zeroAcc a with accOwner := fset m.accOwner a g }) m
/-- The launch of a gang of a tile. -/
def Matrix.gangLaunch (m : Matrix) (g : Nat) : Option Nat := (fget? m.gangs g).map (·.lidx)
/-- Waiting requests that their launch's reservation can meet are granted in arrival order (R205). -/
def State.accServe (s : State) (t : Nat) : State :=
  (s.tile t).mx.accQ.foldl (fun s r =>
    let (c, g, n, _) := r
    let x := s.tile t
    let l := x.mx.gangLaunch g
    let first := (x.mx.accQ.find? fun q => x.mx.gangLaunch q.2.1 == l) == some r
    if first && n ≤ x.accFree (l.getD 0) then
      let ts := x.mx.lowest n
      let s := s.updMx t fun m => { m.grant g ts with accQ := m.accQ.erase r }
      s.answer t c [BitVec.ofNat 32 (ts.map (2 ^ ·)).sum]
    else s) s
/-- A failed ACCALLOC's result: bit 31 and the reason (R452). -/
def accFail (reason : Nat) : Word := BitVec.ofNat 32 (2 ^ 31 + reason)
/-- Among gangs of one launch that hold tiles and wait, all but the one formed first fail (R205). -/
def State.accYield (s : State) (t : Nat) : State :=
  let m := (s.tile t).mx
  let holding := m.accQ.filter fun r => 0 < m.held r.2.1
  let rank := fun (g : Nat) => (fget? m.gangs g).elim 0 (·.rank)
  let lose := holding.filter fun r => holding.any fun q =>
    q.2.1 != r.2.1 && m.gangLaunch q.2.1 == m.gangLaunch r.2.1 && rank q.2.1 < rank r.2.1
  let s := s.updMx t fun m => { m with accQ := m.accQ.filter fun r => !lose.contains r }
  lose.foldl (fun s r => s.answer t r.1 [accFail 3]) s
/-- ACCWAIT in ticks (R205). -/
def accwaitTicks : Nat := 4096 * tileTicks
/-- ACCALLOC (R205, R452). -/
def execAccalloc (d n : Nat) (s : State) : Out :=
  .next (s.guard .W (sr d) [] fun s =>
    let (t, c) := s.cur
    let k := s.me
    let done (s : State) (w : Word) : State := (s.updMe fun k => k.wr d w).retire 8
    match k.gang with
    | none => done s (accFail 1)
    | some g =>
      let s :=
        if s.waited = 1 then s
        else if (s.myTile.share? k.lidx).elim 0 (·.acc) < s.myTile.mx.held g + n then
          (s.waitWith 1).answer t c [accFail 2]
        else
          let s := s.updMx t fun m => { m with accQ := m.accQ ++ [(c, g, n, s.now)] }
          (s.waitWith 1).after accwaitTicks .accwaitTimeout { tile := t, ctx := c, val := s.now }
      let s := (s.accServe t).accYield t
      match s.answered with
      | some ws => done s (ws.headD 0#32)
      | none => s)
/-- ACCWAIT_TIMEOUT (R205). -/
def execAccwaitTimeout (s : State) : Out :=
  let (t, c) := (s.arg.tile, s.arg.ctx)
  let mine := fun (r : Nat × Nat × Nat × Nat) => r.1 == c && r.2.2.2 == s.arg.val
  .next (if (s.tile t).mx.accQ.any mine then
      (s.updMx t fun m => { m with accQ := m.accQ.filter fun r => !mine r }).answer t c [accFail 4]
    else s)
/-- ACCFREE (R452): it waits out the hazards of R450 on the tiles. -/
def execAccfree (a : Nat) (s : State) : Out :=
  .next (match s.me.gang with
    | none => s.illegal
    | some g =>
      s.guard .W (sr a) [sr a] fun s =>
        let t := s.cur.1
        let x := s.myTile
        let ts := (List.range 16).filter fun i => (s.me.rd a).getLsbD i && fget? x.mx.accOwner i == some g
        if x.queuedAll.any fun p => ts.any p.2.names then s
        else
          (s.updMx t fun m =>
            ts.foldl (fun m i => { m.zeroAcc i with accOwner := fdel m.accOwner i }) m).retire 8)

/-! ### Dispatch (R450, R451, R458) -/

/-- The queues of R450; TMLD takes none. -/
inductive MQueue where
  | load | comp | drain | path
  deriving DecidableEq, Repr
/-- The queue of an instruction. -/
def MKind.queue : MKind → MQueue
  | .tmld => .path
  | .mlds => .load
  | .mdrain _ => .drain
  | _ => .comp
/-- A queue's entries. -/
def Matrix.q (m : Matrix) : MQueue → List (Nat × Nat)
  | .load => m.loadQ
  | .comp => m.compQ
  | .drain => m.drainQ
  | .path => []
/-- A queue's entries changed. -/
def Matrix.setQ (m : Matrix) (q : MQueue) (l : List (Nat × Nat)) : Matrix :=
  match q with
  | .load => { m with loadQ := l }
  | .comp => { m with compQ := l }
  | .drain => { m with drainQ := l }
  | .path => m
/-- The depth of a queue. -/
def MQueue.depth : MQueue → Nat
  | .load => 2
  | .comp => 8
  | .drain => 4
  | .path => 64
/-- Whether a TMLD has yet to write a transfer-map register. -/
def Ctx.tmBusy (k : Ctx) (is : List Nat) : Bool :=
  k.ring.any fun e => (e.2.state == .issued || e.2.state == .faulted) &&
    (match e.2.work with
     | .matrix w => w.kind == .tmld && is.contains w.acc
     | _ => false)
/-- A transfer-map register. -/
def Ctx.tm (k : Ctx) (i : Nat) : BitVec 512 := fget k.regs.tm i 0#512
/-- The type, block code and scale format that a plane's tag will have once what is queued has executed. -/
def Tile.activeTag (x : Tile) : Option (Ty × Nat × Bool) :=
  let tag := fun (p : Plane) => p.ty.map fun t => (t, p.blk, p.se)
  let ws := (x.queued x.mx.loadQ ++ x.queued x.mx.compQ).map (·.2)
  let started := fun (w : MWork) => x.mx.loadQ.any fun p =>
    let e := (x.ctx p.1).entry p.2
    e.started && (match e.work with | .matrix v => v.stamp == w.stamp | _ => false)
  let order := ws.filter (fun w => w.kind == .mflip || (w.kind == .mlds && !started w))
  let sorted := order.foldl (fun (l : List MWork) w => l.filter (·.stamp < w.stamp) ++ [w] ++ l.filter (w.stamp < ·.stamp)) []
  (sorted.foldl (fun (r : Option (Ty × Nat × Bool) × Option (Ty × Nat × Bool)) w =>
    if w.kind == .mflip then (r.2, r.1) else (r.1, some (w.ty, w.blk, w.se))) (tag x.mx.active, tag x.mx.shadow)).1
/-- How a wave stands to the array: its gang owns it, it waits for the grant asked for it on resume, or it may not use it
(R451). -/
inductive Owns where
  | yes | waits | no
  deriving DecidableEq, Repr
/-- Ownership of the array by the issuing wave's gang. -/
def State.ownsArray (s : State) : Owns :=
  match s.me.gang with
  | none => .no
  | some g =>
    let m := s.myTile.mx
    if m.owner == some g then .yes else if m.macq.contains (g, noCtx) then .waits else .no
/-- Whether the issuing wave's gang holds an accumulator tile (R451). -/
def State.holdsAcc (s : State) (a : Nat) : Bool :=
  match s.me.gang with
  | none => false
  | some g => fget? s.myTile.mx.accOwner a == some g
/-- The queues' heads that have not started are told to look again. -/
def State.mxKick (s : State) (t : Nat) : State :=
  let m := (s.tile t).mx
  [m.loadQ, m.compQ, m.drainQ].foldl (fun s q =>
    match q with
    | [] => s
    | p :: _ =>
      if ((s.tile t).ctx p.1).entry p.2 |>.started then s
      else s.pend .attachedComplete { tile := t, ctx := p.1, seq := p.2 }) s
/-- An attached array instruction dispatched (R298, R450): its entry, its queue, and MTX for a drain. -/
def State.mxAttach (s : State) (w : MWork) (upd : Ctx → Ctx) : State :=
  let (t, c) := s.cur
  let (id, s) := s.fresh
  let seq := s.me.dseq
  let mtx := match w.kind with | .mdrain _ => true | _ => false
  let s := s.updMe fun k =>
    let k := k.putEntry 2 (.matrix { w with stamp := id, id := id }) 0
    (upd (if mtx then k.raiseCtr .mtx id else k)).retire 8
  let s := s.updMx t fun m => m.setQ w.kind.queue (m.q w.kind.queue ++ [(c, seq)])
  if w.kind == .tmld then s.pend .attachedComplete { tile := t, ctx := c, seq := seq } else s.mxKick t
/-- Work with nothing in it. -/
def MWork.init (k : MKind) : MWork :=
  { kind := k, stamp := 0, acc := 0, row0 := 0, n := 1, rows := [], scales := [], map := none, smap := none, ty := .f32, blk := 0,
    se := false, bm := 0xFFFFFFFFFFFFFFFF#64, ts := none, z := false, id := 0 }
/-- Whether a scratch or memory read of the array must wait for the wave's earlier accesses (R280, R451). -/
def State.mxHeld (s : State) : Bool := s.acqHeld || s.myOps.any fun p => !p.2.allDone
/-- The frame of an attached array instruction: class W, the transfer maps it reads, the checks of R451 (ILLEGAL before any use),
its uses, then the waits of R298 and R450, and its dispatch. -/
def State.mxInstr (s : State) (kind : MKind) (tms : List Nat) (array : Bool) (named : List Nat) (uses : List (List Nat))
    (bad : State → Bool) (f : State → State) : State :=
  if !(Class.W.allows s.cur.2) then s.illegal
  else if s.me.tmBusy tms then s
  else if array && s.ownsArray == .waits then s
  else if (array && s.ownsArray == .no) || bad s then s.illegal
  else
    s.guard .W named uses fun s =>
      if s.me.ringBusy || s.acqHeld || kind.queue.depth ≤ (s.myTile.mx.q kind.queue).length then s else f s

/-- What the address of a map or a row names for the array (R455 step 5, R459). -/
inductive MxWin where
  | own | mem | bad
  deriving DecidableEq, Repr
/-- The window of an address. -/
def State.mxWin (s : State) (t va : Nat) : MxWin :=
  match s.scrWin t va with
  | .own _ => .own
  | _ => if globalVa va then .mem else .bad

/-- K of a plane type: k-positions (R447). -/
def planeK (t : Ty) : Nat := 1024 / t.width
/-- Elements of a block code (R448). -/
def blkLen (blk : Nat) : Nat := 4 * 2 ^ blk
/-- ACCZERO (R452). -/
def execAcczero (d : Nat) (s : State) : Out :=
  .next (s.mxInstr .acczero [] false [] [] (fun s => !s.holdsAcc d) fun s =>
    s.mxAttach { MWork.init .acczero with acc := d } id)
/-- TMLD (R454). -/
def execTmld (d a : Nat) (off : BitVec 16) (s : State) : Out :=
  .next (s.mxInstr .tmld [d] false (xr a) [xr a] (fun _ => false) fun s =>
    let k := s.me
    let va := (k.rdx a + off.signExtend 64).toNat
    if k.psnAny (xr a) then
      (s.updMe fun k => { k with regs := { k.regs with tm := fset k.regs.tm d 0#512 } }).retire 8
    else if va % 64 ≠ 0 then s.raise causeMisalign 0 0xF va
    else
      match s.scrWin s.cur.1 va, globalVa va with
      | .event _, _ => s.raise causeAccess 0 0xF va
      | .none, false => s.raise causeAccess 0 0xF va
      | _, _ => if s.mxHeld then s else s.mxAttach { MWork.init .tmld with acc := d, rows := [va] } id)
/-- MFLIP (R458). -/
def execMflip (s : State) : Out :=
  .next (s.mxInstr .mflip [] true [] [] (fun _ => false) fun s => s.mxAttach (MWork.init .mflip) id)
/-- Whether MLDS's operands break R457. -/
def Ctx.mldsBad (k : Ctx) (blk : Nat) (se : Bool) (a c : Nat) : Bool :=
  let (m, bad) := tmap (k.tm a)
  let (sm, sbad) := tmap (k.tm c)
  bad || !m.ty.weight || m.pcols != 32 || m.prows != planeK m.ty ||
    (blk != 0 && (!m.ty.blockable || sbad || sm.ty != (if se then .e5m2 else .e8m0) || sm.pcols != 32 ||
      sm.prows != planeK m.ty / blkLen blk))
/-- MLDS (R457). -/
def execMlds (blk : Nat) (se bm : Bool) (d a b c : Nat) (s : State) : Out :=
  let tms := if blk = 0 then [a] else [a, c]
  let ds := if bm then xr d else []
  .next (s.mxInstr .mlds tms true ds (if bm then [xr d] else []) (fun s => s.me.mldsBad blk se a c) fun s =>
    let k := s.me
    let (m, _) := tmap (k.tm a)
    let (sm, _) := tmap (k.tm c)
    let pi := (k.stream b).count.toNat
    let t := s.cur.1
    if s.mxWin t m.base == .bad then s.raise causeAccess 0 0xF m.base
    else if blk != 0 && s.mxWin t sm.base == .bad then s.raise causeAccess 0 0xF sm.base
    else if s.mxHeld then s
    else
      let w : MWork :=
        { MWork.init .mlds with n := planeK m.ty, map := some (k.tm a, pi), ty := m.ty, blk := blk, se := se,
                                smap := if blk = 0 then none else some (k.tm c, pi),
                                bm := if bm then k.rdx d else 0xFFFFFFFFFFFFFFFF#64 }
      s.mxAttach w fun k => k.advance b 1)
/-- MSTREAM and MSTREAM.SP (R459, R460). -/
def State.streamInstr (s : State) (sp : Bool) (ty : Ty) (d a row0 c n : Nat) : State :=
  let blk := fun (s : State) => (s.myTile.activeTag.elim 0 fun g => g.2.1)
  s.mxInstr (.mstream sp) [] true [] []
    (fun s => !s.holdsAcc d || s.myTile.activeTag.map (·.1) != some ty || (blk s == 0 && c != 0)) fun s =>
    let k := s.me
    let t := s.cur.1
    let rows := (List.range n).map (k.stream a).row
    let scales := if blk s == 0 then [] else (List.range n).map (k.stream c).row
    let align := fun va => if sp then 8 else if s.mxWin t va == .mem then 128 else 4
    match rows.find? fun va => va % align va != 0 with
    | some va => s.raise causeMisalign 0 0xF va
    | none =>
      match (rows ++ scales).find? fun va => s.mxWin t va == .bad with
      | some va => s.raise causeAccess 0 0xF va
      | none =>
        if s.mxHeld then s
        else
          s.mxAttach { MWork.init (.mstream sp) with acc := d, row0 := row0, n := n, rows := rows, scales := scales, ty := ty }
            fun k => let k := k.advance a n; if blk s == 0 then k else k.advance c n
/-- MSTREAM (R459). -/
def execMstream (t : Ty) (d a row0 c n : Nat) (s : State) : Out := .next (s.streamInstr false t d a row0 c n)
/-- MSTREAM.SP (R460). -/
def execMstreamSp (t : Ty) (d a row0 c n : Nat) (s : State) : Out := .next (s.streamInstr true t d a row0 c n)
/-- MDRAIN and MDRAIN.ADD (R463, R464). -/
def State.drainInstr (s : State) (add ts z : Bool) (d a b c : Nat) : State :=
  let cs := if ts then xr c else []
  s.mxInstr (.mdrain add) [a] false cs ((if ts && c != 63 then [[c], [c + 1]] else []))
    (fun s =>
      let (m, bad) := tmap (s.me.tm a)
      !s.holdsAcc d || bad || m.pcols != 32 || m.prows != 64 || !(m.ty == .f32 || (m.ty == .bf16 && !add))) fun s =>
    let k := s.me
    let (m, _) := tmap (k.tm a)
    if s.mxWin s.cur.1 m.base == .bad then s.raise causeAccess (if add then 3 else 1) 0xF m.base
    else if 63 ≤ k.counter .mtx then s
    else
      s.mxAttach { MWork.init (.mdrain add) with acc := d, n := 64, map := some (k.tm a, (k.stream b).count.toNat), ty := m.ty,
                                                 ts := if ts then some (k.rd c, k.rd (if c = 63 then 63 else c + 1)) else none,
                                                 z := z } fun k => k.advance b 1
/-- MDRAIN (R463). -/
def execMdrain (ts z : Bool) (d a b c : Nat) (s : State) : Out := .next (s.drainInstr false ts z d a b c)
/-- MDRAIN.ADD (R464). -/
def execMdrainAdd (ts z : Bool) (d a b c : Nat) (s : State) : Out := .next (s.drainInstr true ts z d a b c)
/-- MSTEP (R462). -/
def execMstep (d : Nat) (s : State) : Out :=
  .next (s.guard .W (sr d) [] fun s =>
    if s.me.ring.any fun e => e.2.unit == 2 && e.2.state == .issued then s
    else
      (s.updMe fun k =>
        { k.wr d (BitVec.ofNat 32 (sat 0xFFFFFF k.msteps + sat 0xFF k.mchunks * 2 ^ 24)) with msteps := 0, mchunks := 0 }).retire 8)

/-! ### Reads and writes of the array (R455, R457, R459, R463) -/

/-- Why a row is not performed now. -/
inductive MxStop where
  | miss (va : Nat)
  | fault (f : FaultRec)
  deriving DecidableEq, Repr
/-- A wave's entry as the array's accesses name it. -/
structure MxWho where
  t : Nat
  c : Nat
  l : Nat
  pc : Nat
  seq : Nat
  deriving DecidableEq, Repr
/-- A place for n bytes at an address: scratch of the tile, or GLOBAL or DIRECT memory with its class; HOST and PEER leaves are
faults (R455 step 5). -/
def State.mxPlace (s : State) (w : MxWho) (va acc : Nat) : Except MxStop (Nat × Loc) :=
  match s.scrWin w.t va with
  | .own off => .ok (0, .scr w.t off)
  | _ =>
    let f := { s.faultRec w.t w.c w.pc va acc 15 0 false with launch := handleOf w.l }
    if !globalVa va then .error (.fault f)
    else
      match s.translateFor w.l w.t w.c w.pc va acc true with
      | .miss => .error (.miss va)
      | .fault f => .error (.fault f)
      | .ok lf p => if 2 ≤ lf.cls then .error (.fault { f with kind := 3, level := lf.level }) else .ok (lf.cls, p)
/-- n bytes read at a place: a scratch read that R244 refuses returns zero with poison (R306). -/
def State.mxRead (s : State) (w : MxWho) (va n : Nat) (p : Nat × Loc) : (Nat × Bool) × State :=
  match p.2 with
  | .scr t off =>
    if (s.tile t).allows w.l off n false false then ((s.scrRead t off n, s.scrPois t off), s)
    else ((0, true), s.violate t t w.c w.l w.pc va false)
  | q => let r := s.loadAt w.t w.l p.1 q n; ((r.1, r.2.1), r.2.2)
/-- Elements of a width read one after another. -/
def State.mxElems (s : State) (w : MxWho) (width : Nat) : List PElem → Except MxStop (List (Nat × Bool)) × State
  | [] => (.ok [], s)
  | .zero :: es => match s.mxElems w width es with | (.ok l, s) => (.ok ((0, false) :: l), s) | r => r
  | .poison :: es => match s.mxElems w width es with | (.ok l, s) => (.ok ((0, true) :: l), s) | r => r
  | .at b :: es =>
    let va := b / 8
    match s.mxPlace w va 0 with
    | .error e => (.error e, s)
    | .ok p =>
      let (v, s) := s.mxRead w va (max 1 (width / 8)) p
      match s.mxElems w width es with
      | (.ok l, s) => (.ok ((v.1 / 2 ^ (b % 8) % 2 ^ width, v.2) :: l), s)
      | r => r
/-- How a step of an array instruction ends. -/
inductive MxEnd where
  | ok
  | wait (va acc : Nat)
  | fault (f : FaultRec)
  | poison
  /-- Its next step is an event that waits for a line or a shadow way (R96, R154). -/
  | held
  deriving DecidableEq, Repr
/-- The result of a stopped read. -/
def MxStop.finish (e : MxStop) (acc : Nat) : MxEnd :=
  match e with
  | .miss va => .wait va acc
  | .fault f => .fault f
/-- The address of an element that a row reads. -/
def PElem.va? : PElem → Option Nat
  | .at b => some (b / 8)
  | _ => none
/-- Whether the elements of a row may be reached now (R83, R96, R101, R154, R165, R177): acc is the access kind of R85, and a reduction is
made at the home die's slice (R112). -/
def State.mxReach (s : State) (who : MxWho) (acc : Nat) (vas : List Nat) : Option MxEnd × State :=
  let heads := vas.foldl (fun (l : List Nat) va => if l.any fun v => v / 64 == va / 64 then l else l ++ [va]) []
  let places := heads.foldl (fun (r : Except MxStop (List (Nat × Loc))) va =>
    match r with
    | .error e => .error e
    | .ok l => match s.mxPlace who va acc with | .error e => .error e | .ok p => .ok (l ++ [p])) (.ok [])
  let ev : Event := ⟨.attachedComplete, { tile := who.t, ctx := who.c, seq := who.seq, val := 1 }⟩
  match places with
  | .error e => (some (e.finish acc), s)
  | .ok ps =>
    let mem := ps.filter fun p => match p.2 with | .scr .. => false | _ => true
    let at_ := fun (p : Loc) => match p with | .dev k _ => if acc == 3 then homeDie k else dieOf who.t | _ => dieOf who.t
    if !mem.isEmpty && (s.tile who.t).un.stalled then (some (.wait windowBase acc), s)
    else if acc == 0 && mem.any fun p => s.shelterHeld who.l p.1 (addrOf p.2) then (some .held, s.holdEvent ev)
    else
      let r := if acc == 0 then (true, s)
        else mem.foldl (fun (r : Bool × State) p => if r.1 then r.2.wayFor who.l p.1 p.2 ev else r) (true, s)
      let r := if r.1 then
          r.2.linesOn (mem.flatMap fun p => (s.unitLines who.l p.1 p.2 1 (acc != 0)).map fun l => (at_ p.2, l)) ev
        else r
      (if r.1 then none else some .held, r.2)
/-- Elements with their poison used (R305): under LENIENT each counts and is zero, under STRICT there are none. -/
def State.mxUse (s : State) (l : Nat) (es : List (Nat × Bool)) : Option (List Nat) × State :=
  let bad := (es.filter (·.2)).length
  if bad == 0 then (some (es.map (·.1)), s)
  else if s.lenient l then (some (es.map fun e => if e.2 then 0 else e.1), s.countPois l bad)
  else (none, s)
/-- An accumulator element. -/
def Matrix.elem (m : Matrix) (a row col : Nat) : Nat := fget m.acc (a * 2048 + row * 32 + col) 0
/-- An accumulator element written. -/
def Matrix.putElem (m : Matrix) (a row col v : Nat) : Matrix :=
  let k := a * 2048 + row * 32 + col
  { m with acc := if v == 0 then fdel m.acc k else fset m.acc k v }

/-! ### Accumulation (R332 to R335) -/

/-- One column of a row without blocks: 16 groups in increasing k, over the k that are executed (R332, R334). -/
def accPlain (ty : Ty) (row : List Nat) (wgt : Nat → Nat) (run : Nat → Bool) (acc : Nat) : Nat × Flags :=
  let gw := 64 / ty.width
  (List.range 16).foldl (fun (r : Nat × Flags) g =>
    let ks := ((List.range gw).map (g * gw + ·)).filter run
    let (a, f) := accGroup r.1 (sumV (ks.map fun k => mulV (fltVal ty (row.getD k 0)) (fltVal ty (wgt k))))
    (a, r.2 ||| f)) (acc, noFlags)
/-- One column of a row with blocks (R335 steps 1 to 3). -/
def accBlocks (ty : Ty) (blk : Nat) (se : Bool) (row : List Nat) (wgt : Nat → Nat) (run : Nat → Bool) (sa : List Nat) (sb : Nat → Nat)
    (acc : Nat) : Nat × Flags :=
  let n := blkLen blk
  let sy : Ty := if se then .e5m2 else .e8m0
  (List.range (planeK ty / n)).foldl (fun (r : Nat × Flags) i =>
    let ks := ((List.range n).map (i * n + ·)).filter run
    let p := sumV (ks.map fun k => mulV (fltVal ty (row.getD k 0)) (fltVal ty (wgt k)))
    let (a, f) := accContrib r.1 (blockContrib p (fltVal sy (sa.getD i 0)) (fltVal sy (sb i)))
    (a, r.2 ||| f)) (acc, noFlags)
/-- A row accumulated into a row of a tile, column by column. -/
def Matrix.accumulate (m : Matrix) (w : MWork) (j : Nat) (row sa : List Nat) (run : Nat → Bool) : Matrix × Flags :=
  let p := m.active
  (List.range 32).foldl (fun (r : Matrix × Flags) c =>
    let old := r.1.elem w.acc (w.row0 + j) c
    let wgt := fun k => fget p.w (k * 32 + c) 0
    let (v, f) := if p.blk == 0 then accPlain w.ty row wgt run old
      else accBlocks w.ty p.blk p.se row wgt run sa (fun i => fget p.sc (i * 32 + c) 0) old
    (r.1.putElem w.acc (w.row0 + j) c v, r.2 ||| f)) (m, noFlags)
/-- k-positions of a unit (R447). -/
def unitLen (ty : Ty) : Nat := 16 / ty.width
/-- A row accumulated, with its flags and, for MSTREAM.SP, its steps (R459, R460, R462). -/
def State.streamRow (s : State) (who : MxWho) (w : MWork) (j : Nat) (row sc : List (Nat × Bool)) (run : Nat → Bool) (steps : Nat) :
    MxEnd × State :=
  match s.mxUse who.l (row ++ sc) with
  | (none, s) => (.poison, s)
  | (some vs, s) =>
    let (m, fl) := (s.tile who.t).mx.accumulate w j (vs.take row.length) (vs.drop row.length) run
    let s := s.updMx who.t fun _ => m
    (.ok, s.updCtx who.t who.c fun k =>
      { k.setFlags fl with msteps := k.msteps + steps, mchunks := k.mchunks + (if 32 < steps then 1 else 0) })
/-- The scale record of row j (R459). -/
def MWork.scaleElems (w : MWork) (p : Plane) (j : Nat) : List PElem :=
  if p.blk == 0 then [] else (List.range (planeK w.ty / blkLen p.blk)).map fun i => .at (8 * (w.scales.getD j 0 + i))
/-- One row of MSTREAM (R459). -/
def State.denseRow (s : State) (who : MxWho) (w : MWork) (j : Nat) : MxEnd × State :=
  let p := (s.tile who.t).mx.active
  let base := w.rows.getD j 0
  let els := (List.range (planeK w.ty)).map fun k => PElem.at (8 * base + k * w.ty.width)
  match s.mxReach who 0 ((els ++ w.scaleElems p j).filterMap PElem.va?) with
  | (some e, s) => (e, s)
  | (none, s) =>
    match s.mxElems who w.ty.width els with
    | (.error e, s) => (e.finish 0, s)
    | (.ok row, s) =>
      match s.mxElems who 8 (w.scaleElems p j) with
      | (.error e, s) => (e.finish 0, s)
      | (.ok sc, s) => s.streamRow who w j row sc (fun _ => true) 0
/-- One row of MSTREAM.SP: the bitmap, then the units it marks (R460). -/
def State.sparseRow (s : State) (who : MxWho) (w : MWork) (j : Nat) : MxEnd × State :=
  let p := (s.tile who.t).mx.active
  let base := w.rows.getD j 0
  let ul := unitLen w.ty
  let el := fun (a k : Nat) =>
    let u := k / ul
    let rank := ((List.range u).filter (bitB a)).length
    if bitB a u then PElem.at (8 * (base + 8 + 2 * rank) + k % ul * w.ty.width) else .zero
  let hds := [PElem.at (8 * base), PElem.at (8 * base + 32)]
  let rowOf := fun (a : Nat) => (List.range (planeK w.ty)).map (el a)
  match s.mxReach who 0 (hds.filterMap PElem.va?) with
  | (some e, s) => (e, s)
  | (none, s0) =>
    match s0.mxElems who 32 hds with
    | (.error e, s) => (e.finish 0, s)
    | (.ok hd, s1) =>
      let word := fun i => let h := hd.getD i (0, false); if h.2 then 0 else h.1
      let a := word 0 + word 1 * 2 ^ 32
      match s0.mxReach who 0 ((rowOf a ++ w.scaleElems p j).filterMap PElem.va?) with
      | (some e, s) => if hd.any (·.2) && !s.lenient who.l then (.poison, s1) else (e, s)
      | (none, s) =>
        match s.mxElems who 32 hds with
        | (.error e, s) => (e.finish 0, s)
        | (.ok hd, s) =>
          match s.mxUse who.l hd with
          | (none, s) => (.poison, s)
          | (some _, s) =>
            match s.mxElems who w.ty.width (rowOf a) with
            | (.error e, s) => (e.finish 0, s)
            | (.ok row, s) =>
              match s.mxElems who 8 (w.scaleElems p j) with
              | (.error e, s) => (e.finish 0, s)
              | (.ok sc, s) =>
                let both := fun u => bitB a u && p.bm.getLsbD u
                s.streamRow who w j row sc (fun k => both (k / ul)) ((List.range 64).filter both).length

/-! ### Planes (R457) -/

/-- One row of MLDS, and the scales of the block it begins. -/
def State.planeRow (s : State) (who : MxWho) (w : MWork) (k : Nat) : MxEnd × State :=
  let s := if k == 0 then
      s.updMx who.t fun m => { m with shadow := { Plane.none with ty := some w.ty, blk := w.blk, se := w.se, bm := w.bm } }
    else s
  let marked := w.bm.getLsbD (k / unitLen w.ty)
  let els := match w.patch? with
    | some p => if marked then (List.range 32).map fun c => p.elem c k else []
    | none => []
  let sels := match w.spatch? with
    | some p => if k % blkLen w.blk == 0 then (List.range 32).map fun c => p.elem c (k / blkLen w.blk) else []
    | none => []
  match s.mxReach who 0 ((els ++ sels).filterMap PElem.va?) with
  | (some e, s) => (e, s)
  | (none, s) =>
    match s.mxElems who w.ty.width els with
    | (.error e, s) => (e.finish 0, s)
    | (.ok row, s) =>
      match s.mxElems who 8 sels with
      | (.error e, s) => (e.finish 0, s)
      | (.ok sc, s) =>
        match s.mxUse who.l (row ++ sc) with
        | (none, s) => (.poison, s)
        | (some vs, s) =>
          let put (f : FMap Nat) (at_ : Nat) (l : List Nat) : FMap Nat :=
            (List.range l.length).foldl (fun f c => if l.getD c 0 == 0 then f else fset f (at_ * 32 + c) (l.getD c 0)) f
          (.ok, s.updMx who.t fun m =>
            { m with shadow := { m.shadow with w := put m.shadow.w k (vs.take row.length),
                                               sc := put m.shadow.sc (k / blkLen w.blk) (vs.drop row.length) } })

/-! ### Drains (R463, R464) -/

/-- What a drain writes for an element: its code, and the flags of the conversions that set flags. -/
def MWork.drainVal (w : MWork) (acc : Nat) (add : Bool) : Nat × Flags :=
  let (v, f) := match w.ts with
    | some (a, b) => tensorScale acc a.toNat b.toNat
    | none => (acc, noFlags)
  if !add && w.ty == .bf16 then
    let (c, g) := roundV fmtBF16 .rne noOv (fmtF32.val v)
    (c, f ||| g)
  else (v, f)
/-- The places of a row's elements inside the tensor: column, address, class and place. -/
def State.drainPlaces (s : State) (who : MxWho) (p : Patch) (row acc : Nat) : Except MxStop (List (Nat × Nat × Nat × Loc)) :=
  (List.range 32).foldl (fun (r : Except MxStop (List (Nat × Nat × Nat × Loc))) c =>
    match r with
    | .error e => .error e
    | .ok l =>
      if !p.inside c row then .ok l
      else
        let va := p.bit (p.c0 + c) (p.c1 + row) / 8
        match s.mxPlace who va acc with
        | .error e => .error e
        | .ok q => .ok (l ++ [(c, va, q.1, q.2)])) (.ok [])
/-- One element drained at a place: stored or, with .add, combined (R464). -/
def State.drainElem (s : State) (who : MxWho) (add : Bool) (n va cls : Nat) (p : Loc) (v : Nat) : State :=
  match p with
  | .scr t off =>
    if !(s.tile t).allows who.l off n true false then s.violate t t who.c who.l who.pc va true
    else
      let s := if add then s.scrWrite t off n (f32Add (s.scrRead t off n) v).1 (s.scrPois t off) else s.scrWrite t off n v false
      s.changeFull t (off / 4 * 4) true
  | p =>
    let s := if add then s.redAt who.t who.l cls va p n .add .f32 v else s.storeAt who.t who.l cls va p n v false
    match p, s.shTag who.l cls with
    | .dev k a, none => s.testAt (if add then homeDie k else dieOf who.t) a (some who.l)
    | _, _ => s
/-- One row drained. -/
def State.drainRow (s : State) (who : MxWho) (w : MWork) (add : Bool) (row : Nat) : MxEnd × State :=
  match w.patch? with
  | none => (.ok, s)
  | some p =>
    match s.drainPlaces who p row (if add then 3 else 1) with
    | .error e => (e.finish (if add then 3 else 1), s)
    | .ok l =>
      match s.mxReach who (if add then 3 else 1) (l.map fun x => x.2.1) with
      | (some e, s) => (e, s)
      | (none, s) =>
        let m := (s.tile who.t).mx
        let s := if add then s else s.wholeLines (dieOf who.t) who.l (w.ty.width / 8) (l.map fun x => x.2.2)
        let s := l.foldl (fun s x =>
          let (c, va, cls, q) := x
          let (v, f) := w.drainVal (m.elem w.acc row c) add
          (s.drainElem who add (w.ty.width / 8) va cls q v).updCtx who.t who.c (·.setFlags f)) s
        (.ok, s)
/-- Rows from one on, all in one step: a drain with .add into scratch is indivisible (R464). -/
def State.drainAll (s : State) (who : MxWho) (w : MWork) : Nat → Nat → MxEnd × State
  | 0, _ => (.ok, s)
  | n + 1, row =>
    match s.drainRow who w true row with
    | (.ok, s) => s.drainAll who w n (row + 1)
    | r => r

/-! ### Transfer-map loads (R454) -/

/-- TMLD's 64 bytes: at the port, from memory, or from another tile's scratch by a message. -/
def State.tmldRun (s : State) (who : MxWho) (w : MWork) : MxEnd × State :=
  let va := w.rows.getD 0 0
  let put (s : State) (v : Nat) : State :=
    s.updCtx who.t who.c fun k => { k with regs := { k.regs with tm := fset k.regs.tm w.acc (BitVec.ofNat 512 v) } }
  let words (s : State) (ws : List (Nat × Bool)) : MxEnd × State :=
    match s.mxUse who.l ws with
    | (none, s) => (.poison, s)
    | (some vs, s) => (.ok, put s ((List.range 16).map fun i => vs.getD i 0 * 2 ^ (32 * i)).sum)
  let remote (u off : Nat) : MxEnd × State :=
    match s.op? w.id with
    | some o =>
      if o.allBack then words (s.delOp w.id) (o.elems.map fun e => ((e.res.setWidth 32).toNat, e.rpois != 0#2))
      else (.wait windowBase 0, s)
    | none =>
      let es := (List.range 16).map fun i => mkElem i (va + 4 * i) 4 (some (.scr u (off + 4 * i))) 0 0
      let o : Op := { tile := who.t, ctx := who.c, lidx := who.l, pc := BitVec.ofNat 48 who.pc, seq := none, kind := .copyRead,
                      aop := .add, ty := .b32, w64 := false, ord := ⟨0, 0⟩, elems := es, dest := 63, vec := false,
                      err := false, nf := false, aux := [] }
      (.wait windowBase 0, ((s.setOp w.id o).after plainTimeout .responseTimeout { tile := who.t, ctx := who.c, id := w.id }).scrSend
        w.id who.t)
  match s.scrWin who.t va with
  | .tile u off => remote u off
  | .pkg g u off => remote (foreignTile g u) off
  | _ =>
    match s.mxReach who 0 ((List.range 16).map fun i => va + 4 * i) with
    | (some e, s) => (e, s)
    | (none, s) =>
      match s.mxElems who 32 ((List.range 16).map fun i => .at (8 * (va + 4 * i))) with
      | (.error e, s) => (e.finish 0, s)
      | (.ok ws, s) => words s ws

/-! ### Running (R298, R300, R450, R458, R461) -/

/-- One row of an entry. -/
def State.mxRow (s : State) (who : MxWho) (w : MWork) (j : Nat) : MxEnd × State :=
  match w.kind with
  | .tmld => s.tmldRun who w
  | .acczero => (.ok, s.updMx who.t fun m => m.zeroAcc w.acc)
  | .mflip => (.ok, s.updMx who.t fun m => { m with active := m.shadow, shadow := m.active })
  | .mstream false => s.denseRow who w j
  | .mstream true => s.sparseRow who w j
  | .mlds => s.planeRow who w j
  | .mdrain false => s.drainRow who w false j
  | .mdrain true =>
    match w.patch? with
    | some p => if s.mxWin who.t p.m.base == .own then s.drainAll who w (64 - j) j else s.drainRow who w true j
    | none => (.ok, s)
/-- Rows that a step performs. -/
def State.mxRows (s : State) (who : MxWho) (w : MWork) (j : Nat) : Nat :=
  match w.kind, w.patch? with
  | .mdrain true, some p => if s.mxWin who.t p.m.base == .own then 64 - j else 1
  | _, _ => 1
/-- Whether an instruction at the head of its queue may begin (R450, R458): the waits on the other queues. -/
def Tile.mxReady (x : Tile) (w : MWork) : Bool :=
  let before := fun (q : List (Nat × Nat)) (f : MWork → Bool) => (x.queued q).any fun p => p.2.stamp < w.stamp && f p.2
  match w.kind with
  | .mlds => !before x.mx.compQ fun v => v.kind == .mflip
  | .mflip => !before x.mx.loadQ fun _ => true
  | .mstream _ | .acczero => !before x.mx.drainQ (·.names w.acc)
  | .mdrain _ => !before x.mx.compQ (·.names w.acc)
  | .tmld => true
/-- Whether an entry that has not started is held by an earlier FAULTED one of its wave (R300). -/
def Ctx.mxStopped (k : Ctx) (seq : Nat) : Bool :=
  k.ring.any fun e => e.2.state == .faulted && 0 < (seq + 65536 - e.2.seq) % 65536 && (seq + 65536 - e.2.seq) % 65536 < 32768
/-- Whether an entry is at the head of its queue. -/
def Matrix.atHead (m : Matrix) (q : MQueue) (c seq : Nat) : Bool := q == .path || (m.q q).head? == some (c, seq)
/-- An array instruction completes: DONE, out of its queue, MTX lowered, the tile +0 with .z, and the queues look again. -/
def State.mxDone (s : State) (who : MxWho) (seq : Nat) (w : MWork) : State :=
  let s := s.updCtx who.t who.c fun k =>
    let k := { k with ring := fset k.ring (seq % 64) { k.entry seq with state := .done } }
    match w.kind with
    | .mdrain _ => k.lower w.id
    | _ => k
  let s := s.updMx who.t fun m =>
    let m := m.setQ w.kind.queue ((m.q w.kind.queue).filter (· != (who.c, seq)))
    if w.z then m.zeroAcc w.acc else m
  s.mxKick who.t
/-- An array instruction stops late on a fault at its current row (R300, R461). -/
def State.mxFault (s : State) (who : MxWho) (seq : Nat) (f : FaultRec) : State :=
  let s := s.dropXfault who.t f
  (s.updCtx who.t who.c fun k =>
    { k with ring := fset k.ring (seq % 64) { k.entry seq with state := .faulted, fault := some f } }).pend .lateFault
    { tile := who.t, ctx := who.c, seq := seq }
/-- A step of an array entry: it starts when its queue and R458 let it, then performs a row in each step; again says that the step
follows one of its own. -/
def State.mxStep (s : State) (t c seq : Nat) (w : MWork) (again : Bool) : State :=
  let x := s.tile t
  let k := x.ctx c
  let e := k.entry seq
  let who : MxWho := ⟨t, c, k.lidx, e.pc.toNat, seq⟩
  if e.started != again then s
  else if !again && !(x.mx.atHead w.kind.queue c seq && x.mxReady w && !k.mxStopped seq) then s
  else
    let s := s.updCtx t c fun k => { k with ring := fset k.ring (seq % 64) { e with started := true } }
    let more (s : State) : State := s.after tileTicks .attachedComplete { tile := t, ctx := c, seq := seq, val := 1 }
    let n := s.mxRows who w e.rows
    match s.mxRow who w e.rows with
    | (.ok, s) =>
      let s := s.updCtx t c fun k => { k with ring := fset k.ring (seq % 64) { k.entry seq with rows := e.rows + n } }
      if w.n ≤ e.rows + n then s.mxDone who seq w else more s
    | (.wait va acc, s) => more (if va == windowBase then s else s.askWalkFor (s.asidOf k.lidx) t va acc)
    | (.held, s) => s
    | (.fault f, s) => s.mxFault who seq f
    | (.poison, s) => (s.stick k.lidx).trap t c causePoison 0 0 e.pc.toNat none
/-- ATTACHED_COMPLETE (R300, R338): a vector entry completes; an array entry performs its next row. -/
def execAttachedComplete (s : State) : Out :=
  let (t, c, seq) := (s.arg.tile, s.arg.ctx, s.arg.seq)
  let e := (s.ctx t c).entry seq
  .next (if e.seq != seq || e.state != .issued then s
    else
      match e.unit, e.work with
      | 0, _ => s.updCtx t c fun k => k.finishEntry seq
      | 2, .matrix w => s.mxStep t c seq w (s.arg.val == 1)
      | _, _ => s)

end Sys2Proof.Machine
end

