-- ==== Sys2Proof/Machine/Travel.lean ====
section
/-! DEFINITION. Travel, ray, service and transaction instructions (R201, R206, R207, R214 to R222, R228, R229, R237 to R239, R467 to
R485). -/
namespace Sys2Proof.Machine

/-! ### Sending and moving threads (R216 to R222, R471, R472) -/

/-- Whether a destination operand breaks the rule of R471. -/
def destBad (seg : Bool) (v : Nat) : Bool := if seg then 2 ^ 24 ≤ v || v == 0 else 2 ^ 18 ≤ v
/-- Whether a tile's share has a free credit for a launch and nobody waits for one (R217). -/
def State.creditFree (s : State) (t l : Nat) : Bool :=
  match (s.tile t).share? l with
  | some h => decide (0 < h.credits) && h.creditQ.isEmpty
  | none => false
/-- The answer of a request that has failed (R61, R68). -/
def failedAnswer : List Word := [1#32]
/-- The issuing context's request to a tile of some package, on VC7, which it waits for: its time-out runs, or it has failed at once as
UNREACHABLE (R61, R68). -/
def State.askTile (s : State) (pkg dst : Nat) (i : Instr) (a : Arg) : State :=
  let t := s.cur.1
  let (id, s) := s.fresh
  let tok := s.tokenOf id
  let s := s.waitOut id
  match s.sendTile t pkg dst 7 1 s.me.lidx i { a with tile := dst, lidx := s.me.lidx, who := (t, tok) } with
  | some s => s.after plainTimeout .responseTimeout { tile := t, ctx := tok, val := pkg, ok := true }
  | none => s.answer t tok failedAnswer
/-- The issuing context asks for a credit: it takes one of its own tile's share, or waits for its turn there, or asks its OTILE
on VC7 (R217). -/
def State.askCredit (s : State) : State :=
  let (t, c) := s.cur
  let k := s.me
  let l := k.lidx
  let home := if isPath c then k.hdr.otile else t
  let own := s.pkgOf (dieOf t)
  let pkg := if isPath c then k.hdr.opkg else own
  if home == t && pkg == own then
    let s := s.waitOut 1
    if s.creditFree t l then (s.updTile t fun x => x.updShare l fun h => { h with credits := h.credits - 1 }).answer t c []
    else s.updTile t fun x => x.updShare l fun h => { h with creditQ := h.creditQ ++ [(t, s.token)] }
  else s.askTile pkg home .creditRequest {}
/-- The packet of a SEND (R212, R471). -/
def State.newPacket (s : State) (seg : Bool) (cls d a b c : Nat) : Packet :=
  let k := s.me
  let x := s.launch k.lidx
  let path := isPath s.cur.2
  { lidx := k.lidx, thread := (k.rd d).toNat % 2 ^ 24, seq := 0, opkg := if path then k.hdr.opkg else s.pkgOf (dieOf s.cur.1),
    otile := if path then k.hdr.otile else s.cur.1, tv := x.r.txn, tslot := if x.r.txn then x.slot.getD 0 else 0, rpc := 0,
    res := false, cls := cls, dkind := seg, dest := (k.rd b).toNat % 2 ^ 24,
    s := if a = 63 then List.replicate 10 0#32 else (List.range 10).map fun i => k.rd (a + i), pw := k.rd c }
/-- SEND (R471): a credit, the release, and the packet; where the request for the credit has failed, it completes without a packet (R61). -/
def execSend (seg : Bool) (cls d a b c : Nat) (s : State) : Out :=
  .next (s.guard .A (sr d ++ sblk a 10 ++ sr b ++ sr c) ([sr d, sr b, sr c] ++ (sblk a 10).map fun r => [r]) fun s =>
    let k := s.me
    let r := (s.launch k.lidx).r
    if destBad seg (k.rd b).toNat then s.accessOp
    else if r.budget = 0 ∨ r.classtab = 0 then s.accessOp
    else if s.waited = 0 then s.askCredit
    else if s.answered.isNone || s.unreleased then s
    else if s.answered == some failedAnswer then s.retire 8
    else ((s.flushPosted.inject s.cur.1 (s.newPacket seg cls d a b c)).retire 8))
/-- MIGRATE (R220, R472). -/
def execMigrate (seg : Bool) (b : Nat) (s : State) : Out :=
  .next (s.guard .P (sr b) [sr b] fun s =>
    let v := (s.me.rd b).toNat
    if destBad seg v then s.accessOp
    else s.depart (s.me.regs.pc + 8#48) seg v fun s p => s.inject s.cur.1 p)
/-- SEGLOOK's answer (R473) from a segment's state, type, size and usable owners, for a thread number. -/
def seglookWord (state ty size : Nat) (owners : List Nat) (thread : Nat) : Word :=
  BitVec.ofNat 32 (2 ^ 31 + state % 8 * 2 ^ 28 + ty % 4 * 2 ^ 26 + owners.length % 8 * 2 ^ 23 + size % 128 * 2 ^ 16 +
    (if owners.isEmpty then 0 else owners.getD (ownerIdx thread owners.length) 0 % 1024))
/-- SEGLOOK (R228, R473): from the route cache, or from the home's answer: a word 1, state, type, size and owners, or no word
for an undefined segment; a lookup that has failed gives a poisoned result (R61). -/
def execSeglook (d a b : Nat) (s : State) : Out :=
  .next (s.guard .A (sr d ++ sr a ++ sr b) [sr a, sr b] fun s =>
    let t := s.cur.1
    let k := s.me
    let n := (k.rd a).toNat
    let thread := (k.rd b).toNat % 2 ^ 24
    let done (s : State) (v : Word) : State := (s.updMe fun k => k.wr d v).retire 8
    if 2 ^ 24 ≤ n then s.accessOp
    else if s.waited ≠ 0 then
      match s.answered with
      | none => s
      | some [_] => (s.updMe fun k => k.wrP d 0#32 true).retire 8
      | some (_ :: st :: ty :: size :: owners) => done s (seglookWord st.toNat ty.toNat size.toNat (owners.map (·.toNat)) thread)
      | some _ => done s 0#32
    else
      match s.myTile.trav.route? n with
      | some (owners, st, ty, size) => done (s.updTrav t fun v => v.touchRoute n) (seglookWord st ty size owners thread)
      | none => s.askTile (s.pkgOf (dieOf t)) (s.segHome n) .routeCacheMiss { seg := n })

/-! ### Hits (R237 to R239, R474, R475) -/

/-- Reservations of a tile's hit queue granted in their order of arrival while records are free (R238): a requester on the
tile has its answer at once, another by VC7. -/
def State.grantHits (s : State) (t : Nat) : Nat → State
  | 0 => s
  | n + 1 =>
    let v := (s.tile t).trav
    match v.hitQ with
    | [] => s
    | (rt, rc) :: rest =>
      if hitDepth ≤ v.hits.length + v.hitRes then s
      else
        let s := s.updTrav t fun v => { v with hitQ := rest, hitRes := v.hitRes + 1 }
        let s :=
          if rt == t then s.answer t rc []
          else
            let a : Arg := { tile := rt % 1024, ctx := rc, ok := true }
            if rt < 1024 then s.send (.tile t) (.tile rt) 7 1 orphanLaunch .hitReservation a
            else (s.sendOut t (rt / 1024 - 1) 7 1 orphanLaunch .hitReservation a).getD s
        State.grantHits s t n
/-- A request for a reservation joins the queue of a tile. -/
def State.askHit (s : State) (t : Nat) (who : Nat × Nat) : State :=
  (s.updTrav t fun v => { v with hitQ := v.hitQ ++ [who] }).grantHits t 1
/-- HITPUSH (R237, R238, R474); where the reservation has failed, it completes without a record (R61). -/
def execHitpush (a : Nat) (s : State) : Out :=
  .next (s.guard .A (sblk a 15) ((sblk a 15).map fun r => [r]) fun s =>
    let (t, c) := s.cur
    let k := s.me
    let home := if isPath c then k.hdr.otile else t
    let own := s.pkgOf (dieOf t)
    let pkg := if isPath c then k.hdr.opkg else own
    let here := home == t && pkg == own
    if s.waited = 0 then
      if here then (s.waitOut 1).askHit t (t, s.token) else s.askTile pkg home .hitReservation {}
    else if s.answered.isNone || s.unreleased then s
    else if s.answered == some failedAnswer then s.retire 8
    else
      let w15 := BitVec.ofNat 32 (k.lidx % 2 ^ 13 + t % 1024 * 2 ^ 13)
      let ws := (List.range 15).map (fun i => if a = 63 then 0#32 else k.rd (a + i)) ++ [w15]
      let s := s.flushPosted
      let arg : Arg := { tile := home, lidx := k.lidx, words := ws }
      (if here then s.pend .hitRecordArrival arg
       else (s.sendTile t pkg home 6 1 k.lidx .hitRecordArrival arg).getD s).retire 8)
/-- The index of the launch in a hit record (R237). -/
def hitLidx (ws : List Word) : Nat := (ws.getD 15 0#32).toNat % 2 ^ 13
/-- The first n records of a list that have a property, and the records left (R239). -/
def takeFirst {α : Type} (f : α → Bool) : List α → Nat → List α × List α
  | [], _ => ([], [])
  | l, 0 => ([], l)
  | h :: l, n + 1 =>
    if f h then (h :: (takeFirst f l n).1, (takeFirst f l n).2) else ((takeFirst f l (n + 1)).1, h :: (takeFirst f l (n + 1)).2)
/-- HITPOP (R239, R475). -/
def execHitpop (d a : Nat) (s : State) : Out :=
  let nm : Named := { s := sr a, v := (List.range 16).map (d + ·) }
  let (t, c) := s.cur
  .next (if !(Class.W.allows c && s.namesOk nm) then s.illegal
    else if !s.me.regs.dstack.isEmpty then s.illegal
    else if s.me.busyAny nm then s
    else
      let k := s.me
      let mine := fun (h : Nat × List Word) => hitLidx h.2 == k.lidx && h.1 / tileTicks < s.now / tileTicks
      let v := (s.tile t).trav
      let (took, left) := takeFirst mine v.hits 32
      let at_ := (takeFirst (fun z => mine z.1) (v.hits.zip v.hitAt) 32).2.map (·.2)
      let n := took.length
      let s := s.updTrav t fun v => { v with hits := left, hitAt := at_ }
      let s := s.grantHits t n
      let s := s.updMe fun k =>
        let k := (List.range 16).foldl (fun (k : Ctx) w =>
          k.wrV (d + w) (VReg.make fun i =>
            match took[i]? with
            | some h => (h.2.getD w 0#32, false)
            | none => ((k.vreg (d + w)).lane i, (k.vreg (d + w)).bad i))) k
        { k with regs := { k.regs with exec := BitVec.ofNat 32 (2 ^ n - 1) } }.wr a (BitVec.ofNat 32 n)
      s.retire 8)

/-! ### Blocks read in place (R469, R477 to R479, R481) -/

/-- Words of a block with their poison, from the answer of its operation. -/
def blockWords : List Word → List (Word × Bool)
  | lo :: hi :: p :: rest => (lo, p.getLsbD 0) :: (hi, p.getLsbD 1) :: blockWords rest
  | _ => []
/-- A block of n bytes that the issuing instruction reads before it acts: its words, or the state in which it waits or has
trapped.  Own-tile scratch is read at once (R244); translated memory, of a class up to maxCls, by an operation of the context
(R202, R477).  The answer stays until the instruction completes. -/
def State.block (s : State) (va n align maxCls : Nat) : Except State (List (Word × Bool) × State) :=
  let (t, c) := s.cur
  let k := s.me
  if s.waited = 1 then
    match s.answered with
    | some ws => .ok (blockWords ws, s)
    | none => .error s
  else if va % align ≠ 0 then .error (s.raise causeMisalign 0 0xF va)
  else if s.acqHeld then .error s
  else
    match s.scrWin t va with
    | .own off =>
      if (s.tile t).allows k.lidx off n false (c == sysCtx) then
        .ok ((List.range (n / 4)).map fun i => (BitVec.ofNat 32 (s.scrRead t (off + 4 * i) 4), s.scrPois t (off + 4 * i)), s)
      else .ok (List.replicate (n / 4) (0#32, true), s.violate t t c k.lidx k.regs.pc.toNat va false)
    | _ =>
      if !globalVa va || !globalVa (va + n - 1) then .error (s.raise causeAccess 0 0xF va)
      else
        let vas := (List.range (n / 8)).map fun i => (i, va + 8 * i)
        let trs := vas.map fun p => (p, s.tileTranslate t c k.regs.pc.toNat p.2 0 true)
        match trs.find? fun x => match x.2 with | .ok lf _ => maxCls < lf.cls | _ => true with
        | some (p, .miss) => .error (s.askWalk t c p.2 0)
        | some (_, .fault f) => .error (s.memFault f)
        | some (p, .ok lf _) => .error (s.memFault (s.faultRec t c k.regs.pc.toNat p.2 0 3 lf.level false))
        | none =>
          let es := trs.filterMap fun x => match x.2 with
            | .ok lf p => some { mkElem x.1.1 x.1.2 8 (some p) 0 0 with cls := lf.cls, page := lf.size }
            | _ => none
          if s.held ⟨0, 0⟩ es then .error s
          else
            let o := s.mkOp .load .b32 true ⟨0, 0⟩ es 63 false
            let (id, s) := s.fresh
            let s := (s.setOp id { o with aux := [1] }).waitOut 1
            let s := s.after plainTimeout .responseTimeout { tile := t, ctx := c, id := id }
            .error (s.launchOp id)
/-- A block that an instruction uses (R305, R477): each poisoned word among those that `uses` names is a use, and reads as
zero; a poisoned address makes no access and the block is zero. -/
def State.useBlock (s : State) (a n align maxCls : Nat) (uses : Nat → Bool) (f : List Word → State → State) : State :=
  if s.me.psnAny (xr a) then f (List.replicate (n / 4) 0#32) s
  else
    match s.block (s.me.rdx a).toNat n align maxCls with
    | .error s => s
    | .ok (ws, s) =>
      let bad := ((List.range ws.length).filter fun i => uses i && (ws.getD i (0#32, false)).2).length
      let ws := ws.map fun w => if w.2 then 0#32 else w.1
      if bad = 0 then f ws s
      else if s.lenient s.me.lidx then
        if s.me.counted.contains (2 ^ 48 + s.me.regs.pc.toNat) then f ws s
        else
          let s := (s.countPois s.me.lidx bad).updMe fun k => { k with counted := k.counted ++ [2 ^ 48 + k.regs.pc.toNat] }
          f ws s
      else s.poisonUse

/-! ### Box tests (R476, R477) -/

/-- +0 and +1.0 as FP32 codes. -/
def f32One : Nat := 0x3F800000
/-- a ≤ b, a < b, a ≥ b on FP32 codes; false with NaN (R330). -/
def f32Le (a b : Nat) : Bool := (fCmp .le false a b).1
/-- a < b on FP32 codes. -/
def f32Lt (a b : Nat) : Bool := (fCmp .lt false a b).1
/-- Minimum and maximum of R330. -/
def f32Min (a b : Nat) : Nat := fMinMax .f32 false false a b
/-- Maximum of R330. -/
def f32Max (a b : Nat) : Nat := fMinMax .f32 true false a b
/-- Whether a node is bad (R476). -/
def nodeBad (w : Nat → Nat) : Bool :=
  let count := w 0 % 8
  let lod := bitB (w 0) 8
  bits (w 0) 7 3 != 0 || bits (w 0) 15 9 != 0 || bits (w 0) 31 16 != 0 || w 1 != 0 || count == 0 || 4 < count ||
    (lod && count != 4)
/-- tnear and tfar of a child for a ray (R477): w are the node's words, r the ray's. -/
def childSpan (w r : Nat → Nat) (i : Nat) : Nat × Nat :=
  let axis := fun j =>
    let inv := (f32Div f32One (r (3 + j))).1
    let lo := (f32Mul (f32Sub (w (4 + 6 * i + j)) (r j)).1 inv).1
    let hi := (f32Mul (f32Sub (w (7 + 6 * i + j)) (r j)).1 inv).1
    (f32Min lo hi, f32Max lo hi)
  (f32Max (f32Max (f32Max (axis 0).1 (axis 1).1) (axis 2).1) 0, f32Min (f32Min (f32Min (axis 0).2 (axis 1).2) (axis 2).2) (r 6))
/-- floor(w × 65,536) of an FP32 code from 0 to 1. -/
def floor65536 (w : Nat) : Nat :=
  match fmtF32.val w with
  | .fin _ m e => if 0 ≤ e + 16 then m * 2 ^ (e + 16).toNat else m / 2 ^ (-(e + 16)).toNat
  | _ => 0
/-- The level-of-detail threshold (R477) from the cone spread, the nearest hit and the node's two thresholds. -/
def lodThr (spread tc t0 t1 : Nat) : Nat :=
  let w := (f32Mul spread tc).1
  let x := if f32Le t1 t0 then (if f32Le t1 w then f32One else 0) else (f32Div (f32Sub w t0).1 (f32Sub t1 t0).1).1
  let x := if !f32Le 0 x then 0 else if f32Lt f32One x then f32One else x
  floor65536 x
/-- An element placed in a list in increasing tnear, after those not above it. -/
def insertNear (i t : Nat) : List (Nat × Nat) → List (Nat × Nat)
  | [] => [(i, t)]
  | x :: xs => if f32Lt t x.2 then (i, t) :: x :: xs else x :: insertNear i t xs
/-- BOXT's result (R477) from the node's words, the ray's, and the key of the choice hashed with the seed and the ray number. -/
def boxResult (w r : Nat → Nat) (h : Nat) : Word :=
  if nodeBad w then 0x80000000#32
  else
    let lod := bitB (w 0) 8
    let spans := (List.range 4).map fun i => (i, childSpan w r i)
    let hit := spans.filter fun p => decide (p.1 < w 0 % 8) && w (28 + p.1) / 2 ^ 30 != 3 && f32Le p.2.1 p.2.2
    let coarse := lod && !hit.isEmpty &&
      decide (h % 2 ^ 16 < lodThr (r 7) ((hit.map fun p => p.2.1).foldl f32Min ((hit.map fun p => p.2.1).headD 0)) (w 2) (w 3))
    let kept := if !lod then hit else hit.filter fun p => decide (p.1 < 2) == coarse
    let order := kept.foldl (fun o p => insertNear p.1 p.2.1 o) []
    let mask := (kept.map fun p => 2 ^ p.1).sum
    let ord := ((List.range order.length).map fun i => (order.getD i (0, 0)).1 * 2 ^ (2 * i)).sum
    BitVec.ofNat 32 (mask + ord * 2 ^ 8 + lod.toNat * 2 ^ 16 + coarse.toNat * 2 ^ 17)
/-- The key of a node's level-of-detail choice (R477): its segment and offset, or zero and its address. -/
def State.lodKey (s : State) (t va : Nat) : Nat × Nat :=
  match s.scrWin t va with
  | .own off =>
    match (s.tile t).trav.segs.find? fun g => g.base ≤ off && off < g.base + 4096 * g.size with
    | some g => (g.seg, off - g.base)
    | none => (0, va % 2 ^ 32)
  | _ => (0, va % 2 ^ 32)
/-- BOXT (R477). -/
def execBoxt (d a b c : Nat) (s : State) : Out :=
  .next (s.guard .A (sr d ++ sblk a 8 ++ xr b ++ sr c) ([xr b, sr c] ++ (sblk a 8).map fun r => [r]) fun s =>
    s.useBlock b 128 128 1 (fun _ => true) fun ws s =>
      let k := s.me
      let r := fun i => if a = 63 then 0 else (k.rd (a + i)).toNat
      let w := fun i => (ws.getD i 0#32).toNat
      let (n, off) := s.lodKey s.cur.1 (k.rdx b).toNat
      let seed := (s.launch k.lidx).r.lodseed
      let h := hashW (hashW (hashW (BitVec.ofNat 32 off) (BitVec.ofNat 32 n) 0) seed 0) (k.rd c) 0
      (s.updMe fun k => k.wr d (boxResult w r h.toNat)).retire 8)

/-! ### Triangle tests (R478) -/

/-- A vector of FP32 codes. -/
structure V3 where
  x : Nat
  y : Nat
  z : Nat
  deriving DecidableEq, Repr
/-- Component-wise difference. -/
def sub3 (a b : V3) : V3 := ⟨(f32Sub a.x b.x).1, (f32Sub a.y b.y).1, (f32Sub a.z b.z).1⟩
/-- Dot product in the order of R478. -/
def dot3 (a b : V3) : Nat := (f32Add (f32Add (f32Mul a.x b.x).1 (f32Mul a.y b.y).1).1 (f32Mul a.z b.z).1).1
/-- Cross product. -/
def cross3 (a b : V3) : V3 :=
  ⟨(f32Sub (f32Mul a.y b.z).1 (f32Mul a.z b.y).1).1, (f32Sub (f32Mul a.z b.x).1 (f32Mul a.x b.z).1).1,
   (f32Sub (f32Mul a.x b.y).1 (f32Mul a.y b.x).1).1⟩
/-- One triangle against a ray with a bound: t, u and v when it is hit nearer than the bound (R478). -/
def triHit (o dir v0 v1 v2 : V3) (tb : Nat) : Option (Nat × Nat × Nat) :=
  let e1 := sub3 v1 v0
  let e2 := sub3 v2 v0
  let p := cross3 dir e2
  let det := dot3 e1 p
  if (fmtF32.val det).isNaN || (fCmp .eq false det 0).1 then none
  else
    let inv := (f32Div f32One det).1
    let sv := sub3 o v0
    let u := (f32Mul (dot3 sv p) inv).1
    let q := cross3 sv e1
    let v := (f32Mul (dot3 dir q) inv).1
    let t := (f32Mul (dot3 e2 q) inv).1
    if f32Le 0 u && f32Le 0 v && f32Le (f32Add u v).1 f32One && f32Lt 0 t && f32Lt t tb then some (t, u, v) else none
/-- TRIT (R478). -/
def execTrit (two : Bool) (d a b : Nat) (s : State) : Out :=
  .next (s.guard .A (sblk d 4 ++ sblk a 8 ++ xr b) (xr b :: (sblk a 7).map fun r => [r]) fun s =>
    s.useBlock b (if two then 96 else 48) 16 1 (fun i => decide (i % 12 < 9)) fun ws s =>
      let k := s.me
      let r := fun i => if a = 63 then 0 else (k.rd (a + i)).toNat
      let w := fun i => (ws.getD i 0#32).toNat
      let v := fun i => (⟨w i, w (i + 1), w (i + 2)⟩ : V3)
      let hit := fun j tb => triHit ⟨r 0, r 1, r 2⟩ ⟨r 3, r 4, r 5⟩ (v (12 * j)) (v (12 * j + 3)) (v (12 * j + 6)) tb
      let h0 := hit 0 (r 6)
      let h1 := if two then hit 1 (match h0 with | some x => x.1 | none => r 6) else none
      let best := match h0, h1 with
        | _, some x => some (1, x)
        | some x, none => some (0, x)
        | none, none => none
      (s.updMe fun k =>
        match best with
        | none => if d = 63 then k else k.wr d 0#32
        | some (i, t, u, v) =>
          if d = 63 then k
          else (((k.wr d (BitVec.ofNat 32 (1 + 2 * i))).wr (d + 1) (BitVec.ofNat 32 t)).wr (d + 2) (BitVec.ofNat 32 u)).wr (d + 3)
            (BitVec.ofNat 32 v)).retire 8)

/-! ### Services (R118, R119, R121, R479, R480) -/

/-- The first unit of a kind and their number (R117). -/
def svcUnits (kind : Nat) : Nat × Nat :=
  match kind with
  | 1 => (0, 4)
  | 2 => (4, 2)
  | 3 => (6, 8)
  | 4 => (14, 2)
  | _ => (0, 0)
/-- UNITSEL of a request names an index of its kind, or any (R118). -/
def selOk (w1 : Nat) : Bool := bits w1 11 8 == 15 || bits w1 11 8 < (svcUnits (w1 % 16)).2
/-- Requests that the queue of a unit holds (R117). -/
def svcDepth (u : Nat) : Nat := if u < 4 then 16 else 64
/-- Requests waiting at a unit of a die. -/
def State.svcLoad (s : State) (d u : Nat) : Nat := (s.svc.filter fun r => r.die == d && r.unit == u).length
/-- The die that a request names (R118): the issuer's, or the one of its word 1. -/
def svcDie (t w1 : Nat) : Nat := if bitB w1 15 then bits w1 13 12 else dieOf t
/-- The unit that serves a request (R119), none where no unit of its kind is present. -/
def State.svcUnit (s : State) (d w1 : Nat) : Option Nat :=
  let (first, n) := svcUnits (w1 % 16)
  let present := ((List.range n).map (first + ·)).filter fun u => !(s.die d).absent.contains u
  let sel := bits w1 11 8
  if (s.die d).leftOut then none
  else if sel == 15 then
    match present with
    | [] => none
    | u :: us => some (us.foldl (fun best v => if s.svcLoad d v < s.svcLoad d best then v else best) u)
  else if present.contains (first + sel) then some (first + sel) else present.head?
/-- Ticks of the time-out of a service request (R124). -/
def svcTimeout : Nat := 2 ^ 30 * tileTicks
/-- SVREQ (R118, R121, R479): word 0 is the issuer's, the record is reserved and SVC rises, and the request leaves on VC3. -/
def execSvreq (q a : Nat) (s : State) : Out :=
  .next (s.guard .A (xr a) [xr a] fun s =>
    s.useBlock a 64 64 2 (fun i => i != 0) fun ws s =>
      let (t, c) := s.cur
      let k := s.me
      let rq := fget s.myTile.un.replies q []
      if s.unreleased || 16 ≤ rq.length || 63 ≤ k.counter .svc then s
      else
        let (id, s) := s.flushPosted.fresh
        let w0 := BitVec.ofNat 32 (q + c * 2 ^ 3 + t % 1024 * 2 ^ 11)
        let ws := w0 :: ws.drop 1
        let w1 := (ws.getD 1 0#32).toNat
        let d := svcDie t w1
        let s := s.updUn t fun u => { u with replies := fset u.replies q (rq ++ [{ id := id, lidx := k.lidx, words := none, t := 0 }]) }
        let arg : Arg := { tile := t, ctx := c, lidx := k.lidx, id := id, die := d, words := ws, off := k.regs.pc.toNat,
                           asid := s.asidOf k.lidx, own := (s.launch k.lidx).r.txn, val := (s.launch k.lidx).tag }
        let s := s.after svcTimeout .serviceTimeout { tile := t, ctx := c, id := id, q := q }
        let s := match s.svcUnit d w1 with
          | some u => s.send (.tile t) (.service d u) 3 1 k.lidx .serviceRequest { arg with unit := u, ok := true }
          | none => s.pend .serviceRequest arg
        (s.updMe fun k => k.raiseCtr .svc id).retire 8)
/-- SVPOP (R480): the oldest record of the launch that was placed in an earlier tile cycle (R487); that of a request that has timed out is
poisoned (R124). -/
def execSvpop (q d : Nat) (s : State) : Out :=
  .next (s.guard .A (sblk d 4) [] fun s =>
    let t := s.cur.1
    let k := s.me
    let rq := fget s.myTile.un.replies q []
    let put (s : State) (ws : List Word) (bad : Bool) : State :=
      (s.updMe fun k =>
        if d = 63 then k else (List.range 4).foldl (fun (k : Ctx) i => k.wrP (d + i) (ws.getD i 0#32) bad) k).retire 8
    match rq.find? fun r => r.lidx == k.lidx && r.words.isSome && decide (r.t / tileTicks < s.now / tileTicks) with
    | some r => put (s.updUn t fun u => { u with replies := fset u.replies q (rq.filter fun x => x.id != r.id) }) (r.words.getD []) r.bad
    | none => if rq.any fun r => r.lidx == k.lidx then s else put s [0#32, 0xFF00#32, 0#32, 0#32] false)

/-! ### Launches and transactions (R188, R207, R481 to R485) -/

/-- LAUNCH (R188, R481): the record is read, sent on VC7 as four flits, and the dispatcher's answer awaited. -/
def execLaunch (d a b : Nat) (s : State) : Out :=
  .next (s.guard .A (xr d ++ xr a ++ sr b) [xr a, sr b] fun s =>
    let (t, _) := s.cur
    let k := s.me
    let q := (k.rd b).toNat
    let done (s : State) (st tag : Word) : State := (s.updMe fun k => k.wrx d (tag ++ st)).retire 8
    if 2 ^ 17 ≤ q then s.accessOp
    else if s.waited = 2 then
      match s.answered with
      | some ws => done s (ws.getD 0 0#32) (ws.getD 1 0#32)
      | none => s
    else
      s.useBlock a 256 64 2 (fun _ => true) fun ws s =>
        if s.unreleased then s
        else
          let s := s.flushPosted
          if !s.dieUp (queueDie q) then done s 1#32 0#32
          else
            (s.waitOut 2).send (.tile t) (.mgmt (queueDie q)) 7 4 k.lidx .launchMessage
              { tile := t, ctx := s.token, q := q, lidx := k.lidx, asid := s.asidOf k.lidx, words := ws })
/-- MSTONE (R173, R482): a wave waits; a path thread leaves its slot, and its packet is held outside the inbox. -/
def execMstone (s : State) : Out :=
  .next (s.guard .A [] [] fun s =>
    let l := s.me.lidx
    if isPath s.cur.2 then
      s.depart (s.me.regs.pc + 8#48) false (s.pkgOf (dieOf s.cur.1) % 256 * 1024 + s.cur.1 % 1024) fun s p =>
        (s.updTrav s.cur.1 fun v => { v with heldPk := v.heldPk ++ [p] }).pend .commitRequest { lidx := l }
    else ((s.retire 8).updMe fun k => { k with status := .mstone }).pend .commitRequest { lidx := l })
/-- TABORT (R483). -/
def execTabort (a : Nat) (s : State) : Out :=
  .next (s.guard .A (sr a) [sr a] fun s =>
    let k := s.me
    (s.retire 8).abortWith k.lidx 6 0 false s.cur.1 ((k.rd a).toNat % 2 ^ 16) false none)
/-- TSTAT (R484). -/
def execTstat (d : Nat) (s : State) : Out :=
  .next (s.guard .A (xr d) [] fun s => (s.updMe fun k => k.wrx d (s.launch k.lidx).tstat).retire 8)
/-- PREPT (R207, R485): with a tier-1 request open the wave stops once its counters but CPY are zero, its attached instructions
have completed and its gang's array work is done. -/
def execPrept (a l8 : Nat) (s : State) : Out :=
  .next (if s.me.regs.q < 8 * l8 then s.illegal
    else s.guard .W (sr a) [] fun s =>
      let (t, c) := s.cur
      let k := s.me
      let x := s.launch k.lidx
      if x.tier ≠ 1 then s.retire 8
      else
        s.useThen (k.poisonedUses [sr a]) fun s =>
          let idle := [Ctr.gld, .gst, .scr, .mtx, .svc].all fun n => k.counter n == 0
          let gangBusy := (s.tile t).queuedAll.any fun p => p.1 == c || (k.gang.isSome && ((s.tile t).ctx p.1).gang == k.gang)
          if !idle || !k.attachedDone || gangBusy then s
          else
            let map := match k.gang with | some g => (s.tile t).mx.accmap g | none => 0
            let s := (s.retire 8).updMe fun k =>
              { k with status := .stopped, live := 8 * l8, liveAcc := Nat.land ((k.rd a).toNat % 2 ^ 16) map }
            s.pend .switchOut { lidx := k.lidx })

end Sys2Proof.Machine
end

