-- ==== Sys2Proof/Machine/Arrivals.lean ====
section
/-! DEFINITION. Thread packets arriving at a tile: its inbox, lay-by and slots, class tables, credits and hit records (R54 to R57, R138,
R196, R213 to R218, R228, R237, R238). -/
namespace Sys2Proof.Machine

/-! ### Capacity (R54 to R56, R138) -/

/-- Packets of one extent (R55). -/
def extentSize : Nat := 1024
/-- The lay-by table entry of a tile (R138). -/
def State.laybyEntry (s : State) (t : Nat) : Nat :=
  (fget (s.die (dieOf t)).bar0.layby (locY t * 16 + locX t) 0xF0000000000000000#128).toNat
/-- Extents that a tile owns (R55, R138). -/
def State.ownExtents (s : State) (t : Nat) : Nat :=
  let e := s.laybyEntry t
  if bitB e 72 then bits e 71 64 + 1 else 0
/-- Extents that the places of a tile's lay-by fill. -/
def Travel.usedExtents (v : Travel) : List (Nat × Nat) := (v.laid.map fun p => (p.1, p.2 / extentSize)).eraseDups
/-- The packet capacity of a tile (R56). -/
def State.packetCap (s : State) (t : Nat) : Nat := (s.tile t).inboxCap + s.ownExtents t * extentSize

/-! ### Slots (R196, R214) -/

/-- User slots of a tile. -/
def userSlots : Nat := 30
/-- The path threads of a tile in user slots. -/
def Tile.threads (x : Tile) : List (Nat × Ctx) :=
  x.ctxs.filter fun p => 192 ≤ p.1 && p.1 < 192 + userSlots && p.2.status != .idle
/-- Slots reserved by launches (R195). -/
def Tile.reservedSlots (x : Tile) : Nat := (x.shares.map (·.pslots)).sum
/-- Whether a slot is free for a packet of a launch (R196): none, one of its reservation, or an open one.  A reservation admitted while open
threads held the slots has them as they leave. -/
def Tile.slotFor (x : Tile) (l : Nat) : Option Bool :=
  let mine := (x.threads.filter fun p => p.2.lidx == l && !p.2.hdr.opn).length
  let openUsed := (x.threads.filter fun p => p.2.hdr.opn).length
  let reserved := match x.share? l with | some h => h.pslots | none => 0
  if userSlots ≤ x.threads.length then none
  else if mine < reserved then some false
  else if openUsed + x.reservedSlots < userSlots then some true
  else none
/-- Whether a packet may start now (R196, R214, R215, R230): its launch runs, its class table has been read, its segment is
filled and is not being evicted, and a slot is free. -/
def State.canStart (s : State) (t : Nat) (p : Packet) : Bool :=
  let x := s.tile t
  (s.launch p.lidx).run == 1 && s.indexLive p.lidx &&
  (match x.share? p.lidx with | some h => h.classes.isSome | none => false) &&
  (!p.dkind || x.trav.segs.any fun g => g.seg == p.dest && g.ready && !g.leaving) && (x.slotFor p.lidx).isSome
/-- A packet's thread starts in a slot (R214, R215, R232). -/
def State.startThread (s : State) (t : Nat) (p : Packet) : State :=
  let x := s.tile t
  match x.slotFor p.lidx, (List.range userSlots).find? fun i => (x.ctx (192 + i)).status == .idle with
  | some opn, some i =>
    let c := 192 + i
    let entry := if p.res then (s.launch p.lidx).r.entry + 2 ^ 48 * 2 + 2 * p.rpc.toInt.toNat - 2 * (-p.rpc.toInt).toNat
      else ((x.share? p.lidx).bind fun h => h.classes.bind fun cl => cl[p.cls]?).getD 0
    let bad := !p.res && (entry == 0 || entry % 2 == 1)
    let pc := BitVec.ofNat 48 entry
    let regs := { Regs.init with pc := pc, pw := p.pw, s := (List.range 10).foldl (fun m i => fset m i (p.s.getD i 0#32)) [] }
    let hdr : Header :=
      { thread := p.thread, seq := p.seq, opkg := p.opkg, otile := p.otile, cls := p.cls, seg := if p.dkind then p.dest else 0,
        opn := opn }
    let s := s.setCtx t c { Ctx.init with status := .ready, lidx := p.lidx, regs := regs, hdr := hdr }
    let s := if p.dkind then
        s.updTrav t fun v => { v with segs := v.segs.map fun g => if g.seg == p.dest then { g with use := s.now } else g }
      else s
    if bad then s.trap t c causeIllegal 0 0 pc.toNat none else s
  | _, _ => s
/-- Packets of an inbox start, oldest first among those that a free slot can take (R54, R196); packets of an index that no launch
holds are discarded (R213). -/
def State.claimSlots (s : State) (t : Nat) : Nat → State
  | 0 => s
  | n + 1 =>
    let s := s.updTrav t fun v => v.keep fun p => s.indexLive p.lidx
    match (s.tile t).trav.inbox.find? fun p => s.canStart t p with
    | none => s
    | some p =>
      State.claimSlots ((s.updTrav t fun v =>
        { v with inbox := v.inbox.erase p, inAt := v.inAt.eraseIdx (v.inbox.findIdx (· == p)) }).startThread t p) t n
/-- The inbox refills from the lay-by once its fill is below half, and borrowed extents that are empty go back (R54, R55). -/
def State.refillCheck (s : State) (t : Nat) : State :=
  let x := s.tile t
  let s := if !x.trav.layby.isEmpty && 2 * x.trav.inbox.length < x.inboxCap then s.pend .inboxRefill { tile := t } else s
  if x.trav.extents.all x.trav.usedExtents.contains then s else s.pend .extentReturn { tile := t }
/-- The next free place of a tile's lay-by (R55): in its own extents first, then in those that it has borrowed. -/
def State.laybyPlace (s : State) (t : Nat) : Option (Nat × Nat) :=
  let v := (s.tile t).trav
  let own := ((List.range (s.ownExtents t)).map fun e => (t, e)).filter fun e => !s.lent.any fun l => l.1 == e
  (own ++ v.extents).findSome? fun e =>
    ((List.range extentSize).find? fun i => !v.laid.contains (e.1, e.2 * extentSize + i)).map fun i => (e.1, e.2 * extentSize + i)
/-- The physical address of a place of a lay-by (R55, R138). -/
def State.laybyAddr (s : State) (p : Nat × Nat) : Nat := bits (s.laybyEntry p.1) 51 16 * 65536 + 64 * p.2
/-- Packets that wait in a tile's network interface are written to its lay-by on VC0, as far as there is room (R54); for the others an
extent is claimed (R55). -/
def State.spill (s : State) (t : Nat) : Nat → State
  | 0 => s
  | n + 1 =>
    let v := (s.tile t).trav
    match v.layby[v.laid.length]?, s.laybyPlace t with
    | some p, some at_ =>
      let s := s.updTrav t fun v => { v with laid := v.laid ++ [at_] }
      let a := s.laybyAddr at_
      let s := match s.poolKey 0 0 a with
        | none => s
        | some k =>
          s.send (.tile t) (.slice (sliceTile (dieOf t) a)) 0 2 p.lidx .memoryWrite
            { tile := t, die := dieOf t, line := a, off := k, width := 64, data := leBytes 64 (packetImage p) }
      State.spill s t n
    | some _, none => if v.claiming then s else s.pend .extentClaim { tile := t }
    | none, _ => s
/-- SLOT_CLAIM (R196). -/
def execSlotClaim (s : State) : Out := .next ((s.claimSlots s.arg.tile userSlots).refillCheck s.arg.tile)
/-- INBOX_REFILL (R54). -/
def execInboxRefill (s : State) : Out :=
  let t := s.arg.tile
  let x := s.tile t
  .next (if x.inboxCap ≤ 2 * x.trav.inbox.length then s
    else
      let n := x.inboxCap - x.trav.inbox.length
      let ps := x.trav.layby.take n
      let s := s.updTrav t fun v => { v with layby := v.layby.drop n, laid := v.laid.drop n }
      let s := ps.foldl (fun s p => s.inboxPut t p) s
      ((s.claimSlots t userSlots).refillCheck t).spill t x.trav.layby.length)
/-- Where management firmware keeps the free list of extents (R55): DESIGN CHOICE (log 67), controller 0 of die 0. -/
def freeList : Place := .memctl 0 0
/-- The extent that a claim is given (R55): the first free one of the lowest-numbered tile in service that has one. -/
def State.freeExtent (s : State) : Option (Nat × Nat) :=
  (((List.range 1024).filter fun t => s.dieUp (dieOf t)).findSome? fun t =>
    ((List.range (s.ownExtents t)).find? fun e =>
      !(s.lent.any fun l => l.1 == (t, e)) && !(s.tile t).trav.usedExtents.contains (t, e)).map fun e => (t, e))
/-- EXTENT_CLAIM (R55): a tile's claim goes to the free list on VC0, the answer comes back on VC1.  DESIGN CHOICE (log 67): a claim that finds
no free extent is made again 64 tile cycles after its answer. -/
def execExtentClaim (s : State) : Out :=
  let a := s.arg
  let t := a.tile
  let v := (s.tile t).trav
  .next (if a.last then
      let answer := fun (s : State) (ok : Nat) (e : Nat × Nat) =>
        s.send freeList (.tile t) 1 1 orphanLaunch .extentClaim { tile := t, ok := true, val := ok, idx := e.1, off := e.2 }
      match s.freeExtent with
      | none => answer s 0 (0, 0)
      | some e => answer { s with lent := s.lent ++ [(e, t)] } 1 e
    else if a.ok then
      let s := s.updTrav t fun v => { v with claiming := false, extents := if a.val == 1 then v.extents ++ [(a.idx, a.off)] else v.extents }
      if a.val == 1 then s.spill t v.layby.length else s.after (64 * tileTicks) .extentClaim { tile := t }
    else if v.claiming || v.layby.length ≤ v.laid.length then s
    else (s.updTrav t fun v => { v with claiming := true }).send (.tile t) freeList 0 1 orphanLaunch .extentClaim { tile := t, last := true })
/-- EXTENT_RETURN (R55): the first borrowed extent that is empty goes back to the free list on VC0.  DESIGN CHOICE (log 67): extents go back in
the order in which they were borrowed. -/
def execExtentReturn (s : State) : Out :=
  let a := s.arg
  let t := a.tile
  let v := (s.tile t).trav
  .next (if a.last then
      { s with lent := s.lent.filter fun l => l != ((a.idx, a.off), t) }.send freeList (.tile t) 1 1 orphanLaunch .extentReturn { tile := t, ok := true }
    else if a.ok then s
    else
      match v.extents.find? fun e => !v.usedExtents.contains e with
      | none => s
      | some e =>
        ((s.updTrav t fun v => { v with extents := v.extents.filter (· != e) }).send (.tile t) freeList 0 1 orphanLaunch .extentReturn
          { tile := t, last := true, idx := e.1, off := e.2 }).refillCheck t)

/-! ### Arrival (R54, R196, R213, R215, R228) -/

/-- A sample of the tile's queued packets is due (R230, R231), at the next boundary of 1,024 mesh cycles. -/
def State.armSample (s : State) (t : Nat) : State :=
  let p := 1024 * meshTicks
  if s.timers.any fun e => e.2.what == .pressureSample && e.2.arg.tile == t then s
  else s.after (p - s.now % p) .pressureSample { tile := t }
/-- A launch's class table is wanted on a tile (R215): its share, that of a guest outside the set, and the read. -/
def State.wantClasses (s : State) (t l : Nat) : State :=
  match (s.tile t).share? l with
  | some _ => s
  | none =>
    (s.updTile t fun x =>
      { x with shares := x.shares ++ [{ lidx := l, lbase := 0, lsize := 0, acc := 0, pslots := 0, packets := 0, credits := 0,
                                        creditQ := [], classes := none, viol := 0, ended := false, started := true,
                                        guest := true, waves := 0, grans := 0, away := false }] }).pend .classTableRead { tile := t, lidx := l }
/-- A packet taken in at a tile: into a slot, the inbox or the lay-by (R54). -/
def State.takeIn (s : State) (t : Nat) (p : Packet) : State :=
  let s := (s.wantClasses t p.lidx).claimSlots t userSlots
  let x := s.tile t
  if x.trav.layby.isEmpty && s.canStart t p then s.startThread t p
  else if x.trav.layby.isEmpty && x.trav.inbox.length < x.inboxCap then
    (s.inboxPut t p).armSample t
  else
    let s := (s.updTrav t fun v => { v with layby := v.layby ++ [p] }).armSample t
    (s.spill t (x.trav.layby.length + 1)).refillCheck t
/-- THREAD_PACKET_ARRIVAL (R54, R196, R213, R214, R228). -/
def execThreadPacketArrival (s : State) : Out :=
  let t := s.arg.tile
  let p := s.arg.packet
  .next (if !s.indexLive p.lidx then s
    else if p.dkind && !(s.tile t).trav.segs.any fun g => g.seg == p.dest then
      let h := s.segHome p.dest
      if h == t then s.pend .segmentForward { tile := h, packet := p, who := (t, noCtx) }
      else s.send (.tile t) (.tile h) 5 1 p.lidx .segmentForward { tile := h, packet := p, who := (t, noCtx) }
    else s.takeIn t p)

/-! ### Class tables (R215) -/

/-- The places of a class table's entries as far as they can be translated, or the address that stops the read. -/
def State.readClasses (s : State) (t l base : Nat) : Nat → Except (Tr × Nat) (List Loc)
  | 0 => .ok []
  | n + 1 =>
    match s.readClasses t l base n with
    | .error e => .error e
    | .ok es =>
      let va := base + 8 * n
      match s.translateFor l t 255 0 va 0 true with
      | .ok _ p => .ok (es ++ [p])
      | r => .error (r, va)
/-- CLASS_TABLE_READ (R215): once for the launch on the tile, through its die's slices; a fault writes a record with CTX 255 and waits for its answer. -/
def execClassTableRead (s : State) : Out :=
  let t := s.arg.tile
  let l := s.arg.lidx
  let x := s.launch l
  .next (match (s.tile t).share? l with
    | none => s
    | some h =>
      if h.classes.isSome || h.ended || !s.indexLive l then s
      else if x.r.classtab == 0 then
        (s.updTile t fun y => y.updShare l fun h => { h with classes := some [] }).pend .slotClaim { tile := t }
      else
        match s.readClasses t l x.r.classtab 64 with
        | .ok ps =>
          let d := dieOf t
          match s.linesFor d ((ps.flatMap fun p => placeLines p 8 false).eraseDups) ⟨.classTableRead, s.arg⟩ with
          | (false, s) => s
          | (true, s) =>
            let es := ps.map fun p => if s.placeDead p then 0 else (s.agentRead d p 8).1
            (s.updTile t fun y => y.updShare l fun h => { h with classes := some es }).pend .slotClaim { tile := t }
        | .error (.miss, va) =>
          (s.askWalkFor (s.asidOf l) t va 0).after tileTicks .classTableRead { tile := t, lidx := l }
        | .error (.fault f, _) =>
          let s := s.dropXfault t f
          match s.fileFault x.queue f with
          | (.at _ _, s) => if f.kind == 3 then s.abortLaunch l 3 f.va false t else s
          | (.full, s) => s.after (1024 * tileTicks) .classTableRead { tile := t, lidx := l }
          | (.dead, s) => s.abortLaunch l 3 f.va false t
        | .error _ => s)

/-! ### Credits (R216 to R218) -/

/-- The asker of a message: its tile, coded for another package where it came through a port. -/
def askerOf (a : Arg) : Nat × Nat := if a.req == 1 then (foreignTile a.idx a.who.1, a.who.2) else a.who
/-- A grant on VC7 to a waiting context: at once on its own tile. -/
def State.grantTo (s : State) (t : Nat) (w : Nat × Nat) (i : Instr) (l : Nat) : State :=
  let a : Arg := { tile := w.1 % 1024, ctx := w.2, lidx := l, ok := true }
  if w.1 == t then s.answer t w.2 []
  else if w.1 < 1024 then s.send (.tile t) (.tile w.1) 7 1 l i a
  else (s.sendOut t (w.1 / 1024 - 1) 7 1 l i a).getD s
/-- The credits of a tile's share are granted in request order (R217). -/
def State.serveCredits (s : State) (t l : Nat) : State :=
  match (s.tile t).share? l with
  | some h =>
    match h.creditQ with
    | w :: rest =>
      if h.credits == 0 then s
      else (s.updTile t fun x => x.updShare l fun h => { h with credits := h.credits - 1, creditQ := rest }).grantTo t w .creditRequest l
    | [] => s
  | none => s
/-- CREDIT_REQUEST (R217): a request at an OTILE joins its queue, and a grant reaches the waiting context. -/
def execCreditRequest (s : State) : Out :=
  let a := s.arg
  .next (if a.ok then s.answer a.tile a.ctx []
    else (s.updTile a.tile fun x => x.updShare a.lidx fun h => { h with creditQ := h.creditQ ++ [(askerOf a)] }).serveCredits a.tile a.lidx)
/-- CREDIT_RETURN_MESSAGE (R217, R218). -/
def execCreditReturnMessage (s : State) : Out :=
  let a := s.arg
  .next (((s.updTile a.tile fun x => x.updShare a.lidx fun h => { h with credits := h.credits + 1 }).serveCredits a.tile a.lidx).pend .commitRequest { lidx := a.lidx })

/-! ### Hits (R238) -/

/-- HIT_RESERVATION (R238). -/
def execHitReservation (s : State) : Out :=
  let a := s.arg
  .next (if a.ok then s.answer a.tile a.ctx [] else s.askHit a.tile (askerOf a))
/-- HIT_RECORD_ARRIVAL (R213, R238): into its reserved space; a record of an index that no launch holds is discarded. -/
def execHitRecordArrival (s : State) : Out :=
  let a := s.arg
  let keep := s.indexLive (hitLidx a.words)
  .next (let s := s.updTrav a.tile fun v => { v with hitRes := v.hitRes - 1 }
         if keep then s.hitPut a.tile a.words else s.grantHits a.tile 1)

/-! ### Launch indexes (R213) -/

/-- INDEX_CONFIRMATION (R213). -/
def execIndexConfirmation (s : State) : Out :=
  let a := s.arg
  .next (match fget? s.freed a.lidx with
    | none => s
    | some ts =>
      let left := ts.filter (· != a.tile)
      if left.isEmpty then { s with freed := fdel s.freed a.lidx }.redispatch
      else { s with freed := fset s.freed a.lidx left })

end Sys2Proof.Machine
end

