-- ==== Sys2Proof/Machine/Coherence.lean ====
section
/-! DEFINITION. Token coherence: slices and their directories, L1 copies, homes and tokens, persistent requests, evacuation and
recreation, and the accesses that the slices perform (R87 to R116, R160 to R162, R165, R444).  The bytes of a device line lie in one
map, since the protocol keeps every copy equal; tokens, states and marks decide when an access may read or write them. -/
namespace Sys2Proof.Machine

/-! ### Places (R16, R87, R103) -/

/-- The home of a line, as a place. -/
def homePlace (line : Nat) : Place := .memctl (lineDie line) (lineCtl line)
/-- The arbiter of a line, as a place (R103). -/
def arbPlace (line : Nat) : Place := .memctl (lineDie line) (lineCtl line / 4 * 4)
/-- The unit of a die that keeps its credits of a line's arbiter (R103): the die's own unit 4j. -/
def creditPlace (d line : Nat) : Place := .memctl d (lineCtl line / 4 * 4)
/-- The arbiter of a line. -/
def State.arbOf (s : State) (line : Nat) : Arbiter := fget s.arbs (lineArb line) Arbiter.init
/-- The requester of the persistent request that is active for a line (R104), or 4 while a census has it (R109). -/
def State.persistentFor (s : State) (line : Nat) : Option Nat :=
  let a := s.arbOf line
  if a.walk == 1 && (a.census.head?.map (·.1)) == some line then some 4
  else
    match a.table with
    | (d, l) :: _ => if a.phase == 1 && l == line then some d else none
    | [] => none

/-! ### L1 copies (R89 to R94, R160) -/

/-- The least recently used of a list of keys with the order of their last use. -/
def leastUsed : List (Nat × Nat) → Option Nat
  | [] => none
  | (k, u) :: rest =>
    match leastUsed rest, rest.find? fun p => some p.1 == leastUsed rest with
    | some j, some q => if q.2 < u then some j else some k
    | _, _ => some k
/-- A line enters a tile's L1, or changes there, as the most recently used of its set of 20 ways, from which the least recently used goes
(R89). -/
def State.intoL1 (s : State) (t key : Nat) (x : L1Line) : State :=
  let (n, s) := s.fresh
  let s := s.setL1 t key { x with use := n }
  let set := fun (k : Nat) => s.keyAddr k / 64 % 256
  let same := (s.tile t).un.l1.filter fun p => p.2.st != 0 && set p.1 == set key
  if same.length ≤ 20 then s
  else
    match leastUsed (same.map fun p => (p.1, p.2.use)) with
    | some k => s.pend .l1Eviction { tile := t, line := k }
    | none => s
/-- A line of a die's slice enters a tile's L1, or gains a sector there (R89, R92, R94): E where the slice holds 4 tokens and no other L1
holds it. -/
def State.fillL1 (s : State) (t line : Nat) (sec : BitVec 2) (mark : Option Nat) : State :=
  let d := dieOf t
  let x := s.l1 t line
  let y := s.sliceLine d line
  let st := if x.st != 0 then x.st else if isDev line && y.tok == 4 && y.dstate == 0 then 2 else 1
  let s := s.intoL1 t line { x with st := st, valid := x.valid ||| sec, mark := if mark.isSome then mark else x.mark }
  if x.st != 0 then s
  else
    s.updSlice d line fun y =>
      { y with dstate := if st == 2 then 2 else max y.dstate 1, owner := if st == 2 then locY t * 16 + locX t else y.owner,
               sharers := y.sharers ||| BitVec.twoPow 64 (clusterOf t) }
/-- A line enters a tile's instruction cache of 1,024 lines, a sharer under the directory (R2, R341); the oldest line makes room (log 17). -/
def State.fillIc (s : State) (t line : Nat) : State :=
  let s := s.updUn t fun u =>
    let l := u.ic.filter (· != line) ++ [line]
    { u with ic := if 1024 < l.length then l.drop 1 else l }
  s.updSlice (dieOf t) line fun y => { y with dstate := max y.dstate 1, sharers := y.sharers ||| BitVec.twoPow 64 (clusterOf t) }
/-- The tiles of the clusters that a directory marks (R91). -/
def SliceLine.marked (y : SliceLine) (d : Nat) : List Nat :=
  ((List.range 64).filter y.sharers.getLsbD).flatMap fun c =>
    [0, 1, 2, 3].map fun i => tileAt d (c % 8 * 2 + i % 2) (c / 8 * 2 + i / 2)
/-- The tile of a directory's OWNER (R91). -/
def SliceLine.ownerTile (y : SliceLine) (d : Nat) : Nat := tileAt d (y.owner % 16) (y.owner / 16)
/-- What an access asks of the L1 copies of a line: nothing; the sectors of an M, E or O holder other than a tile; the newest data in the
slice; or no copy but a tile's. -/
inductive Clear where
  | none
  | share (t : Nat)
  | recall
  | only (t : Option Nat)
  deriving DecidableEq, Repr
/-- The messages to L1s that this takes, by the directory (R91, R92): an invalidation goes to every tile of each marked cluster; one for a
unit or an atomic recalls the newest data first. -/
def SliceLine.clearing (y : SliceLine) (d : Nat) : Clear → List (Instr × Nat)
  | .none => []
  | .share t => if 2 ≤ y.dstate && y.ownerTile d != t && !(y.dstate == 3 && y.supplied) then [(.l1ShareRequest, y.ownerTile d)] else []
  | .recall => if 2 ≤ y.dstate then [(.l1Recall, y.ownerTile d)] else []
  | .only (some t) =>
    if y.dstate == 0 || (y.dstate == 2 && y.ownerTile d == t) then [] else ((y.marked d).filter (· != t)).map fun u => (.l1Invalidate, u)
  | .only Option.none =>
    if 2 ≤ y.dstate then [(.l1Recall, y.ownerTile d)]
    else if y.dstate == 0 then [] else (y.marked d).map fun u => (.l1Invalidate, u)
/-- The messages are sent on VC0, and the line waits for their acknowledgements (R91, R97). -/
def State.clearCopies (s : State) (d line : Nat) (but : Option Nat) (ms : List (Instr × Nat)) : State :=
  let s := s.updSlice d line fun y => { y with acks := ms.map (·.2), but := but }
  ms.foldl (fun s m => s.send (s.slicePlace d line) (.tile m.2) 0 1 orphanLaunch m.1 { tile := m.2, die := d, line := line }) s
/-- What a step of a slice needs of the L1 copies of a line before it can be taken: whether it is so, or the state in which the step's
event waits for the acknowledgements (R93, R97). -/
def State.copiesFor (s : State) (d line : Nat) (c : Clear) (ev : Event) : Bool × State :=
  let y := s.sliceLine d line
  let ms := y.clearing d c
  if y.acks.isEmpty && ms.isEmpty then (true, s)
  else
    let s := s.updSlice d line fun y => { y with waits := if y.waits.contains ev then y.waits else y.waits ++ [ev] }
    (false, if y.acks.isEmpty then s.clearCopies d line none ms else s)

/-! ### Tokens on their way (R97, R100, R101, R104, R108) -/

/-- Tokens sent to a die's slice on VC1, with data where some come along. -/
def State.sendTokens (s : State) (src : Place) (d line tok : Nat) (own data : Bool) : State :=
  if tok == 0 then s
  else s.send src (s.slicePlace d line) 1 (if data then 2 else 1) orphanLaunch .tokenArrival
    { tile := sliceTile d (s.keyAddr line), die := d, line := line, tok := tok, own := own, ok := data }
/-- Tokens returned to the home on VC1 (R97). -/
def State.returnTokens (s : State) (d line tok : Nat) (own last : Bool) : State :=
  s.send (s.slicePlace d line) (homePlace line) 1 (if own then 2 else 1) orphanLaunch .tokenReturn
    { die := d, line := line, tok := tok, own := own, last := last }
/-- A die's tokens of a line leave: to another die, or home (R97, R104). -/
def State.passOn (s : State) (d line : Nat) (to_ : Option Nat) (tok : Nat) (own last : Bool) : State :=
  if tok == 0 then s
  else
    match to_ with
    | some 4 | none => s.returnTokens d line tok own last
    | some r => s.sendTokens (s.slicePlace d line) r line tok own own
/-- A die's holding of a line given up, every L1 copy of it on the die gone (R93, R97, R104). -/
def State.giveUp (s : State) (d line : Nat) (to_ : Option Nat) (last : Bool) : State :=
  let y := s.sliceLine d line
  let s := s.dropL1s d line
  (s.updSlice d line fun y => { y with tok := 0, own := false, dv := false }).passOn d line to_ y.tok y.own last
/-- The transient request of a slice for a line, for a launch's access (R101, R102): sent and timed, unless one is under way that asks for
as much. -/
def State.askTokens (s : State) (d line l : Nat) (write : Bool) : State :=
  let y := s.sliceLine d line
  if y.want == some true || y.want == some write || 2 ≤ y.pers then s
  else
    let (n, s) := s.fresh
    let s := s.updSlice d line fun y => { y with want := some write, tries := 1, since := s.now, att := n }
    (s.send (s.slicePlace d line) (homePlace line) 0 1 orphanLaunch .transientRequest
      { die := d, req := d, line := line, write := write, lidx := l }).after (1024 * meshTicks) .transientRetry
      { die := d, line := line, val := n, lidx := l }

/-! ### Performing accesses at a slice (R92, R96, R101, R112, R154, R162, R165) -/

/-- The permission a lane needs at its slice. -/
inductive Need where
  | none | read | write
  deriving DecidableEq, Repr
/-- The permission of a lane (R101, R112, R154, R155, R164): none for HOST, for a shadow line and for cache control. -/
def State.laneNeed (s : State) (o : Op) (e : Elem) : Need :=
  match e.loc with
  | some (.dev k a) =>
    match o.kind, s.shTag o.lidx e.cls with
    | .load, some g => if (s.shLine? g (.dev k a)).isSome then .none else .read
    | .atom, some g => if (s.shLine? g (.dev k a)).isSome then .none else .read
    | .store, some _ | .red, some _ => .none
    | .load, none | .pref, _ | .fetch, _ => .read
    | .store, none | .atom, none | .red, none => .write
    | _, _ => .none
  | _ => .none
/-- The die whose slice serves a lane. -/
def State.laneDie (s : State) (o : Op) (e : Elem) : Option Nat := (s.sliceOf o e).map dieOf
/-- What a lane asks of the other L1 copies of its line (R92, R112, R289): a store, the HOST one too, that there is no other; an atomic that
there is none; a read the sectors of an M, E or O holder, an instruction fetch those of its own tile's L1 too; CFLUSH, and CINV of a HOST line, that there is none. -/
def State.laneClear (s : State) (o : Op) (e : Elem) : Clear :=
  match o.kind, s.laneNeed o e, e.loc with
  | .store, _, _ => if (s.shTag o.lidx e.cls).isSome then .none else .only (some o.tile)
  | .atom, .write, _ | .red, .write, _ => .only Option.none
  | .cflush, _, some (.dev ..) | .cinv, _, some (.host ..) => .only Option.none
  | .fetch, _, _ => .share 1024
  | _, .read, _ => .share o.tile
  | _, _, _ => .none
/-- Whether a lane would change a read signature of its launch: a load, an atomic, a reduction, or a store that turns a delta line into a
shadow line (R158, R164). -/
def State.laneReads (s : State) (o : Op) (e : Elem) : Bool :=
  match o.kind, e.loc with
  | .load, _ | .atom, _ | .red, _ => true
  | .store, some p => (match s.shTag o.lidx e.cls with
      | some g => (match s.shLine? g p with | some x => !x.delta.isEmpty | none => false)
      | none => false)
  | _, _ => false
/-- The tokens that a lane needs are there (R100). -/
def State.laneTokens (s : State) (o : Op) (e : Elem) (d line : Nat) : Bool :=
  let y := s.sliceLine d line
  match s.laneNeed o e with
  | .none => true
  | .read => decide (1 ≤ y.tok) && y.dv
  | .write => y.tok == 4 && y.dv
/-- No other slot's commit holds the line (R165). -/
def State.laneUnlocked (s : State) (o : Op) (d line : Nat) : Bool :=
  match (s.sliceLine d line).lock with
  | none => true
  | some k => (s.launch o.lidx).slot == some k
/-- Whether a lane may be performed now at its slice. -/
def State.laneOk (s : State) (o : Op) (e : Elem) (d line : Nat) : Bool :=
  let y := s.sliceLine d line
  s.laneUnlocked o d line && y.acks.isEmpty && y.waits.isEmpty && y.kept.isNone && s.laneTokens o e d line &&
    !(s.laneReads o e && (match e.loc with | some p => s.shelterHeld o.lidx e.cls (addrOf p) | none => false)) &&
    (y.clearing d (s.laneClear o e)).isEmpty
/-- What a lane that may not be performed yet makes its slice ask for (R92, R101). -/
def State.laneAsk (s : State) (o : Op) (e : Elem) (d line : Nat) : State :=
  let y := s.sliceLine d line
  if !s.laneUnlocked o d line || !y.acks.isEmpty || !y.waits.isEmpty then s
  else if !s.laneTokens o e d line then s.askTokens d line o.lidx (s.laneNeed o e == .write)
  else
    match y.clearing d (s.laneClear o e) with
    | [] => s
    | ms => s.clearCopies d line (match s.laneClear o e with | .only t => t | _ => none) ms
/-- A line is in use by its slice: held with tokens, or a HOST line held there (R95). -/
def State.present (s : State) (d line : Nat) : Bool :=
  if isDev line then (s.sliceLine d line).tok != 0 else (fget? (s.die d).hostHeld (line - 2 ^ 50)).isSome
/-- A slice's set with more lines than its ways, shadow lines among them, gives up the least recently used one that holds no MSHR and no
lock (R95, R97, R154). -/
def State.crowded (s : State) (d line : Nat) : State :=
  let set := sliceSet (s.keyAddr line)
  let same := (s.die d).slice.filter fun p => s.present d p.1 && sliceSet (s.keyAddr p.1) == set
  if same.length + (s.setLines d (s.keyAddr line)).length ≤ 16 then s
  else
    match leastUsed ((same.filter fun p =>
        p.2.linked.isEmpty && p.2.lock.isNone && p.2.waits.isEmpty && p.2.kept.isNone && p.1 != line).map fun p => (p.1, p.2.use)) with
    | some l => s.pend .sliceEviction { die := d, line := l }
    | none => s
/-- A line of a slice is the most recently used of its set (R95). -/
def State.touchLine (s : State) (d line : Nat) : State :=
  let (n, s) := s.fresh
  s.updSlice d line fun y => { y with use := n }
/-- What a lane performed at its slice does to the L1 copies and the directory (R92, R155, R160): the copy that it leaves in the issuer's
L1, of the line or of the slot's version of it. -/
def State.slicedCopy (s : State) (d : Nat) (o : Op) (e : Elem) (p : Loc) : State :=
  let line := lineKeyOf p
  let sec := sectorOf (addrOf p)
  let mark := s.markOf o.lidx e.cls
  let ver := match s.shTag o.lidx e.cls with
    | some g => if (s.shLine? g p).isSome then some g else none
    | none => none
  match o.kind, ver with
  | .load, none => s.fillL1 o.tile line sec mark
  | .load, some g =>
    let key := l1Key (some g) line
    let x := s.l1 o.tile key
    let s := { s with tiles := s.tiles.map fun (q : Nat × Tile) =>
      if q.1 == o.tile then q
      else (q.1, { q.2 with un := { q.2.un with l1 := q.2.un.l1.map fun (z : Nat × L1Line) => if z.1 == key && z.2.st == 4 then (z.1, { z.2 with st := 3 }) else z } }) }
    s.intoL1 o.tile key { x with st := if x.st == 0 then 1 else x.st, valid := x.valid ||| sec, mark := if mark.isSome then mark else x.mark }
  | .store, some g =>
    let key := l1Key (some g) line
    let s := { s with tiles := s.tiles.map fun (q : Nat × Tile) =>
      if q.1 == o.tile then q else (q.1, { q.2 with un := { q.2.un with l1 := fdel q.2.un.l1 key } }) }
    let x := s.l1 o.tile key
    s.intoL1 o.tile key { x with st := 4, valid := x.valid ||| sec, dirty := x.dirty ||| sec }
  | .atom, some g | .red, some g =>
    { s with tiles := s.tiles.map fun (q : Nat × Tile) => (q.1, { q.2 with un := { q.2.un with l1 := fdel q.2.un.l1 (l1Key (some g) line) } }) }
  | .store, none =>
    if !isDev line then s
    else
      let x := s.l1 o.tile line
      let s := s.updUn o.tile fun u => { u with ic := u.ic.filter (· != line) }
      (s.intoL1 o.tile line { x with st := 4, valid := x.valid ||| sec, dirty := x.dirty ||| sec, mark := none }).updSlice d line fun y =>
        { y with dstate := 2, owner := locY o.tile * 16 + locX o.tile, sharers := BitVec.twoPow 64 (clusterOf o.tile) }
  | _, _ => s
/-- One lane performed at its slice, with what it does to the L1 copies and the directory (R92, R114, R155, R162, R289, R444). -/
def State.slicePerform (s : State) (d : Nat) (o : Op) (e : Elem) : Elem × State :=
  match e.loc with
  | none => (e, s)
  | some p =>
    let line := lineKeyOf p
    let s := match o.kind, s.shTag o.lidx e.cls with
      | .store, some g | .atom, some g | .red, some g => s.clearForShadow o.lidx g p
      | _, _ => s
    let writes := s.laneNeed o e == .write
    let bad := match p with | .dev .. => s.linePoison line | _ => false
    let (e, s) := s.perform o e
    let s := match o.kind with
      | .atom | .red => if bad || e.rpois != 0#2 then s.atomLane o e else s
      | _ => s
    let s := (s.touchLine d line).slicedCopy d o e p
    let s := match p with
      | .dev _ a => if writes then s.testAt d a (some o.lidx) else s
      | _ => s
    match o.kind, p with
    | .load, .host .. => (e, s.crowded d line)
    | .pref, .host _ a => ({ e with done := true }, (s.hostFill d a).crowded d line)
    | .fetch, _ => ({ e with done := true }, s.fillIc o.tile line)
    | .pref, _ => ({ e with done := true }, s.fillL1 o.tile line (sectorOf (addrOf p)) none)
    | .cinv, .host _ a => ({ e with done := true }, s.updDie d fun x => { x with hostHeld := fdel x.hostHeld (hostKey a) })
    | .cinv, _ => ({ e with done := true }, s.dropL1 o.tile line)
    | .cflush, .host _ _ => ({ e with done := true }, s.flushPosted)
    | .cflush, _ => ({ e with done := true }, s.giveUp d line (s.persistentFor line) true)
    | _, _ => (e, s)
/-- The answer for the lanes of an operation that a slice has performed, on VC1 (R96, R113, R426). -/
def State.sliceReply (s : State) (from_ id : Nat) (o : Op) (lanes : Nat) : State :=
  s.send (.slice from_) (.tile o.tile) 1 (if o.kind.returns then 2 else 1) o.lidx
    (if o.kind.reads then .loadReply else .storeAck) { tile := o.tile, ctx := o.ctx, id := id, lanes := lanes }
/-- A slice looks at its ingress queue again, since an MSHR may be free (R96). -/
def State.kickIngress (s : State) (d line : Nat) : State :=
  let t := sliceTile d (s.keyAddr line)
  if (fget (s.die d).ingress t []).isEmpty then s else s.pend .sliceRequest { die := d, tile := t, ok := true }
/-- The requester of an active persistent request ends it once the requests that were linked at its activation have been performed
(R104, R105). -/
def State.endPersistent (s : State) (d line : Nat) : State :=
  let y := s.sliceLine d line
  if y.pers == 3 && y.due.isEmpty && y.persist == some d then
    (s.updSlice d line fun y => { y with pers := 0 }).send (s.slicePlace d line) (arbPlace line) 2 1 orphanLaunch .deactivation
      { die := d, line := line }
  else s
/-- A request leaves a line's list, performed or given up. -/
def State.popLink (s : State) (d line : Nat) (l : Link) : State :=
  (s.updSlice d line fun y =>
    { y with linked := y.linked.filter (· != l), due := y.due.filter (· != l), want := none, supplied := false }).endPersistent d line
/-- The lanes of an operation on a line that a die's slice serves and that are yet to be performed. -/
def State.lanesAt (s : State) (o : Op) (d line : Nat) (e : Elem) : Bool :=
  !e.done && e.loc.map lineKeyOf == some line && s.laneDie o e == some d
/-- The requests linked on a line are performed in their order of arrival, as far as the line's permissions reach (R96, R101).  A unit's
access is made by its event, for which the line is kept. -/
def State.serveLine (s : State) (d line : Nat) : Nat → State
  | 0 => s
  | n + 1 =>
    let y := s.sliceLine d line
    let held := match y.kept with | some ev => s.pending.contains ev | none => false
    if held || !y.acks.isEmpty || !y.waits.isEmpty then s
    else
      let s := if y.kept.isSome then s.updSlice d line fun y => { y with kept := none } else s
      match y.linked with
      | [] => ((s.updSlice d line fun y => { y with want := none, tries := 0 }).endPersistent d line).kickIngress d line
      | .unit w ev :: _ =>
        let dev := isDev line
        if y.free dev w then
          (((s.popLink d line (.unit w ev)).updSlice d line fun y => { y with kept := some ev }).pend ev.what ev.arg).pend .sliceRequest
            { die := d, line := line }
        else if y.lock.isSome then s
        else if dev && !(if w then y.tok == 4 && y.dv else decide (1 ≤ y.tok) && y.dv) then s.askTokens d line orphanLaunch w
        else s.clearCopies d line none (y.clearing d (if w then .only none else .recall))
      | .op id :: _ =>
        match s.op? id with
        | none => State.serveLine (s.popLink d line (.op id)) d line n
        | some o =>
          match o.elems.find? (s.lanesAt o d line) with
          | none => State.serveLine (s.popLink d line (.op id)) d line n
          | some e =>
            match e.loc, s.shTag o.lidx e.cls with
            | some p, some g =>
              if (match o.kind with | .store | .atom | .red => true | _ => false) && s.waysFull g d p then
                s.askMove d ((s.launch o.lidx).slot.getD 0) p
              else if !s.laneOk o e d line then s.laneAsk o e d line
              else serveNow s id o
            | _, _ => if !s.laneOk o e d line then s.laneAsk o e d line else serveNow s id o
where
  serveNow (s : State) (id : Nat) (o : Op) : State :=
    let (es, s) := stepElems (fun s e => s.slicePerform d o e) (fun s e => s.lanesAt o d line e) s o.elems
    let lanes := newlyDone es o.elems
    let o := { o with elems := es }
    let s := (s.setOp id o).popLink d line (.op id)
    let s := s.sliceReply (sliceTile d (s.keyAddr line)) id o lanes
    if (s.sliceLine d line).linked.isEmpty then s.kickIngress d line else s.pend .sliceRequest { die := d, line := line }
/-- A line served again. -/
def State.serveAll (s : State) (d line : Nat) : State := s.serveLine d line ((s.sliceLine d line).linked.length + 1)
/-- Miss-status registers of a slice in use (R96). -/
def State.mshrs (s : State) (t : Nat) : Nat :=
  ((s.die (dieOf t)).slice.filter fun p => !p.2.linked.isEmpty && sliceTile (dieOf t) (s.keyAddr p.1) == t).length
/-- The lines of an operation that a slice serves. -/
def State.linesAt (s : State) (o : Op) (t : Nat) : List Nat :=
  ((o.elems.filter fun e => !e.done && s.sliceOf o e == some t).filterMap fun e => e.loc.map lineKeyOf).eraseDups
/-- A request that a slice can take (R96): each of its lines is a hit, or joins or takes an MSHR; none where it needs one and all are
taken. -/
def State.takeRequest (s : State) (a : Arg) : Option State :=
  match s.op? a.id with
  | none => some s
  | some o =>
    let d := a.die
    let lines := s.linesAt o a.tile
    let misses := fun l => (s.sliceLine d l).linked.isEmpty &&
      !(o.elems.all fun e => !s.lanesAt o d l e || s.laneOk o e d l)
    if lines.any misses && 128 ≤ s.mshrs a.tile then none
    else
      some (lines.foldl (fun s l =>
        (s.updSlice d l fun y =>
          if y.linked.contains (.op a.id) then y else { y with linked := y.linked ++ [.op a.id] }).serveAll d l) s)
/-- A request at a slice (R96): it is taken, or waits in the ingress queue; a line, or the queue, is looked at again. -/
def State.atSlice (s : State) : State :=
  let a := s.arg
  let d := a.die
  if a.id == 0 && !a.ok then s.serveAll d a.line
  else if a.ok then
    match fget (s.die d).ingress a.tile [] with
    | [] => s
    | b :: rest =>
      match s.takeRequest b with
      | none => s
      | some s => (s.updDie d fun x => { x with ingress := fset x.ingress a.tile rest }).pend .sliceRequest { die := d, tile := a.tile, ok := true }
  else
    match s.takeRequest a with
    | some s => s
    | none => s.updDie d fun x => { x with ingress := fset x.ingress a.tile (fget x.ingress a.tile [] ++ [a]) }
/-- SLICE_REQUEST (R96). -/
def execSliceRequest (s : State) : Out := .next s.atSlice
/-- FAR_ATOMIC (R112): at the home-die slice, indivisibly and in order of arrival. -/
def execFarAtomic (s : State) : Out := .next s.atSlice
/-- REDUCTION_MESSAGE (R436): up to 16 word contributions to a line as one indivisible operation. -/
def execReductionMessage (s : State) : Out := .next s.atSlice

/-! ### L1 caches (R91, R92, R160) -/

/-- An L1's acknowledgement to its slice on VC1: the state that it left, and the mark of the copy (R91, R160). -/
def State.l1Ack (s : State) (i : Instr) (t line st : Nat) (mark : Option Nat) : State :=
  let d := dieOf t
  s.send (.tile t) (s.slicePlace d line) 1 1 orphanLaunch i
    { tile := t, die := d, line := line, ok := true, val := st, own := mark.isSome, slot := mark.getD 0 }
/-- An acknowledgement at the slice (R91 to R93): f changes the directory; with the last one the waiting steps are taken and the line is
served again. -/
def State.sliceAck (s : State) (f : SliceLine → SliceLine) : State :=
  let a := s.arg
  let s := s.updSlice a.die a.line fun y => { f y with acks := y.acks.erase a.tile }
  let y := s.sliceLine a.die a.line
  if !y.acks.isEmpty then s
  else
    let s := s.updSlice a.die a.line fun y => { y with waits := [] }
    (y.waits.foldl (fun s e => s.pend e.what e.arg) s).pend .sliceRequest { die := a.die, line := a.line }
/-- The directory once every copy but a tile's is gone (R91, R92). -/
def SliceLine.left (y : SliceLine) (d : Nat) : SliceLine :=
  match y.but with
  | none => y.noSharers
  | some t =>
    if dieOf t == d then { y with dstate := 2, owner := locY t * 16 + locX t, sharers := BitVec.twoPow 64 (clusterOf t) } else y.noSharers
/-- L1_INVALIDATE (R91, R92, R160): at an L1, dirty sectors are written back, the copy goes, and the acknowledgement carries its mark; at the
slice, the acknowledgement, whose mark counts as a match. -/
def execL1Invalidate (s : State) : Out :=
  let a := s.arg
  .next (if a.ok then
      let s := if a.own then
          match fget? s.txn.slots a.slot with
          | none => s
          | some l =>
            match (s.launch l).vtag? with
            | some g => if (s.launch l).matchable then s.addRead a.die g (s.keyAddr a.line) else s
            | none => s
        else s
      s.sliceAck fun y => if y.acks.erase a.tile == [] then y.left a.die else y
    else
      let x := s.l1 a.tile a.line
      (s.dropL1 a.tile a.line).l1Ack .l1Invalidate a.tile a.line x.st x.mark)
/-- L1_RECALL (R92): at an L1, dirty sectors are written back, and the line stays S; at the slice, the acknowledgement. -/
def execL1Recall (s : State) : Out :=
  let a := s.arg
  .next (if a.ok then s.sliceAck fun y => { y with dstate := if y.dstate == 0 then 0 else 1, owner := 0 }
    else
      let x := s.l1 a.tile a.line
      (if x.st == 0 then s else s.setL1 a.tile a.line { x with st := 1, dirty := 0#2 }).l1Ack .l1Recall a.tile a.line x.st none)
/-- L1_SHARE_REQUEST (R92): at an L1, M goes to O and E to S, and O supplies its sectors and stays; at the slice, the acknowledgement. -/
def execL1ShareRequest (s : State) : Out :=
  let a := s.arg
  .next (if a.ok then
      s.sliceAck fun y =>
        if a.val == 4 || a.val == 3 then { y with dstate := 3, supplied := true } else { y with dstate := if y.dstate == 0 then 0 else 1, owner := 0 }
    else
      let x := s.l1 a.tile a.line
      (match x.st with
       | 4 => s.setL1 a.tile a.line { x with st := 3 }
       | 2 => s.setL1 a.tile a.line { x with st := 1 }
       | _ => s).l1Ack .l1ShareRequest a.tile a.line x.st none)
/-- L1_EVICTION (R92, R155): at an L1, the copy goes: silently in S, with its dirty sectors written back in O and M, and the slice is told of
an E line; those of a version go back to the shadow line.  At the slice, the directory follows. -/
def execL1Eviction (s : State) : Out :=
  let a := s.arg
  .next (if a.ok then
      let y := s.sliceLine a.die a.line
      if 2 ≤ y.dstate && y.ownerTile a.die == a.tile then
        s.updSlice a.die a.line fun y => if y.dstate == 2 then y.noSharers else { y with dstate := 1, owner := 0 }
      else s
    else
      let x := s.l1 a.tile a.line
      if x.st == 0 then s
      else
        let s := s.dropL1 a.tile a.line
        if x.st == 1 || a.line != a.line % 2 ^ 60 then s else s.l1Ack .l1Eviction a.tile a.line x.st none)

/-! ### Homes and holders (R41, R88, R97, R99 to R102, R161) -/

/-- Ticks after which a step that cannot be taken yet is tried again (the model's own). -/
def againTicks : Nat := 64 * meshTicks
/-- The channels of a line's home die are being retrained (R41): requests for the line wait there. -/
def State.retraining (s : State) (line : Nat) : Bool :=
  let x := s.die (lineDie line)
  x.resetting && x.booting
/-- TRANSIENT_REQUEST (R101): at the home. -/
def execTransientRequest (s : State) : Out :=
  let d := s.arg.req
  let line := s.arg.line
  let write := s.arg.write
  .next (if s.retraining line then s.after againTicks .transientRequest s.arg
    else if (s.persistentFor line).isSome then s
    else
      let h := s.home line
      let s := s.updHome line fun h => { h with hint := h.hint ||| BitVec.twoPow 4 d }
      let forward (s : State) : State :=
        ([0, 1, 2, 3].filter fun i => h.hint.getLsbD i && i != d).foldl (fun s i =>
          s.send (homePlace line) (s.slicePlace i line) 0 1 orphanLaunch .forwardedRequest
            { die := i, req := d, line := line, write := write, lidx := s.arg.lidx }) s
      if write then
        let s := s.updHome line fun h => { h with htok := 0, hown := false }
        let s := if h.hown then s.pend .memoryRead { die := d, line := line, tok := h.htok, own := true, ok := true }
          else s.sendTokens (homePlace line) d line h.htok false false
        forward s
      else if h.hown then
        let own := h.htok == 1
        let s := s.updHome line fun h => { h with htok := h.htok - 1, hown := h.hown && !own }
        s.pend .memoryRead { die := d, line := line, tok := 1, own := own, ok := true }
      else forward s)
/-- MEMORY_READ (R41, R99): reads of one 256-byte granule are issued as one burst, and each requester has its tokens and data. -/
def execMemoryRead (s : State) : Out :=
  let mine := fun (e : Event) => e.what == .memoryRead && e.arg.line / 4 == s.arg.line / 4
  let all := ⟨.memoryRead, s.arg⟩ :: s.pending.filter mine
  .next (if s.retraining s.arg.line then s.after againTicks .memoryRead s.arg
    else all.foldl (fun s (e : Event) =>
      s.sendTokens (homePlace e.arg.line) e.arg.die e.arg.line e.arg.tok e.arg.own true)
    { s with pending := s.pending.filter fun e => !mine e })
/-- MEMORY_WRITE (R54, R99): writes of one granule are performed in HBM together; those of lines lie in the map already.  With a width it is
a packet that a tile spills: its bytes are written at the slice, and the acknowledgement goes back on VC1. -/
def execMemoryWrite (s : State) : Out :=
  let a := s.arg
  .next (if a.ok then s
    else if a.width != 0 then
      (s.agentLater a.die (.dev a.off a.line) a.width (leNat a.data)).send (.slice (sliceTile a.die a.line)) (.tile a.tile) 1 1 orphanLaunch
        .memoryWrite { tile := a.tile, ok := true }
    else { s with pending := s.pending.filter fun e => !(e.what == .memoryWrite && e.arg.width == 0 && e.arg.line / 4 == s.arg.line / 4) })
/-- FORWARDED_REQUEST (R93, R101, R161, R162): a holder makes the L1 copies fit what it keeps and answers with its tokens, or declines; a
write is tested at the slice.  With ok it is only the test of a store that the device itself has made. -/
def execForwardedRequest (s : State) : Out :=
  let a := s.arg
  let d := a.die
  let r := a.req
  let line := a.line
  let y := s.sliceLine d line
  let own := y.tok == 1
  let ev : Event := ⟨.forwardedRequest, a⟩
  .next (if a.ok then [0, 1, 2, 3].foldl (fun s i => s.testAt i a.val none) s
    else if y.tok == 0 then (if a.write then s.testAt d (s.keyAddr line) (some a.lidx) else s)
    else if y.lock.isSome || y.persist.isSome || (y.tok == 4 && !(y.linked.isEmpty && y.kept.isNone)) then s
    else if a.write then
      match s.copiesFor d line (.only none) ev with
      | (false, s) => s
      | (true, s) => (s.giveUp d line (some r) false).testAt d (s.keyAddr line) (some a.lidx)
    else if !y.own then s
    else
      match s.copiesFor d line (if own then .only none else if y.dstate == 2 then .share 1024 else .none) ev with
      | (false, s) => s
      | (true, s) =>
        (s.updSlice d line fun y => { y with tok := y.tok - 1, own := !own, dv := !own }).sendTokens (s.slicePlace d line) r line 1 own true)
/-- TOKEN_ARRIVAL (R100, R104, R108, R109): kept, or passed on while another die's persistent request or a census is active, or the die
evacuates. -/
def execTokenArrival (s : State) : Out :=
  let a := s.arg
  let d := a.die
  let y := s.sliceLine d a.line
  let keep : State :=
    ((s.updSlice d a.line fun y => { y with tok := y.tok + a.tok, own := y.own || a.own, dv := y.dv || a.ok }).touchLine d a.line
      |>.crowded d a.line).serveAll d a.line
  .next (match y.persist with
    | some r => if r != d && y.lock.isNone then s.passOn d a.line (some r) a.tok a.own true else keep
    | none => if !s.dieUp d then s.returnTokens d a.line a.tok a.own true else keep)
/-- Whether what a slice has asked for on a line is satisfied. -/
def SliceLine.satisfied (y : SliceLine) : Bool :=
  match y.want with
  | none => true
  | some true => y.tok == 4 && y.dv
  | some false => 1 ≤ y.tok && y.dv
/-- TRANSIENT_RETRY (R102, R105): an attempt that has failed is sent again; after three, or 4,096 mesh cycles after the first was sent,
the slice makes a persistent request, and waits for a credit with more attempts. -/
def execTransientRetry (s : State) : Out :=
  let a := s.arg
  let d := a.die
  let line := a.line
  let y := s.sliceLine d line
  .next (if y.att != a.val || y.want.isNone || y.satisfied || y.linked.isEmpty || 2 ≤ y.pers then s
    else
      let up := y.pers == 0 && (3 ≤ y.tries || 4096 * meshTicks ≤ s.now - y.since)
      let s := s.updSlice d line fun y => { y with tries := y.tries + 1, pers := if up then 1 else y.pers }
      let s := if up then
          s.send (s.slicePlace d line) (creditPlace d line) 2 1 orphanLaunch .persistentEscalate { die := d, line := line, lidx := a.lidx }
        else s
      (s.send (s.slicePlace d line) (homePlace line) 0 1 orphanLaunch .transientRequest
        { die := d, req := d, line := line, write := y.want.getD false, lidx := a.lidx }).after (1024 * meshTicks) .transientRetry a)
/-- SLICE_EVICTION (R95, R97, R111, R161): the L1 copies are invalidated, and the line's tokens leave marked LAST, unless the line matches the
signature of a slot. -/
def execSliceEviction (s : State) : Out :=
  let d := s.arg.die
  let line := s.arg.line
  let y := s.sliceLine d line
  let a := s.keyAddr line
  .next (if !y.linked.isEmpty || y.lock.isSome || y.kept.isSome || !s.present d line then s
    else
      match s.copiesFor d line (.only none) ⟨.sliceEviction, s.arg⟩ with
      | (false, s) => s
      | (true, s) =>
        if !isDev line then s.updDie d fun x => { x with hostHeld := fdel x.hostHeld (line - 2 ^ 50), slice := fdel x.slice line }
        else
          let seen := s.launches.any fun p => p.2.matchable && (match p.2.vtag? with | some g => s.seenOn d g a | none => false)
          let s := s.giveUp d line (s.persistentFor line) (!seen)
          if y.persist.isSome || y.pers != 0 then s else s.updDie d fun x => { x with slice := fdel x.slice line })
/-- TOKEN_RETURN (R97, R104): at the home; on LAST it clears the die's HINT bit.  While a persistent request is active the tokens go
to its requester. -/
def execTokenReturn (s : State) : Out :=
  let a := s.arg
  .next (let s := if a.last then s.updHome a.line fun h => { h with hint := h.hint &&& ~~~BitVec.twoPow 4 a.die } else s
         match (s.persistentFor a.line).filter (· != 4) with
         | some r => s.sendTokens (homePlace a.line) r a.line a.tok a.own a.own
         | none =>
           let s := s.updHome a.line fun h => { h with htok := h.htok + a.tok, hown := h.hown || a.own }
           if a.own then s.pend .memoryWrite { line := a.line } else s)

/-! ### Persistent requests (R102 to R107) -/

/-- A line's persistent request is made through the die's unit 4j, which has a credit of its arbiter for it (R103, R105). -/
def State.sendPersistent (s : State) (d line l : Nat) : State :=
  let arb := lineArb line
  let s := s.updDie d fun x => { x with arbUsed := fset x.arbUsed arb (fget x.arbUsed arb 0 + 1) }
  (s.updSlice d line fun y => { y with pers := 2 }).send (creditPlace d line) (arbPlace line) 2 1 orphanLaunch .persistentRequest
    { die := d, line := line, lidx := l }
/-- PERSISTENT_ESCALATE (R103, R105): at the die's unit 4j, a slice asks for one of the 4 credits of an arbiter, and waits in CREDIT while none
is free; with ok a credit comes back, and serves the next that waits. -/
def execPersistentEscalate (s : State) : Out :=
  let a := s.arg
  let d := a.die
  let arb := lineArb a.line
  .next (if a.ok then
      let s := s.updDie d fun x => { x with arbUsed := fset x.arbUsed arb (fget x.arbUsed arb 0 - 1) }
      match (fget (s.die d).arbWait arb []).filter fun l => (s.sliceLine d l).pers == 1 with
      | [] => s.updDie d fun x => { x with arbWait := fdel x.arbWait arb }
      | l :: rest =>
        let s := s.updDie d fun x => { x with arbWait := fset x.arbWait arb rest }
        s.sendPersistent d l orphanLaunch
    else if (s.sliceLine d a.line).pers != 1 then s
    else if (s.sliceLine d a.line).linked.isEmpty then s.updSlice d a.line fun y => { y with pers := 0 }
    else if fget (s.die d).arbUsed arb 0 < 4 then s.sendPersistent d a.line a.lidx
    else s.updDie d fun x => { x with arbWait := fset x.arbWait arb (fget x.arbWait arb [] ++ [a.line]) })
/-- The places that an activation and a deactivation reach (R104): the line's slice on every die in service, and, as 4, its home. -/
def State.persistPlaces (s : State) : List Nat := ([0, 1, 2, 3].filter fun i => !(s.die i).leftOut) ++ [4]
/-- A message of a line's arbiter on VC2 to those places. -/
def State.tellAll (s : State) (line : Nat) (i : Instr) (a : Arg) : State :=
  s.persistPlaces.foldl (fun s d =>
    s.send (arbPlace line) (if d == 4 then homePlace line else s.slicePlace d line) 2 1 orphanLaunch i { a with die := d, line := line }) s
/-- What an arbiter does next once nothing of it is active (R104, R109): its first census entry, ahead of its table, or the oldest request;
with the time-out of R107. -/
def State.activateHead (s : State) (arb : Nat) : State :=
  let a := fget s.arbs arb Arbiter.init
  match a.census, a.table with
  | (line, _) :: _, _ =>
    ({ s with arbs := fset s.arbs arb { a with walk := 1, acks := s.persistPlaces } }.tellAll line .activation { req := 4 })
  | [], [] => s
  | [], (d, line) :: _ =>
    let s := { s with arbs := fset s.arbs arb { a with phase := 1 } }
    let s := s.updBar0 d fun b => { b with persist := sat 0xFFFF (b.persist + 1) }
    (s.tellAll line .activation { req := d, lidx := orphanLaunch }).after (16384 * meshTicks) .activationTimeout
      { id := arb, req := d, line := line, val := s.now }
/-- Nothing of an arbiter is active. -/
def Arbiter.quiet (a : Arbiter) : Bool := a.phase == 0 && a.walk == 0
/-- PERSISTENT_REQUEST (R104): at its arbiter. -/
def execPersistentRequest (s : State) : Out :=
  let arb := lineArb s.arg.line
  let a := fget s.arbs arb Arbiter.init
  .next (let s := { s with arbs := fset s.arbs arb { a with table := a.table ++ [(s.arg.die, s.arg.line)] } }
         if a.quiet then s.activateHead arb else s)
/-- ACTIVATION (R104, R109, R111, R162): the home and every other holder send their tokens to the requester, L1 copies first; a locked line's
wait for the lock.  The requester performs what is linked. -/
def execActivation (s : State) : Out :=
  let a := s.arg
  let h := s.home a.line
  let ev : Event := ⟨.activation, a⟩
  let said (s : State) : State :=
    if a.req == 4 then s.send (if a.die == 4 then homePlace a.line else s.slicePlace a.die a.line) (arbPlace a.line) 2 1 orphanLaunch
      .activation { die := a.die, line := a.line, ok := true } else s
  .next (if a.ok then
      let arb := lineArb a.line
      let x := fget s.arbs arb Arbiter.init
      if x.walk != 1 then s
      else
        let x := { x with acks := x.acks.erase a.die }
        let s := { s with arbs := fset s.arbs arb x }
        if x.acks.isEmpty then s.pend .recreation { line := a.line } else s
    else if s.persistentFor a.line != some a.req then s
    else if a.die == 4 then
      if a.req == 4 then said s
      else
        (s.updHome a.line fun h => { h with htok := 0, hown := false, hint := h.hint ||| BitVec.twoPow 4 a.req }).sendTokens
          (homePlace a.line) a.req a.line h.htok h.hown h.hown
    else
      let s := s.updSlice a.die a.line fun y => { y with persist := some a.req }
      if a.req == a.die then
        (s.updSlice a.die a.line fun y => { y with pers := 3, due := y.linked }).serveAll a.die a.line |>.endPersistent a.die a.line
      else if (s.sliceLine a.die a.line).lock.isSome then said s
      else if (s.sliceLine a.die a.line).tok == 0 then said (s.testAt a.die (s.keyAddr a.line) none)
      else
        match s.copiesFor a.die a.line (.only none) ev with
        | (false, s) => s
        | (true, s) => said ((s.giveUp a.die a.line (some a.req) false).testAt a.die (s.keyAddr a.line) none))
/-- The head of an arbiter's table, or its census entry, is being deactivated everywhere (R104, R105). -/
def State.deactivate (s : State) (arb line : Nat) (f : Arbiter → Arbiter) : State :=
  let a := fget s.arbs arb Arbiter.init
  ({ s with arbs := fset s.arbs arb { f a with acks := s.persistPlaces } }).tellAll line .deactivation { ok := true }
/-- DEACTIVATION (R104, R105, R109): the requester's, at the arbiter, which deactivates everywhere; with ok at a slice or the home, which
acknowledges; with last the acknowledgement, and after the last one the entry and its credit are free and the next request is
activated, or a census adds the tokens that are missing. -/
def execDeactivation (s : State) : Out :=
  let b := s.arg
  let line := b.line
  let arb := lineArb line
  let a := fget s.arbs arb Arbiter.init
  .next (if b.last then
      let a := { a with acks := a.acks.erase b.die }
      let s := { s with arbs := fset s.arbs arb a }
      if !a.acks.isEmpty then s
      else if a.walk == 2 then s.pend .recreation { line := line, ok := true }
      else if a.phase == 2 then
        let d := (a.table.headD (0, 0)).1
        let s := { s with arbs := fset s.arbs arb { a with table := a.table.tail, phase := 0 } }
        (s.send (arbPlace line) (creditPlace d line) 2 1 orphanLaunch .persistentEscalate { die := d, line := line, ok := true }).activateHead arb
      else s
    else if b.ok then
      let s := if b.die == 4 then s
        else
          let s := if (s.sliceLine b.die line).persist.isSome then s.updSlice b.die line fun y => { y with persist := none } else s
          if (s.sliceLine b.die line).linked.isEmpty then s else s.serveAll b.die line
      s.send (if b.die == 4 then homePlace line else s.slicePlace b.die line) (arbPlace line) 2 1 orphanLaunch .deactivation
        { die := b.die, line := line, last := true }
    else if a.phase == 1 && a.table.head? == some (b.die, line) then s.deactivate arb line fun a => { a with phase := 2 }
    else s)
/-- ACTIVATION_TIMEOUT (R105, R107, R116): the arbiter enters RECOVERING, and a census of the line begins. -/
def execActivationTimeout (s : State) : Out :=
  let arb := s.arg.id
  let a := fget s.arbs arb Arbiter.init
  .next (if a.phase == 1 && a.table.head? == some (s.arg.req, s.arg.line) &&
        !s.timers.any (fun e => e.2.what == .activationTimeout && e.2.arg.id == arb) then
      let d := lineDie s.arg.line
      let s := { s with arbs := fset s.arbs arb { a with phase := 3, census := (s.arg.line, none) :: a.census } }
      let s := s.updSlice s.arg.req s.arg.line fun y => { y with pers := if y.pers == 3 then 4 else y.pers }
      (s.cohEvent d 1 s.arg.req (s.lineAddr s.arg.line)).activateHead arb
    else s)

/-! ### Evacuation and recreation (R108, R109) -/

/-- Whether tokens of a line are on their way. -/
def State.inFlight (s : State) (line : Nat) : Bool :=
  s.msgs.any (fun m => m.payload.carries line) || s.pending.any fun e => e.carries line
/-- The end of a census of a line (R109 steps 2 to 4): missing tokens are added at the home, a line whose owner token is lost is poisoned, and
HINT loses the die's bit, or every bit. -/
def State.census (s : State) (line : Nat) (lost : Option Nat) : State :=
  let d := lineDie line
  let h := s.home line
  let hint := match lost with | some i => h.hint &&& ~~~BitVec.twoPow 4 i | none => 0#4
  let s := s.updHome line fun h => { h with htok := 4, hown := true, poison := h.poison || !h.hown, hint := hint }
  let s := s.updBar0 d fun b => { b with recreate := sat 0xFFFF (b.recreate + 1) }
  if h.hown then s
  else (s.cohEvent d 0 (lost.getD d) (s.lineAddr line)).updBar0 d fun b => { b with poisoned := sat 0xFF (b.poisoned + 1) }
/-- RECREATION (R107, R109): with last, a die's loss puts every line whose HINT names it before its arbiter; of a line, once every holder has
sent its tokens home and none is on its way, the deactivation, and with ok, after its acknowledgements, the end of the census. -/
def execRecreation (s : State) : Out :=
  let a := s.arg
  let arb := lineArb a.line
  let x := fget s.arbs arb Arbiter.init
  .next (if a.last then
      let lines := (s.mem.home.filter fun p => p.2.hint.getLsbD a.die).map (·.1)
      lines.foldl (fun s l =>
        let y := fget s.arbs (lineArb l) Arbiter.init
        let s := { s with arbs := fset s.arbs (lineArb l) { y with census := y.census ++ [(l, some a.die)] } }
        if y.quiet then s.activateHead (lineArb l) else s) s
    else if (x.census.head?.map (·.1)) != some a.line then s
    else if !a.ok then
      if x.walk != 1 then s
      else if s.inFlight a.line then s.after againTicks .recreation a
      else s.deactivate arb a.line fun a => { a with walk := 2 }
    else if x.walk != 2 then s
    else
      let s := s.census a.line ((x.census.headD (0, none)).2)
      let s := { s with arbs := fset s.arbs arb { x with census := x.census.tail, walk := 0, phase := 0 } }
      s.activateHead arb)
/-- The lines that a die's slices hold tokens of. -/
def State.heldLines (s : State) (d : Nat) : List Nat := ((s.die d).slice.filter fun p => p.2.tok != 0).map (·.1)
/-- A die evacuates (R108): its L1 copies are recalled, and its tokens go home, or to the requester of an active persistent request. -/
def State.evacuate (s : State) (d : Nat) : State :=
  let s := (s.heldLines d).foldl (fun s l => s.giveUp d l (s.persistentFor l) true) s
  s.updDie d fun x => { x with slice := x.slice.filter fun p => p.2.tok != 0, hostHeld := [], ingress := [] }
/-- EVACUATION_TIMEOUT (R108, R109): the evacuation that began at the tick val has not ended within its bound, or, without ok, the die has
stopped without evacuating; what it still holds is lost, and recreation follows no sooner than 65,536 mesh cycles later. -/
def execEvacuationTimeout (s : State) : Out :=
  let d := s.arg.die
  let lost := if s.arg.ok then (s.die d).evacT == some s.arg.val && !(s.heldLines d).isEmpty else !s.dieUp d
  .next (if !lost then s
    else
      let s := s.updDie d fun x => { x with evacT := none }
      let s := (s.tiles.filter fun p => dieOf p.1 == d).foldl (fun s p => s.updUn p.1 fun u => { u with l1 := [], ic := [] }) s
      (s.updDie d fun x => { x with slice := [], hostHeld := [] }).after (65536 * meshTicks) .recreation { die := d, last := true })
/-- READ_NOTE (R160). -/
def execReadNote (s : State) : Out :=
  let a := s.arg
  .next (match fget? s.txn.slots a.slot with
    | none => s
    | some l =>
      match (s.launch l).vtag? with
      | some g => if (s.launch l).matchable then s.addRead (dieOf a.tile) g a.val else s
      | none => s)

end Sys2Proof.Machine
end

