-- ==== Sys2Proof/Machine/Segments.lean ====
section
/-! DEFINITION. Segments: their directory, page-in, replicas and eviction, the SVC functions that define and remove them and change a
tile's partition, and live migration with its signposts (R223 to R236, R243, R296). -/
namespace Sys2Proof.Machine

/-! ### The directory (R225 to R227) -/

/-- A directory entry at its home. -/
def State.dirEntry? (s : State) (n : Nat) : Option DirEntry := fget? (s.tile (s.segHome n)).trav.dir n
/-- A directory entry replaced. -/
def State.setDir (s : State) (n : Nat) (e : DirEntry) : State :=
  s.putDir (s.segHome n) n e
/-- Usable owners (R228): all that are listed but the one being filled in REPLICATING. -/
def DirEntry.usable (e : DirEntry) : List Nat := if e.state == 3 then e.owners.dropLast else e.owners
/-- The tiles that a broadcast reaches: those of dies in service. -/
def State.liveTiles (s : State) : List Nat := (List.range 1024).filter fun t => s.dieUp (dieOf t)
/-- What a message says of an entry: a word 1, state, type, size, number of usable owners, and the owners. -/
def DirEntry.say (e : DirEntry) : List Word :=
  [1#32, BitVec.ofNat 32 e.state, BitVec.ofNat 32 e.ty, BitVec.ofNat 32 e.size, BitVec.ofNat 32 e.usable.length] ++
    e.owners.map fun o => BitVec.ofNat 32 o
/-- An entry replaced after a change of its owners or its removal from routing: broadcast on VC7 to every tile (R227). -/
def State.broadcast (s : State) (n : Nat) (e : DirEntry) : State :=
  let h := s.segHome n
  let ts := s.liveTiles
  let s := s.setDir n { e with acks := ts }
  ts.foldl (fun s t => s.send (.tile h) (.tile t) 7 1 orphanLaunch .ownerBroadcast { tile := t, seg := n, words := e.say, who := (h, noCtx) }) s
/-- Whether the last change of an entry is complete: the home makes one change at a time (R227). -/
def DirEntry.settled (e : DirEntry) : Bool := e.acks.isEmpty

/-! ### Packets and lookups at the home (R227 to R230) -/

/-- A page-in of a COLD segment is asked for, once (R227, R230). -/
def State.wantPage (s : State) (n t : Nat) : State :=
  let f := fun (e : Event) => (e.what == .pageIn || e.what == .pageInRetry) && e.arg.seg == n
  if s.pending.any f || s.timers.any fun e => f e.2 then s else s.pend .pageIn { seg := n, tile := t }
/-- A packet routed at its segment's home (R228, R229, R230); one for a COLD segment waits in the home's inbox, where it is given no slot. -/
def State.routeAtHome (s : State) (h : Nat) (p : Packet) (asker : Nat) : State :=
  match s.dirEntry? p.dest with
  | none => s.dropPacket p
  | some e =>
    match e.state, e.usable with
    | 0, _ => (s.takeIn h p).wantPage p.dest asker
    | 4, _ | 5, _ => s.dropPacket p
    | _, [] => s.dropPacket p
    | _, o :: os => s.packetTo h ((o :: os).getD (ownerIdx p.thread (o :: os).length) o) p
/-- SEGMENT_FORWARD (R228): at the home, which routes the packet; a tile that is no longer the home sends it on. -/
def execSegmentForward (s : State) : Out :=
  let a := s.arg
  let h := s.segHome a.packet.dest
  .next (if !s.indexLive a.packet.lidx then s
    else if h == a.tile then s.routeAtHome h a.packet a.who.1
    else s.send (.tile a.tile) (.tile h) 5 1 a.packet.lidx .segmentForward { a with tile := h })
/-- A route-cache entry entered in place of the least recently used one (R228). -/
def Travel.enterRoute (v : Travel) (n : Nat) (r : List Nat × Nat × Nat × Nat) : Travel :=
  let l := v.routes.filter fun x => x.1 != n
  { v with routes := (if 256 ≤ l.length then l.drop 1 else l) ++ [(n, r)] }
/-- What a message says of a segment, as a route-cache entry: usable owners, state, type and size; none where nothing may be
cached (R228). -/
def routeOf (ws : List Word) : Option (List Nat × Nat × Nat × Nat) :=
  match ws with
  | _ :: st :: ty :: size :: u :: os =>
    let us := (os.take u.toNat).map (·.toNat)
    if us.isEmpty || st.toNat == 4 || st.toNat == 5 then none else some (us, st.toNat, ty.toNat, size.toNat)
  | _ => none
/-- What SEGLOOK is answered: a word 1, state, type, size and the usable owners, or no word for an undefined segment. -/
def lookAnswer (ws : List Word) : List Word :=
  match ws with
  | o :: st :: ty :: size :: u :: os => [o, st, ty, size] ++ os.take u.toNat
  | _ => []
/-- ROUTE_CACHE_MISS (R228, R473): at the home, which answers with the entry, and a SEGLOOK starts the page-in of a COLD
segment; at the asking tile, where the answer enters the cache. -/
def execRouteCacheMiss (s : State) : Out :=
  let a := s.arg
  .next (if a.ok then
      let s := match routeOf a.words with
        | some r => s.updTrav a.tile fun v => v.enterRoute a.seg r
        | none => s
      if a.ctx == noCtx then s else s.answer a.tile a.ctx (lookAnswer a.words)
    else
      let e := s.dirEntry? a.seg
      let reply : Arg := { tile := a.who.1, ctx := a.who.2, seg := a.seg, ok := true, words := (e.map DirEntry.say).getD [] }
      let s := if a.who.2 != noCtx && (e.map (·.state)) == some 0 then s.wantPage a.seg a.who.1 else s
      s.send (.tile a.tile) (.tile a.who.1) 7 1 orphanLaunch .routeCacheMiss reply)

/-! ### Copies on their tiles (R223, R228, R232) -/

/-- Whether a range of the segment area of a tile is free. -/
def Tile.segFree (x : Tile) (b n : Nat) : Bool :=
  x.segBase ≤ b && b + n ≤ x.locBase && x.trav.segs.all fun g => b + n ≤ g.base || g.base + 4096 * g.size ≤ b
/-- The lowest free 4 KiB-aligned range of a size in a tile's segment area (R230). -/
def Tile.segPlace (x : Tile) (size : Nat) : Option Nat :=
  ((List.range 128).map (· * 4096)).find? fun b => x.segFree b (4096 * size)
/-- Packets of a tile that wait for a segment. -/
def Travel.boundPackets (v : Travel) (n : Nat) : Nat := ((v.inbox ++ v.layby).filter fun p => p.dkind && p.dest == n).length
/-- Whether a thread bound to a segment is in a slot, inbox or lay-by of a tile (R232). -/
def Tile.bound (x : Tile) (n : Nat) : Bool :=
  x.threads.any (fun p => p.2.hdr.seg == n) || x.trav.boundPackets n != 0 || x.trav.heldPk.any fun p => p.dkind && p.dest == n
/-- Segments of a tile that may be evicted (R232). -/
def Tile.evictable (x : Tile) : List SegCopy := x.trav.segs.filter fun g => !g.pin && g.ready && !g.leaving && !x.bound g.seg
/-- A copy leaves a tile; packets that wait there for it go back to the home (R228). -/
def State.dropCopy (s : State) (t n : Nat) : State :=
  let v := (s.tile t).trav
  let mine := fun (p : Packet) => p.dkind && p.dest == n
  let h := s.segHome n
  let out := if h == t then [] else (v.inbox ++ v.layby).filter mine
  let s := s.updTrav t fun v => { (if h == t then v else v.keep fun p => !mine p) with segs := v.segs.filter fun g => g.seg != n }
  out.foldl (fun s p => s.send (.tile t) (.tile h) 5 1 p.lidx .segmentForward { tile := h, packet := p, who := (t, noCtx) }) s
/-- DROP_COMPLETE (R227): a DROPPING entry is freed once no owner holds bound threads and every tile has acknowledged. -/
def execDropComplete (s : State) : Out :=
  let n := s.arg.seg
  .next (match s.dirEntry? n with
    | none => s
    | some e =>
      if e.state == 4 && e.settled && e.owners.all fun o => !(s.tile o).bound n then
        let h := s.segHome n
        let mine := fun (p : Packet) => p.dkind && p.dest == n
        let out := ((s.tile h).trav.inbox ++ (s.tile h).trav.layby).filter mine
        let s := e.owners.foldl (fun s o => s.dropCopy o n) s
        let s := (s.updTrav h fun v => v.keep fun p => !mine p).freeDir h n
        out.foldl (fun s p => s.dropPacket p) s
      else s)
/-- OWNER_BROADCAST (R227, R228, R232): at a tile, which updates or drops its route-cache entry, releases a copy it no longer
owns and acknowledges; at the home, where the last acknowledgement completes the change.  With last the home broadcasts an entry again,
since an owner has moved (R233). -/
def execOwnerBroadcast (s : State) : Out :=
  let a := s.arg
  .next (if a.last then
      match s.dirEntry? a.seg with
      | none => s
      | some e => if e.settled then s.broadcast a.seg e else s.after againTicks .ownerBroadcast a
    else if a.ok then
      match s.dirEntry? a.seg with
      | none => s
      | some e =>
        let left := e.acks.filter (· != a.who.1)
        let s := s.setDir a.seg { e with acks := left }
        if left.isEmpty && e.state == 4 then s.pend .dropComplete { tile := a.tile, seg := a.seg } else s
    else
      let t := a.tile
      let owners := (a.words.drop 5).map (·.toNat)
      let st := (a.words.getD 1 0#32).toNat
      let s := s.updTrav t fun v =>
        if (v.route? a.seg).isNone then v
        else match routeOf a.words with
          | some r => { v with routes := v.routes.map fun x => if x.1 == a.seg then (a.seg, r) else x }
          | none => { v with routes := v.routes.filter fun x => x.1 != a.seg }
      let s := if st != 4 && !owners.contains t && (s.tile t).trav.segs.any fun g => g.seg == a.seg then s.dropCopy t a.seg else s
      s.send (.tile t) (.tile a.who.1) 7 1 orphanLaunch .ownerBroadcast { tile := a.who.1, seg := a.seg, ok := true, who := (t, noCtx) })

/-! ### Page-in and replicas (R230, R231) -/

/-- Links of the route between two tiles (R44). -/
def hopsBetween (a b : Nat) : Nat := (tileX a - tileX b) + (tileX b - tileX a) + (tileY a - tileY b) + (tileY b - tileY a)
/-- The least of a list by three keys in turn. -/
def leastBy (k : Nat → Nat × Nat) : List Nat → Option Nat
  | [] => none
  | t :: ts =>
    match leastBy k ts with
    | none => some t
    | some u => if (k u).1 < (k t).1 || ((k u).1 == (k t).1 && (k u).2 < (k t).2) then some u else some t
/-- Tiles that may take a copy (R230): in service, with no partition change pending. -/
def State.segTiles (s : State) (but : List Nat) : List Nat :=
  s.liveTiles.filter fun t => (s.tile t).scrset.isNone && !(s.tile t).stopped && !but.contains t
/-- The owner that R230 chooses for a segment of a size: the tile, and whether it must evict first. -/
def State.chooseOwner (s : State) (size asker : Nat) (but : List Nat) : Option (Nat × Bool) :=
  let key := fun t => ((s.tile t).trav.sample / 64, hopsBetween asker t)
  let all := s.segTiles but
  match leastBy key (all.filter fun t => ((s.tile t).segPlace size).isSome) with
  | some t => some (t, false)
  | none =>
    let canFree := fun t =>
      let x := s.tile t
      let gone := x.evictable.map (·.seg)
      ({ x with trav := { x.trav with segs := x.trav.segs.filter fun g => !gone.contains g.seg } }.segPlace size).isSome
    (leastBy key (all.filter canFree)).map fun t => (t, true)
/-- A range of a tile's segment area marked as the segment, not yet filled. -/
def State.reserveCopy (s : State) (t n : Nat) (e : DirEntry) : State :=
  (s.updTrav t fun v =>
    { v with segs := v.segs ++ [{ seg := n, base := ((s.tile t).segPlace e.size).getD 0, size := e.size, ready := false, pin := e.pin,
                                  use := s.now, leaving := false }] }).armSample t
/-- Ticks of a fill: a line per mesh cycle (R230). -/
def fillTicks (size : Nat) : Nat := size * 64 * meshTicks
/-- PAGE_IN (R227, R230). -/
def State.startPage (s : State) (n asker : Nat) : State :=
  match s.dirEntry? n with
  | none => s
  | some e =>
    if e.state != 0 then s
    else if !e.settled then s.after againTicks .pageIn { seg := n, tile := asker }
    else
      match s.chooseOwner e.size asker [] with
      | none => s.after (65536 * meshTicks) .pageInRetry { seg := n, tile := asker }
      | some (t, true) =>
        (s.pend .segmentEvict { tile := t, val := e.size }).after againTicks .pageIn { seg := n, tile := asker }
      | some (t, false) =>
        let e := { e with state := 1, owners := [t], press := 0, noted := false }
        let s := ((s.reserveCopy t n e).broadcast n e).after (fillTicks e.size) .pageInDone { seg := n, tile := t }
        let h := s.segHome n
        let mine := fun (p : Packet) => p.dkind && p.dest == n
        if h == t then s
        else
          let ps := ((s.tile h).trav.inbox ++ (s.tile h).trav.layby).filter mine
          ps.foldl (fun s p => s.packetTo h t p) (s.updTrav h fun v => v.keep fun p => !mine p)
/-- PAGE_IN (R230). -/
def execPageIn (s : State) : Out := .next (s.startPage s.arg.seg s.arg.tile)
/-- PAGE_IN_RETRY (R230). -/
def execPageInRetry (s : State) : Out := .next (s.startPage s.arg.seg s.arg.tile)
/-- The backing read line by line through the substitution table into a copy (R171, R230); false where a line is poisoned or
lies outside its pool. -/
def State.fillLines (s : State) (t base : Nat) (e : DirEntry) : Nat → Bool × State
  | 0 => (true, s)
  | i + 1 =>
    match s.fillLines t base e i with
    | (false, s) => (false, s)
    | (true, s) =>
      let off := 64 * i
      let frm := s.substFrame e.home e.hsel (e.back + off / 65536)
      match s.poolKey e.home e.hsel (frm * 65536 + off % 65536) with
      | none => (false, s)
      | some k =>
        if s.linePoison (lineOf k) then (false, s)
        else
          (true, s.updMem fun m =>
            { m with scr := m.scr.writeN (scrKey t (base + off)) 64 (m.hbm.readN k 64),
                     spois := m.spois.filter fun p => p.1 < scrKey t (base + off) / 4 || scrKey t (base + off) / 4 + 16 ≤ p.1 })
/-- A fill of a tile's copy: what was read, and the copy ready where it succeeded. -/
def State.fillCopy (s : State) (t n : Nat) (e : DirEntry) : Bool × State :=
  match (s.tile t).trav.segs.find? fun g => g.seg == n with
  | none => (false, s)
  | some g =>
    match s.fillLines t g.base e (64 * e.size) with
    | (false, _) => (false, s)
    | (true, s) =>
      (true, (s.updTrav t fun v => { v with segs := v.segs.map fun g => if g.seg == n then { g with ready := true } else g }).pend
        .slotClaim { tile := t })
/-- PAGE_IN_DONE (R227, R230): RESIDENT, or FAILED with no owner.  An entry that is being dropped stays so: the packets that waited for the
fill have their copy, or are dropped where it failed. -/
def execPageInDone (s : State) : Out :=
  let n := s.arg.seg
  let t := s.arg.tile
  .next (match s.dirEntry? n with
    | none => s
    | some e =>
      if e.owners != [t] || (e.state != 1 && e.state != 4) then s
      else
        match s.fillCopy t n e with
        | (true, s) => if e.state == 4 then s else s.setDir n { e with state := 2 }
        | (false, s) =>
          if e.state == 4 then (s.dropCopy t n).pend .dropComplete { tile := s.segHome n, seg := n }
          else if !e.settled then s.after againTicks .pageInDone s.arg
          else (s.broadcast n { e with state := 5, owners := [] }))
/-- REPLICA_DONE (R227): the new owner becomes usable, or is removed. -/
def execReplicaDone (s : State) : Out :=
  let n := s.arg.seg
  let t := s.arg.tile
  .next (match s.dirEntry? n with
    | none => s
    | some e =>
      if e.state != 3 || e.owners.getLast? != some t then s
      else if !e.settled then s.after againTicks .replicaDone s.arg
      else
        match s.fillCopy t n e with
        | (true, s) => s.broadcast n { e with state := 2 }
        | (false, s) => s.broadcast n { e with state := 2, owners := e.owners.dropLast })
/-- The interval of a home is due, at its next boundary of 1,024 mesh cycles (R231). -/
def State.armInterval (s : State) (h : Nat) : State :=
  let p := 1024 * meshTicks
  if s.timers.any fun e => e.2.what == .pressureInterval && e.2.arg.tile == h then s
  else s.after (p - s.now % p) .pressureInterval { tile := h }
/-- PRESSURE_SAMPLE (R231): at an owner, which sends a note for each segment above 64 packets; at the home, where a note counts in
the interval in which it arrives. -/
def execPressureSample (s : State) : Out :=
  let a := s.arg
  .next (if a.ok then
      match s.dirEntry? a.seg with
      | none => s
      | some e => (s.setDir a.seg { e with noted := true }).armInterval a.tile
    else
      let t := a.tile
      let v := (s.tile t).trav
      let n := v.inbox.length + v.layby.length
      let s := s.updTrav t fun v => { v with sample := n }
      let hot := v.segs.filter fun g => 64 < v.boundPackets g.seg
      let s := hot.foldl (fun s (g : SegCopy) =>
        let h := s.segHome g.seg
        s.send (.tile t) (.tile h) 7 1 orphanLaunch .pressureSample { tile := h, seg := g.seg, ok := true }) s
      if n == 0 && v.segs.isEmpty then s else s.armSample t)
/-- A replica of a RESIDENT segment starts (R227, R230, R231). -/
def State.startReplica (s : State) (h n : Nat) (e : DirEntry) : State :=
  match s.chooseOwner e.size h e.owners with
  | none => s
  | some (t, true) => s.pend .segmentEvict { tile := t, val := e.size }
  | some (t, false) =>
    let e := { e with state := 3, owners := e.owners ++ [t], press := 0 }
    ((s.reserveCopy t n e).broadcast n e).after (fillTicks e.size) .replicaDone { seg := n, tile := t }
/-- PRESSURE_INTERVAL (R231). -/
def execPressureInterval (s : State) : Out :=
  let h := s.arg.tile
  let dir := (s.tile h).trav.dir
  .next (let s := dir.foldl (fun s (p : Nat × DirEntry) =>
           let e := { p.2 with press := if p.2.noted then sat 63 (p.2.press + 1) else 0, noted := false }
           let s := s.setDir p.1 e
           if 16 ≤ e.press && e.state == 2 && e.owners.length < 4 && e.settled then s.startReplica h p.1 e else s) s
         if (s.tile h).trav.dir.any fun p => p.2.noted || p.2.press != 0 then s.armInterval h else s)
/-- SEGMENT_EVICT (R227, R232): at a tile, the least recently used copy that may go takes no more packets, and the home is told on VC7, until a
range of val units is free; val 0 evicts every one that may go (R243).  At the home, with ok, the owner leaves the list. -/
def execSegmentEvict (s : State) : Out :=
  let a := s.arg
  let t := a.tile
  let x := s.tile t
  .next (if a.ok then
      match s.dirEntry? a.seg with
      | none => s
      | some e =>
        if !e.owners.contains a.who.1 || e.state == 4 then s
        else if e.state != 2 || !e.settled then s.after againTicks .segmentEvict a
        else
          let left := e.owners.filter (· != a.who.1)
          s.broadcast a.seg { e with owners := left, state := if left.isEmpty then 0 else 2 }
    else if a.val != 0 && ((x.segPlace a.val).isSome || x.trav.segs.any (·.leaving)) then s
    else
      match leastBy (fun n => (((x.evictable.find? fun g => g.seg == n).map (·.use)).getD 0, n)) (x.evictable.map (·.seg)) with
      | none => s
      | some n =>
        let s := s.updTrav t fun v => { v with segs := v.segs.map fun g => if g.seg == n then { g with leaving := true } else g }
        let h := s.segHome n
        let s := s.send (.tile t) (.tile h) 7 1 orphanLaunch .segmentEvict { tile := h, seg := n, ok := true, who := (t, noCtx) }
        if a.val == 0 then s.pend .segmentEvict a else s)

/-! ### SVC functions (R224, R243, R296) -/

/-- A deferred reply takes effect (R308). -/
def State.applyReply (s : State) (t c : Nat) (e : Event) : State :=
  match e.what with
  | .copyDone => s.finishCopy t e.arg.id
  | .serviceReply => s.updCtx t c (·.lower e.arg.id)
  | _ => s.returnOp e.arg.id e
/-- A stopped context goes on: the replies held for it are applied in their order of arrival, and its next instruction may issue
(R308, R392). -/
def State.restart (s : State) (t c : Nat) : State :=
  let es := (s.ctx t c).deferred
  let s := s.updCtx t c fun k =>
    { k with status := if k.mst then .mstone else .ready, mst := false, trapT := none, deferred := [], onFault := none }
  let s := es.foldl (fun s e => s.applyReply t c e) s
  if (s.ctx t c).uiq.isEmpty then s else s.pend .userInterrupt { tile := t, ctx := c }
/-- An SVC function returns its status in s0, and the context resumes at the next instruction (R296). -/
def State.svcReturn (s : State) (t c n : Nat) : State :=
  let s := s.restart t c
  let s := s.updCtx t c fun k => (k.wr 0 (BitVec.ofNat 32 n)).retire 4
  (s.updTile t fun x => { x with hand := none }).lateTrap t c
/-- The context of an SVC event, as long as it still waits for its function. -/
def State.svcWaits (s : State) : Bool := (s.ctx s.arg.tile s.arg.ctx).status == .trapped
/-- The backing that a SEGDEF names (R224): pool, HSEL and pool address of one GLOBAL or DIRECT leaf of 64 KiB or more with
R = 1 that holds the whole segment, as the leaf names it: the substitution is made when the backing is read (R171). -/
def State.backing (s : State) (t asid va size : Nat) : Option (Nat × Nat × Nat) :=
  if !globalVa va || va % 65536 != 0 then none
  else
    match s.walkWith true (dieOf t) asid va with
    | .bad .. => none
    | .ok l =>
      if 2 ≤ l.cls || !l.r || l.size < 65536 || l.size < va % l.size + 4096 * size then none
      else some (l.home, l.hsel, l.frame / 16)
/-- SEGDEF (R224). -/
def execSegdef (s : State) : Out :=
  let t := s.arg.tile
  let c := s.arg.ctx
  let k := s.ctx t c
  let n := (k.raw 1).toNat
  let w := (k.raw 2).toNat
  let size := bits w 15 8
  .next (if !s.svcWaits then s
    else if 2 ^ 24 ≤ n || n == 0 || bits w 7 3 != 0 || bits w 31 16 != 0 || size == 0 || 96 < size then s.svcReturn t c 3
    else if (s.dirEntry? n).isSome then s.svcReturn t c 1
    else
      match s.backing t (s.asidOf k.lidx) (k.rawx 4).toNat size with
      | none => s.svcReturn t c 4
      | some (home, hsel, back) =>
        if 512 ≤ (s.tile (s.segHome n)).trav.dir.length then s.svcReturn t c 2
        else
          (s.setDir n { slot := (s.tile (s.segHome n)).trav.dirSlot, state := 0, ty := w % 4, pin := bitB w 2, size := size, owners := [], press := 0, noted := false, home := home,
                        hsel := hsel, back := back, acks := [] }).svcReturn t c 0)
/-- SEGDROP (R224, R227): the entry goes to DROPPING, and packets that wait at the home for it are dropped. -/
def execSegdrop (s : State) : Out :=
  let t := s.arg.tile
  let c := s.arg.ctx
  let n := ((s.ctx t c).raw 1).toNat
  .next (if !s.svcWaits then s
    else if 2 ^ 24 ≤ n || n == 0 then s.svcReturn t c 3
    else
      match s.dirEntry? n with
      | none => s.svcReturn t c 5
      | some e =>
        if e.state == 4 then s.svcReturn t c 0
        else if !e.settled then s.after againTicks .segdrop s.arg
        else
          let h := s.segHome n
          let mine := fun (p : Packet) => p.dkind && p.dest == n
          let out := if e.owners.contains h then [] else ((s.tile h).trav.inbox ++ (s.tile h).trav.layby).filter mine
          let s := if e.owners.contains h then s else s.updTrav h fun v => v.keep fun p => !mine p
          let s := out.foldl (fun s p => s.dropPacket p) s
          (s.broadcast n { e with state := 4 }).svcReturn t c 0)
/-- SCRSET (R243). -/
def execScrset (s : State) : Out :=
  let t := s.arg.tile
  let c := s.arg.ctx
  let k := s.ctx t c
  let w := (k.raw 1).toNat
  .next (if !s.svcWaits then s
    else if s.asidOf k.lidx != 0 then s.svcReturn t c 6
    else if bits w 4 2 != 0 || bits w 31 10 != 0 || 24 < bits w 9 5 then s.svcReturn t c 3
    else ((s.updTile t fun x => { x with scrset := some (w % 4, bits w 9 5) }).pend .scrsetApply { tile := t }).svcReturn t c 0)
/-- NOFUNC (R296). -/
def execNofunc (s : State) : Out := .next (if s.svcWaits then s.svcReturn s.arg.tile s.arg.ctx 7 else s)
/-- SCRSET_APPLY (R243): once the tile has no launch, no packet and no segment; until then its unpinned segments are evicted. -/
def execScrsetApply (s : State) : Out :=
  let t := s.arg.tile
  let x := s.tile t
  .next (match x.scrset with
    | none => s
    | some (i, g) =>
      if x.shares.all (·.guest) && x.trav.inbox.isEmpty && x.trav.layby.isEmpty && x.trav.segs.isEmpty then
        s.updTile t fun x => { x with inboxU := i, segU := g, scrset := none }
      else
        (if x.evictable.isEmpty then s else s.pend .segmentEvict { tile := t }).after tileTicks .scrsetApply { tile := t })

/-! ### Live migration (R234 to R236) -/

/-- A tile that nothing uses: no launch, packet or segment. -/
def Tile.isFree (x : Tile) : Bool :=
  x.shares.isEmpty && x.trav.inbox.isEmpty && x.trav.layby.isEmpty && x.trav.segs.isEmpty && x.ctxs.all fun p => p.2.status == .idle
/-- A tile's caches after its context has moved: what it held is coherent elsewhere. -/
def State.coldTile (s : State) (t : Nat) : State := s.updUn t fun u => { u with l1 := [], ic := [], tlb := [] }
/-- LIVE_MIGRATION (R234 to R236): the context of a tile moves to a free tile's node, the pair enters the exchange table, and the
vacated node keeps a signpost; the entries of its segment copies are broadcast (R233); it waits while the table or the node's signposts are full. -/
def execLiveMigration (s : State) : Out :=
  let a := s.arg.tile
  let b := s.arg.val
  let used := fun (t : Nat) => s.exch.any fun p => p.1 == t || p.2 == t
  .next (if a == b || !s.dieUp (dieOf a) || !s.dieUp (dieOf b) || used a || used b || !(s.tile b).isFree then s
    else if 16 ≤ (s.tile b).signposts.length then s.after againTicks .liveMigration s.arg
    else
      let exch := if s.exch.length < 8 then some s.exch
        else
          match s.exch.find? fun p => (s.tile p.1).isFree && (s.tile p.2).isFree with
          | some p => some (s.exch.filter (· != p))
          | none => none
      match exch with
      | none => s.after againTicks .liveMigration s.arg
      | some l =>
        let s := { s with exch := l ++ [(a, b)] }
        let s := (s.coldTile a).coldTile b
        let s := (s.tile a).trav.segs.foldl (fun s g => s.pend .ownerBroadcast { tile := s.segHome g.seg, seg := g.seg, last := true }) s
        (s.updTile b fun x => { x with signposts := x.signposts ++ [(a, b, s.now)] }).pend .signpostRetire { tile := b, val := a })
/-- SIGNPOST_FORWARD (R235): a message at a node that its tile has left goes on to the tile's new node, on the same channel. -/
def execSignpostForward (s : State) : Out :=
  .next { s with msgs := s.msgs.map fun m => if m.id == s.arg.id && m.via == 1 && m.at_ == m.to_ then { m with to_ := s.routerOf m.dst, via := 0 } else m }
/-- SIGNPOST_RETIRE (R236): once no message sent before the exchange is left, which the markers show. -/
def execSignpostRetire (s : State) : Out :=
  let b := s.arg.tile
  let a := s.arg.val
  .next (if !(s.tile b).signposts.any fun p => p.1 == a then s
    else if s.msgs.any fun m => m.dst == .tile a && m.to_ != s.routerOf m.dst then s.after againTicks .signpostRetire s.arg
    else s.updTile b fun x => { x with signposts := x.signposts.filter fun p => p.1 != a })

end Sys2Proof.Machine
end

