-- ==== Sys2Proof/Machine/Transactions.lean ====
section
/-! DEFINITION. Commits and their arbiter, the detour area, page remapping, sweeps, and what a launch does at a milestone (R149 to R151,
R153 to R157, R162, R164 to R177, R181, R207, R482). -/
namespace Sys2Proof.Machine

/-! ### Step 1 and step 2 (R165, R173, R178, R482) -/

/-- An event that carries a credit back to a launch. -/
def Event.returns (e : Event) (l : Nat) : Bool := e.what == .creditReturnMessage && e.arg.lidx == l
/-- Live path threads of a launch: credits given out and not on their way back (R216, R218). -/
def State.liveThreads (s : State) (l : Nat) : Nat :=
  let free := (s.tiles.map fun p => ((p.2.share? l).map (·.credits)).getD 0).sum
  let back := (s.msgs.filter fun m => m.payload.returns l).length + (s.pending.filter fun e => e.returns l).length
  (s.launch l).budget - (free + back)
/-- Packets of a launch that MSTONE holds (R482). -/
def State.heldOf (s : State) (l : Nat) : Nat :=
  (s.tiles.map fun p => (p.2.trav.heldPk.filter fun k => k.lidx == l).length).sum
/-- Commit step 1 (R165, R173): every tile has started its waves, every wave waits in MSTONE or has exited, and no path thread is in a slot. -/
def State.atBarrier (s : State) (l : Nat) : Bool :=
  ((s.launch l).tiles.all fun t => match (s.tile t).share? l with | some h => h.started | none => false) &&
  s.tiles.all fun p => p.2.ctxs.all fun q => q.2.lidx != l || q.2.status == .idle || (!isPath q.1 && q.2.status == .mstone)
/-- No thread packet of a launch travels or waits in an inbox or lay-by, but for those that MSTONE holds (R173, R482). -/
def State.allArrived (s : State) (l : Nat) : Bool := s.atBarrier l && s.liveThreads l == s.heldOf l
/-- Something of a launch is still to be performed (R165 step 2): an operation, a copy or a service request. -/
def State.outstanding (s : State) (l : Nat) : Bool :=
  s.ops.any (fun p => p.2.lidx == l) || s.svc.any (fun r => r.lidx == l && !r.dead) ||
  s.tiles.any fun p => p.2.un.mb.any (fun c => c.2.lidx == l) || p.2.un.susp.any fun c => c.lidx == l
/-- The next commit of a launch is its final one: no context is held at a milestone (R165, R173). -/
def State.noneHeld (s : State) (l : Nat) : Bool :=
  s.heldOf l == 0 && s.tiles.all fun p => p.2.ctxs.all fun q => !(q.2.lidx == l && q.2.status == .mstone)
/-- A launch's contexts go on after MSTONE (R165 step 7, R482). -/
def State.releaseMilestone (s : State) (l : Nat) : State :=
  let held := s.tiles.flatMap fun p => (p.2.trav.heldPk.filter fun k => k.lidx == l).map fun k => (p.1, k)
  let s := { s with tiles := s.tiles.map fun p =>
    (p.1, { p.2 with ctxs := p.2.ctxs.map fun q =>
                       (q.1, if q.2.lidx == l && q.2.status == .mstone then { q.2 with status := .ready } else q.2),
                     trav := { p.2.trav with heldPk := p.2.trav.heldPk.filter fun k => k.lidx != l } }) }
  held.foldl (fun s (p : Nat × Packet) => s.takeIn p.1 p.2) s
/-- A launch that yields at tier 2 (R207, R209): its tiles are released, and it is pending again from ENTRY, not counted. -/
def State.yieldLaunch (s : State) (l : Nat) : State :=
  let x := s.launch l
  let x := { x with run := 0, commit := 0, final := false, tier := 0, sticky := false, saved := [], imgPages := [], att := { x.att with state := 0 } }
  let s := (s.releaseTiles l).freeIndex l
  { s with requeued := fset s.requeued x.tag x }.redispatch
/-- What follows a milestone (R165, R173, R207): a cause recorded during steps 4 to 7 acts, quietly once the queue has been aborted
(R136), or a tier-2 request is met, or the contexts go on. -/
def State.afterMilestone (s : State) (l : Nat) : State :=
  let s := s.updLaunch l fun x => { x with imgPages := [] }
  let x := s.launch l
  match x.later with
  | some (reason, addr, pa, tile, pcode) =>
    let quiet := (s.queue x.queue).qstate == 0
    (s.updLaunch l fun x => { x with later := none }).abortWith l reason addr pa tile pcode quiet none
  | none => if 2 ≤ x.tier then s.yieldLaunch l else s.releaseMilestone l
/-- The lines of a slot's write set: its shadow and delta lines by line key (R154, R158, R169). -/
def State.writeSet (s : State) (tag : Nat) : List (Nat × ShLine) :=
  (s.txn.shadow.filter fun p => p.1 / 2 ^ 60 == tag).map fun p => (p.1 % 2 ^ 60, p.2)
/-- COMMIT_REQUEST (R165 steps 1 and 2, R173, R178, R179, R482): a launch whose contexts have all arrived aborts on its sticky flag under
STRICT; in step 2 it waits for its packets, whose threads may run on, and for what it has outstanding, and then asks the arbiter; one
with TXN = 0 completes or passes its barrier. -/
def execCommitRequest (s : State) : Out :=
  let l := s.arg.lidx
  let x := s.launch l
  .next (if !s.indexLive l || x.run != 1 || 3 ≤ x.commit || !s.atBarrier l then s
    else
      let final := s.noneHeld l
      if x.sticky && !x.r.lenient && (x.r.txn || (final && s.allArrived l)) then
        (s.updLaunch l fun x => { x with commit := 1 }).abortLaunch l 8 0 false x.firstTile
      else if !s.allArrived l then (if x.r.txn then s.updLaunch l fun x => { x with commit := 2 } else s)
      else if s.outstanding l then
        let s := if x.r.txn then s.updLaunch l fun x => { x with commit := 2 } else s
        if s.timers.any fun e => e.2.what == .commitRequest && e.2.arg.lidx == l then s
        else s.after (16 * tileTicks) .commitRequest { lidx := l }
      else if !x.r.txn then
        if final then s.completeLaunch l
        else
          (s.updLaunch l fun x => { x with att := { x.att with milestone := (x.att.milestone + 1) % 2 ^ 32 } }).afterMilestone l
      else
        match x.slot, x.vtag? with
        | some k, some g =>
          let w := (s.writeSet g).foldl (fun w p => w ||| sigOf (addrOf p.2.loc)) 0#1024
          let s := s.updTxn fun t =>
            { t with wsig := fset t.wsig g w, rsig := fset t.rsig g (s.rsigOf g), waiting := t.waiting ++ [k] }
          (s.updLaunch l fun x => { x with commit := 3, final := final }).after (4 * meshTicks) .commitGrant { slot := k }
        | _, _ => s)

/-! ### The arbiter (R166, R177) -/

/-- The launch and version tag of a slot. -/
def State.slotTag (s : State) (k : Nat) : Option (Nat × Nat) :=
  (fget? s.txn.slots k).bind fun l => ((s.launch l).vtag?).map fun g => (l, g)
/-- W and R that the arbiter holds for a slot. -/
def State.sigsOf (s : State) (k : Nat) : BitVec 1024 × BitVec 1024 :=
  match s.slotTag k with
  | some (_, g) => (fget s.txn.wsig g 0#1024, fget s.txn.rsig g 0#1024)
  | none => (0#1024, 0#1024)
/-- Two slots overlap (R166). -/
def State.overlap (s : State) (a b : Nat) : Bool :=
  let (wa, ra) := s.sigsOf a
  let (wb, rb) := s.sigsOf b
  wa &&& wb != 0#1024 || wa &&& rb != 0#1024 || ra &&& wb != 0#1024
/-- Whether the arbiter may grant a waiting slot (R41, R166, R177). -/
def State.mayGrant (s : State) (k l : Nat) : Bool :=
  let x := s.launch l
  let earlier := s.txn.waiting.takeWhile (· != k)
  let w := (s.sigsOf k).1
  let hold := fun (p : Nat × Launch) =>
    p.2.sheltered && (p.2.run == 1 || p.2.run == 2) && p.2.slot != some k &&
    (match p.2.vtag? with | some g => w &&& s.rsigOf g != 0#1024 | none => false)
  s.txn.waiting.contains k && !s.dies.any (fun p => p.2.evacuating) &&
  !s.timers.any (fun e => e.2.what == .commitGrant && e.2.arg.slot == k) &&
  !s.txn.committing.any (s.overlap k) && !earlier.any (s.overlap k) &&
  (!(x.final && (s.queue x.queue).order) || (s.queue x.queue).readIdx == x.idx) && !s.launches.any hold

/-! ### Steps 4 to 6 (R165, R169 to R171) -/

/-- The dies in service. -/
def State.liveDies (s : State) : List Nat := [0, 1, 2, 3].filter s.dieUp
/-- A write-set line locked on every die in service, its L1 copies gone, and tested against the other slots at each slice that the lock and
the gathering reach (R162, R165). -/
def State.lockLine (s : State) (l k : Nat) (p : Nat × ShLine) : State :=
  let s := s.liveDies.foldl (fun s d => (s.dropL1s d p.1).updSlice d p.1 fun y => { y with lock := some k }) s
  if isDev p.1 then
    [0, 1, 2, 3].foldl (fun s d => s.testAt d (addrOf p.2.loc) (some l)) (s.gatherTokens (s.launch l).shadowDie p.1)
  else s
/-- COMMIT_GRANT (R165, R166): step 4 and the gathering of step 5 begin for a slot that may go; the commit then ends by itself. -/
def execCommitGrant (s : State) : Out :=
  let k := s.arg.slot
  .next (match s.slotTag k with
    | none => s
    | some (l, g) =>
      if !s.mayGrant k l then s
      else
        let s := s.updLaunch l fun x => { x with commit := 4 }
        let s := s.updTxn fun t => { t with waiting := t.waiting.filter (· != k), committing := t.committing ++ [k] }
        ((s.writeSet g).foldl (fun s p => s.lockLine l k p) s).pend .commitEnd { slot := k })

/-- Contiguous written bytes of a line: offset and bytes. -/
def ShLine.runs (x : ShLine) : List (Nat × List Byte) :=
  (List.range 64).foldl (fun acc i =>
    if x.mask.getLsbD i then
      let b := x.data.getD i 0#8
      match acc.getLast? with
      | some (o, bs) => if o + bs.length == i then acc.dropLast ++ [(o, bs ++ [b])] else acc ++ [(i, [b])]
      | none => [(i, [b])]
    else acc) []
/-- A device line written at step 5 (R164, R165): shadow bytes over the base, then each delta with one rounding. -/
def State.commitDev (s : State) (key : Nat) (x : ShLine) : State :=
  let base := leBytes 64 (s.devRead key 64)
  let bytes := x.delta.foldl (fun (bs : List Byte) w =>
    patchBytes bs (4 * w.1) (leBytes 4 (atomNew w.2.1 w.2.2.1 4 (bytesAt bs (4 * w.1) 4) w.2.2.2.toNat 0))) (x.merge base)
  let whole := x.mask == BitVec.allOnes 64
  let pois := x.poison || (!whole && s.linePoison (lineOf key))
  s.devWrite key 64 (leNat bytes) pois
/-- A HOST line written at step 5 (R169): into the copies held on every die, and as posted writes through the leaf's port. -/
def State.commitHost (s : State) (port a : Nat) (x : ShLine) : State :=
  let k := hostKey a
  let s := s.liveDies.foldl (fun s d =>
    match fget? (s.die d).hostHeld k with
    | some (bs, p) =>
      let whole := x.mask == BitVec.allOnes 64
      s.updDie d fun y => { y with hostHeld := fset y.hostHeld k (x.merge bs, x.poison || (p && !whole)) }
    | none => s) s
  s.updMem fun m => { m with posted := m.posted ++ x.runs.map fun r => ({ port := port, addr := a + r.1, data := r.2 } : Posted) }
/-- Home policy and HSEL of a device line, by its channel and zone (R78, R79). -/
def State.lineHome (s : State) (line : Nat) : Nat × Nat :=
  let chan := line * 64 / chanSpan
  let off := line * 64 % chanSpan
  if off < (s.zone 0).2 then (0, 0) else if off < (s.zone 2).1 then (1, chan / 64) else (2, chan / 32)
/-- The 64 KiB base frame of a line (R156). -/
def State.frameOf (s : State) : Loc → Nat
  | .dev key a => let h := s.lineHome (key / 64); (h.1 * 8 + h.2) * 2 ^ 36 + a / 65536
  | .host _ a => 2 ^ 44 + a / 65536
  | _ => 0
/-- Pages of a detour area that hold the device's map (R156). -/
def mapPages (n : Nat) : Nat := (n + 454) / 455
/-- The address of a line in the i-th shadow page of a launch's detour area (R156). -/
def Launch.detourVa (x : Launch) (i a : Nat) : Nat := x.r.detbase + (mapPages x.r.detsize + i) * 65536 + a % 65536 / 64 * 64
/-- The entry of the substitution table for a key: its own, or one that it may take (R171). -/
def State.substSlot (s : State) (home hsel frm : Nat) : Option Nat :=
  let i0 := Nat.xor (Nat.xor (bits frm 19 0) (bits frm 35 20)) ((home * 8 + hsel) * 2 ^ 15)
  let rec probe : Nat → Nat → Option Nat → Option Nat
    | 0, _, spare => spare
    | n + 1, i, spare =>
      match s.poolKey 0 0 (0x100000 + 16 * (i % 2 ^ 20)) with
      | none => spare
      | some k =>
        let e := s.devRead k 16
        if !bitB e 127 then (spare.or (some k))
        else if bits e 117 116 == home && bits e 115 113 == hsel && bits e 99 64 == frm then some k
        else probe n (i + 1) (if bits e 35 0 == bits e 99 64 then spare.or (some k) else spare)
  probe 8 i0 none
/-- A substitution entry written (R171). -/
def State.substPut (s : State) (key home hsel frm to_ : Nat) : State :=
  s.devWrite key 16 (2 ^ 127 + home * 2 ^ 116 + hsel * 2 ^ 113 + frm * 2 ^ 64 + to_) false
/-- TLB entries of a range dropped in every TLB of the package (R84). -/
def State.tlbDrop (s : State) (asid : Option Nat) (lo n : Nat) : State :=
  let gone := fun (k : Nat) (l : Leaf) =>
    let va := k % 2 ^ 36 * 4096
    let page := va / l.size * l.size
    (asid.isNone || asid == some (k / 2 ^ 36)) && (n == 0 || (page < lo + n && lo < page + l.size))
  let old := fun (f : Nat × Nat × Nat × FaultRec) =>
    (asid.isNone || asid == some f.1) && (n == 0 || (f.2.1 * 4096 < lo + n && lo < f.2.1 * 4096 + 4096))
  { s with tiles := s.tiles.map fun (p : Nat × Tile) =>
             (p.1, { p.2 with un := { p.2.un with tlb := p.2.un.tlb.filter fun e => !gone e.1 e.2,
                                                  xfault := p.2.un.xfault.filter fun f => !old f } }),
           dies := s.dies.map fun p =>
             (p.1, { p.2 with l2tlb := p.2.l2tlb.map fun q => (q.1, q.2.filter fun e => !gone e.1 e.2) }) }
/-- A GLOBAL leaf of 64 KiB or more over a page: HOME, HSEL, the frame that it names and the frame in use (R170). -/
def State.bigLeaf (s : State) (d asid va : Nat) : Option (Nat × Nat × Nat × Nat) :=
  match s.walkWith true d asid va, s.walk d asid va with
  | .ok n, .ok l => if n.cls == 0 && 65536 ≤ n.size then some (n.home, n.hsel, n.frame / 16, l.frame / 16) else none
  | _, _ => none
/-- Whether every byte of a frame has been written, with no delta line (R170). -/
def State.frameWhole (s : State) (ws : List (Nat × ShLine)) (f : Nat) : Bool :=
  let mine := ws.filter fun p => s.frameOf p.2.loc == f
  mine.length == 1024 && mine.all fun p => isDev p.1 && p.2.delta.isEmpty && p.2.mask == BitVec.allOnes 64
/-- Accesses that were translated to one of two frames which change places, and are yet to be performed, go to the other one, as a new
translation would send them (R84, R167, R170). -/
def State.relocate (s : State) (h hs fa fb : Nat) : State :=
  let pool := h * 8 + hs
  let move := fun (e : Elem) =>
    match e.loc with
    | some (.dev k a) =>
      let home := s.lineHome (k / 64)
      let frm := a / 65536
      let to_ := if frm == fa then some fb else if frm == fb then some fa else none
      if e.done || home.1 * 8 + home.2 != pool then e
      else
        match to_.bind fun f => (s.poolKey h hs (f * 65536 + a % 65536)).map fun k2 => (k2, f * 65536 + a % 65536) with
        | some (k2, a2) => { e with loc := some (.dev k2 a2) }
        | none => e
    | _ => e
  let moved := s.ops.filter fun p => p.2.elems.map move != p.2.elems
  let s := { s with ops := s.ops.map fun p => (p.1, { p.2 with elems := p.2.elems.map move }) }
  moved.foldl (fun s p => s.launchOp p.1) s
/-- SHADOW_REMAP (R170): the i-th shadow page of a launch takes the place of its base frame; none where a condition fails. -/
def State.remapPage (s : State) (x : Launch) (ws : List (Nat × ShLine)) (i f : Nat) : Option State :=
  let d := x.shadowDie
  let asid := (s.queue x.queue).asid
  let mine := ws.filter fun p => s.frameOf p.2.loc == f
  match mine with
  | [] => none
  | p0 :: _ =>
    let page := p0.2.va / 65536 * 65536
    let det := x.detourVa i 0
    if !s.frameWhole ws f then none
    else
      match s.bigLeaf d asid page, s.bigLeaf d asid det with
      | some (h, hs, nb, fb), some (h2, hs2, ns, fs) =>
        if h != h2 || hs != hs2 then none
        else
          match s.substSlot h hs nb with
          | none => none
          | some kb =>
            let s1 := s.substPut kb h hs nb fs
            match s1.substSlot h hs ns with
            | none => none
            | some ks =>
              let s := s1.substPut ks h hs ns fb
              let s := mine.foldl (fun s (p : Nat × ShLine) =>
                match s.poolKey h hs (fs * 65536 + addrOf p.2.loc % 65536) with
                | some k => s.devWrite k 64 (leNat p.2.data) p.2.poison
                | none => s) s
              some (((s.tlbDrop none page 65536).tlbDrop none det 65536).relocate h hs fb fs)
      | _, _ => none
/-- Steps 5 and 6 (R165, R169, R170): every page that can be installed by remapping is, and the other lines are written. -/
def State.commitWrites (s : State) (x : Launch) (g : Nat) : State :=
  let ws := s.writeSet g
  let pages := fget s.txn.detPages g []
  let (done, s) := pages.zipIdx.foldl (fun (r : List Nat × State) p =>
    if p.1.2 then r
    else
      match r.2.remapPage x ws p.2 p.1.1 with
      | some s => (r.1 ++ [p.1.1], s)
      | none => r) ([], s)
  ws.foldl (fun s (p : Nat × ShLine) =>
    match p.2.loc with
    | .dev key _ => if done.contains (s.frameOf p.2.loc) then s else s.commitDev key p.2
    | .host port a => s.commitHost port a p.2
    | _ => s) s

/-! ### Step 7, sweeps and moves (R150, R156, R157, R165, R174, R181) -/

/-- What the arbiter and the detour area hold of a version tag is gone (R174). -/
def State.dropRequest (s : State) (g : Nat) : State :=
  s.updTxn fun t => { t with detPages := fdel t.detPages g, wsig := fdel t.wsig g, rsig := fdel t.rsig g, readSet := fdel t.readSet g }
/-- Shadow and delta lines of a version tag are gone, with their L1 copies (R155, R174). -/
def State.dropShadow (s : State) (g : Nat) : State :=
  let s := { s with tiles := s.tiles.map fun (p : Nat × Tile) =>
    (p.1, { p.2 with un := { p.2.un with l1 := p.2.un.l1.filter fun q => q.1 / 2 ^ 60 != g + 1 } }) }
  s.updTxn fun t => { t with shadow := t.shadow.filter fun (p : Nat × ShLine) => p.1 / 2 ^ 60 != g }
/-- A die's slices clear their signatures of a version tag (R159, R174). -/
def State.dropSigs (s : State) (d g : Nat) : State := s.updDie d fun x => { x with sigs := x.sigs.filter fun e => e.1 / 256 != g }
/-- Lines of a version tag, its signatures and its detour pages are gone (R150, R159, R165 step 7). -/
def State.dropTag (s : State) (g : Nat) : State := [0, 1, 2, 3].foldl (fun s d => s.dropSigs d g) ((s.dropRequest g).dropShadow g)
/-- Events that wait for a shadow way happen again (R154). -/
def State.wakeWays (s : State) : State :=
  s.txn.wayWait.foldl (fun s e => s.pend e.what e.arg) (s.updTxn fun t => { t with wayWait := [] })
/-- Every line of every slice with requests linked on it is served again. -/
def State.serveLinked (s : State) : State :=
  [0, 1, 2, 3].foldl (fun s d =>
    ((s.die d).slice.filter fun p => !p.2.linked.isEmpty).foldl (fun s (p : Nat × SliceLine) => s.serveAll d p.1) s) s
/-- A line's locks released, its tokens to the requester of an active persistent request if there is one (R104, R111, R165). -/
def State.unlockLine (s : State) (k d line : Nat) : State :=
  let s := [0, 1, 2, 3].foldl (fun s i =>
    if (s.sliceLine i line).lock == some k then s.updSlice i line fun y => { y with lock := none } else s) s
  match (if isDev line then s.persistentFor line else none) with
  | some r => if r == d then s else s.giveUp d line (some r) false
  | none => s
/-- The next generation of a slot (R150). -/
def State.bumpGen (s : State) (k : Nat) : Nat × State :=
  let n := (fget s.txn.gens k 0 + 1) % 1024
  (n, s.updTxn fun t => { t with gens := fset t.gens k n })
/-- COMMIT_END (R165 steps 5 to 7, R142, R173, R181). -/
def execCommitEnd (s : State) : Out :=
  let k := s.arg.slot
  .next (match s.slotTag k with
    | none => s
    | some (l, g) =>
      let x := s.launch l
      if x.commit != 4 then s
      else
        let lines := (s.writeSet g).map (·.1)
        let s := (s.commitWrites x g).stageCommit l
        let s := s.updTxn fun t => { t with committing := t.committing.filter (· != k) }
        let s := (lines.foldl (fun s ln => s.unlockLine k x.shadowDie ln) s).dropTag g
        let s := if x.final then s.completeLaunch l
          else
            let (n, s) := s.bumpGen k
            (s.updLaunch l fun x =>
              { x with gen := n, commit := 0, att := { x.att with milestone := (x.att.milestone + 1) % 2 ^ 32 } }).unwait l
              |>.afterMilestone l
        s.serveLinked.wakeWays.pokeCommits.redispatch)
/-- SWEEP (R174): the old tag's requests and detour pages go, and a sweep leaves on VC7 for the slices of every die; there its lines and
signatures go (one message stands for those to a die's slices). -/
def execSweep (s : State) : Out :=
  let a := s.arg
  let g := vtag a.slot a.gen
  .next (if a.ok then
      let s := if a.die == a.val then s.dropShadow g else s
      (s.dropSigs a.die g).serveLinked.wakeWays
    else
      ([0, 1, 2, 3].filter fun d => !(s.die d).leftOut).foldl (fun s d =>
        s.send (.mgmt 0) (.slice (tileAt d 0 0)) 7 1 orphanLaunch .sweep { a with die := d, ok := true }) (s.dropRequest g))
/-- The line of a list that was used least recently. -/
def oldestLine : List (Nat × ShLine) → Option (Nat × ShLine)
  | [] => none
  | p :: ps =>
    match oldestLine ps with
    | none => some p
    | some q => if q.2.use < p.2.use then some q else some p
/-- A detour address translated on a die: GLOBAL or DIRECT with W = 1 (R156). -/
def State.detourPlace (s : State) (d asid va : Nat) : Except (Nat × Nat × Bool) Loc :=
  match s.translate d asid va 1 false true with
  | .ok (l, p) => if l.cls < 2 then .ok p else .error (3, l.level, false)
  | .error e => .error e
/-- SHADOW_MOVE (R154, R156, R157): the least recently used line of a set moves to its launch's detour area; a fault writes a record, and
the move, and what needs a way of the set, waits for its answer. -/
def execShadowMove (s : State) : Out :=
  let d := s.arg.die
  let a := s.arg.off
  let t := sliceTile d a
  let cands := s.setLines d a
  .next (if s.txn.moving.any fun m => m.2.die == d && m.2.val == s.arg.val then s
    else if cands.length < s.shadowWays then s.serveLinked.wakeWays
    else
      match oldestLine cands with
      | none => s
      | some (key, y) =>
        let g := key / 2 ^ 60
        match s.slotTag (g / 1024) with
        | none => s
        | some (l, _) =>
          let x := s.launch l
          let pages := fget s.txn.detPages g []
          let page := (s.frameOf y.loc, !y.delta.isEmpty)
          let i := pages.findIdx (· == page)
          let asid := (s.queue x.queue).asid
          let va := x.detourVa i (addrOf y.loc)
          if x.commit == 4 then s
          else if i == pages.length && (x.r.detsize ≤ mapPages x.r.detsize + i || x.imgPages.contains (va / 65536)) then s.abortLaunch l 2 (y.va / 64 * 64) false t
          else
            match s.detourPlace d asid va with
            | .error (kind, level, root) =>
              match s.fileFault x.queue { pc := 0, launch := handleOf l, ctx := 255, tile := t, asid := asid, va := va, acc := 1,
                                          kind := kind, level := level, root := root } with
              | (.at q i, s) =>
                if kind == 3 then s.abortLaunch l 3 va false t
                else s.updTxn fun z => { z with moving := z.moving ++ [((q, i), s.arg)] }
              | (.full, s) => s.after faultRetryTicks .shadowMove s.arg
              | (.dead, s) => s.abortLaunch l 3 va false t
            | .ok p =>
              let s := s.agentWrite d p 64 (leNat y.data) y.poison
              let s := s.updTxn fun z =>
                { z with shadow := fset z.shadow key { y with detour := true },
                         detPages := if i == pages.length then fset z.detPages g (pages ++ [page]) else z.detPages }
              s.serveLinked.wakeWays)

end Sys2Proof.Machine
end

