-- ==== Sys2Proof/Machine/Traps.lean ====
section
/-! DEFINITION. Supervisors: taking a trap in hand, fault records and their answers, late faults with their replay, and RESUME (R85,
R86, R140, R156, R215, R273, R294 to R302, R308, R316, R392). -/
namespace Sys2Proof.Machine

/-! ### Restarting a context (R301, R308, R392) -/

/-- The entries of a wave in the order of dispatch, oldest first (R298). -/
def Ctx.entries (k : Ctx) : List Entry :=
  (List.range 64).filterMap fun i =>
    let q := (k.dseq + 65536 - 64 + i) % 65536
    match fget? k.ring (q % 64) with
    | some e => if e.seq == q then some e else none
    | none => none
/-- An entry dispatched again with its kept operands and its number (R301). -/
def State.redispatchEntry (s : State) (t c : Nat) (e : Entry) : State :=
  let put (s : State) : State := s.updCtx t c fun k =>
    { k with ring := fset k.ring (e.seq % 64) { e with state := .issued, started := false, fault := none } }
  match e.work with
  | .mem id => if e.state == .faulted then (put s).translateOp id else s
  | .matrix w =>
    if e.state == .faulted || (e.state == .issued && !e.started) then
      let s := put s
      if w.kind == .tmld then s.pend .attachedComplete { tile := t, ctx := c, seq := e.seq } else s
    else s
  | .regs .. => s
/-- The replay of R301. -/
def State.replay (s : State) (t c : Nat) : State :=
  ((s.ctx t c).entries.foldl (fun s e => s.redispatchEntry t c e) s).mxKick t
/-- A context whose trap has a cause is restarted (R392): deferred replies, then the replay of a late cause, the trapping instruction,
or, after SVC, the next one; a late fault that waited behind an exact trap is taken then (R316). -/
def State.resumeCtx (s : State) (t c cause : Nat) : State :=
  let s := s.restart t c
  let s := s.updTile t fun x =>
    { x with hand := match x.hand with | some h => if h.ctx == c then none else some h | none => none }
  let s := if cause == causeSvc then s.updCtx t c (·.retire 4) else s
  let s := if cause == causeLateVector || cause == causeLateMatrix then s.replay t c else s.lateTrap t c
  if (s.ctx t c).status == .mstone then s.pend .commitRequest { lidx := (s.ctx t c).lidx } else s
/-- RESUME (R392): the context of the trap in hand goes on. -/
def execResume (s : State) : Out :=
  .next (s.guard .S [] [] fun s =>
    match s.myTile.hand with
    | none => s.illegal
    | some h => (s.retire 4).resumeCtx s.cur.1 h.ctx h.cause)

/-! ### Taking a trap in hand (R294 to R297, R300) -/

/-- LATE_FAULT (R300, R316): the wave stops at its next instruction boundary; while it is trapped the late trap waits. -/
def execLateFault (s : State) : Out :=
  let k := s.ctx s.arg.tile s.arg.ctx
  .next (if k.status == .trapped || k.status == .idle then s else s.lateTrap s.arg.tile s.arg.ctx)
/-- The trap of a context leads to the abort of its launch (R294). -/
def State.trapAbort (s : State) (t c reason : Nat) : State :=
  let k := s.ctx t c
  (s.updTile t fun x => { x with hand := none }).abortLaunch k.lidx reason (k.ctl.trapaddr.toNat % 2 ^ 48) false t
/-- The fault record of a trapped context is written, and the context waits for its answer; one of kind 3, or one that cannot be
written, aborts the launch (R85, R86, R140, R294). -/
def State.trapFault (s : State) (t c : Nat) (f : FaultRec) : State :=
  match s.fileFault (s.launchOf t c).queue f with
  | (.full, s) => s.after faultRetryTicks .trapHandling { tile := t, ctx := c, ok := true }
  | (.dead, s) => s.trapAbort t c 3
  | (.at q i, s) =>
    if f.kind == 3 then s.trapAbort t c 3 else s.updCtx t c fun k => { k with onFault := some (q, i) }
/-- The event of an SVC function (R224, R243, R296). -/
def svcEvent (fn : Nat) : Instr :=
  if fn == 0x040 then .segdef else if fn == 0x041 then .segdrop else if fn == 0x050 then .scrset else .nofunc
/-- TRAP_HANDLING (R294 to R297): the supervisor takes the trap in hand and does what its cause asks. -/
def execTrapHandling (s : State) : Out :=
  let t := s.arg.tile
  let c := s.arg.ctx
  let k := s.ctx t c
  let w := k.ctl.trapcause.toNat
  let cause := w % 32
  .next (if k.status != .trapped || (k.trapT.isNone && !s.arg.ok) then s
    else if c == sysCtx then s.pend .supervisorTimeout { tile := t, ctx := c, ok := true }
    else
      let s := s.updCtx t c fun k => { k with trapT := none }
      let s := s.updTile t fun x => { x with hand := some { ctx := c, cause := cause } }
      if cause == causeSvc then
        let pc := k.regs.pc.toNat
        let s := s.updCtx t c fun k => { k with waitOn := fdel k.waitOn pc }
        s.pend (svcEvent (fget k.waitOn pc 0)) { tile := t, ctx := c }
      else if cause == causeUncorrectable then s.pend .tileQuarantine { tile := t, val := bits w 11 8 }
      else if cause == causePoison then s.trapAbort t c 8
      else
        let memory := cause == causePageFault || cause == causeLateVector || cause == causeLateMatrix ||
          (cause == causeAccess && bits w 11 8 != 15)
        match (if memory then k.frec else none) with
        | some f => s.trapFault t c f
        | none => s.trapAbort t c 3)

/-! ### Answers to fault records (R86, R140, R156, R215, R273) -/

/-- The accesses that wait on a record go on (R86): its contexts are restarted, its copies replay, and a class-table read or a detour
move is made again. -/
def State.answerRetry (s : State) (q i : Nat) (f : FaultRec) : State :=
  let cs := s.tiles.flatMap fun p => (p.2.ctxs.filter fun k => k.2.onFault == some (q, i)).map fun k => (p.1, k.1, k.2.ctl.trapcause)
  let copies := s.tiles.flatMap fun p => (p.2.un.susp.filter fun c => c.onFault == some (q, i)).map fun c => (p.1, c.id)
  let s := cs.foldl (fun s (p : Nat × Nat × Word) => s.resumeCtx p.1 p.2.1 (p.2.2.toNat % 32)) s
  let s := copies.foldl (fun s (p : Nat × Nat) =>
    (s.updUn p.1 fun u =>
      { u with susp := u.susp.map fun c => if c.id == p.2 then { c with state := 3, onFault := none } else c }).pend .copyReplay
      { tile := p.1, id := p.2 }) s
  let l := f.launch % 2 ^ 13
  let readers := s.tiles.filter fun p => match p.2.share? l with | some h => h.classes.isNone && !h.ended | none => false
  if f.ctx != 255 then s
  else if f.acc == 0 then readers.foldl (fun s (p : Nat × Tile) => s.pend .classTableRead { tile := p.1, lidx := l }) s
  else
    let mine := s.txn.moving.filter fun m => m.1 == (q, i)
    mine.foldl (fun s m => s.pend .shadowMove m.2) (s.updTxn fun t => { t with moving := t.moving.filter fun m => m.1 != (q, i) })
/-- A record answered FAIL (R86, R273, R302): its copies are discarded, and its launch aborts with FAULT. -/
def State.answerFail (s : State) (q i : Nat) (f : FaultRec) : State :=
  let s := { s with tiles := s.tiles.map fun (p : Nat × Tile) =>
    (p.1, { p.2 with un := { p.2.un with susp := p.2.un.susp.filter fun c => c.onFault != some (q, i) },
                     hand := match p.2.hand with
                       | some h => if (p.2.ctx h.ctx).onFault == some (q, i) then none else some h
                       | none => none }) }
  let s := s.updTxn fun t => { t with moving := t.moving.filter fun m => m.1 != (q, i) }
  s.abortLaunch (f.launch % 2 ^ 13) 3 f.va false f.tile
/-- An answer to a record that is pending, which then no longer is. -/
def State.answerRecord (s : State) (q i : Nat) (f : FaultRec) (retry : Bool) : State :=
  let s := s.updQueue q fun x => { x with pending := x.pending.filter fun p => p.1 != i }
  if retry then s.answerRetry q i f else s.answerFail q i f
/-- DELEGATED_FAULT (R86): system-slot firmware of the faulting tile's die walks the address again, and answers. -/
def execDelegatedFault (s : State) : Out :=
  let q := s.arg.q
  let i := s.arg.idx
  .next (match (s.queue q).pending.find? fun p => p.1 == i with
    | none => s
    | some (_, f) =>
      let ok := match s.walk (dieOf f.tile) f.asid f.va with
        | .ok l => l.permits f.acc
        | .bad .. => false
      s.answerRecord q i f ok)

end Sys2Proof.Machine
end

