-- ==== Sys2Proof/Machine/Translation.lean ====
section
/-! DEFINITION. TLB misses and page walks of the tiles (R72, R73, R75, R82, R83, R85, R172). -/
namespace Sys2Proof.Machine

/-- The slice of a die whose L2 TLB is asked (R82): a hash of the ASID and VA[47:21]. -/
def l2TlbSlice (d asid vpn : Nat) : Nat := sliceTile d (64 * Nat.xor (vpn / 512) asid)
/-- Pages of an address space that one entry of a span translates together with a page. -/
def inSpan (asid vpn span : Nat) (w : Nat × Nat) : Bool := w.1 == asid && w.2 * 4096 / span == vpn * 4096 / span
/-- The walks that a tile waits for and an answer ends have returned: their credits are free, and the translation port goes on (R83). -/
def Units.walked (u : Units) (asid vpn span : Nat) : Units :=
  let mine := fun (w : Nat × Nat × Nat) => inSpan asid vpn span (w.1, w.2.1)
  { u with walks := u.walks.filter fun w => !mine w, credits := u.credits - (u.walks.filter mine).length, stalled := false }
/-- Whether a tile waits for a page. -/
def Units.wants (u : Units) (asid vpn : Nat) : Bool := u.walks.any fun w => w.1 == asid && w.2.1 == vpn
/-- Entries of an L1 TLB, and of a slice of an L2 TLB (R82). -/
def l1TlbSize : Nat := 64
/-- Entries of a slice of an L2 TLB (R82). -/
def l2TlbSize : Nat := 1024
/-- Walkers of a die (R82). -/
def walkerCount : Nat := 64
/-- The TLB without the entry that entered it first (R82). -/
def dropOldest (m : FMap Leaf) : FMap Leaf :=
  match m with
  | [] => []
  | p :: _ =>
    let old := m.foldl (fun (b : Nat × Leaf) e => if e.2.since < b.2.since then e else b) p
    fdel m old.1
/-- An entry enters a TLB of a size (R82). -/
def tlbPut (m : FMap Leaf) (size asid va : Nat) (l : Leaf) : FMap Leaf :=
  let key := tlbKey asid va l.span
  let keep := if (fget? m key).isSome || m.length < size then m else dropOldest m
  fset keep key l
/-- A translation reaches a tile: it enters its TLB, and the accesses that wait translate again (R82, R83). -/
def State.fillTlb (s : State) (t asid vpn : Nat) (l : Leaf) : State :=
  let (n, s) := s.fresh
  (s.updUn t fun u =>
    { u.walked asid vpn l.span with tlb := tlbPut u.tlb l1TlbSize asid (vpn * 4096) { l with since := n } }).retranslate t
/-- A walk's fault reaches a tile: it is kept for the access that waits (R85). -/
def State.faultTlb (s : State) (t asid vpn kind level : Nat) (root : Bool) : State :=
  let accs := ((s.tile t).un.walks.filter fun w => w.1 == asid && w.2.1 == vpn).map fun w => w.2.2
  (s.updUn t fun u =>
    { u.walked asid vpn 4096 with
        xfault := u.xfault ++ accs.map fun acc =>
          (asid, vpn, acc, ({ pc := 0, launch := 0, ctx := 0, tile := t, asid := asid, va := vpn * 4096, acc := acc, kind := kind,
                              level := level, root := root } : FaultRec)) }).retranslate t
/-- L1_TLB_MISS (R82): the miss, which holds a walk credit, goes to a slice of the die on VC0. -/
def execL1TlbMiss (s : State) : Out :=
  let a := s.arg
  let d := dieOf a.tile
  .next (if (s.tile a.tile).un.wants a.asid a.vpn then
      s.send (.tile a.tile) (.slice (l2TlbSlice d a.asid a.vpn)) 0 1 orphanLaunch .l2TlbLookup { a with die := d }
    else s)
/-- A walk of a page begins at one of the die's walkers, or waits for one; a miss to a page that is being walked, or is to be, joins that
walk (R82). -/
def State.askWalker (s : State) (d asid vpn : Nat) : State :=
  let x := s.die d
  if x.walkers.contains (asid, vpn) || x.walkQ.contains (asid, vpn) then s
  else if x.walkers.length < walkerCount then
    (s.updDie d fun x => { x with walkers := x.walkers ++ [(asid, vpn)] }).pend .pageWalk { die := d, asid := asid, vpn := vpn }
  else s.updDie d fun x => { x with walkQ := x.walkQ ++ [(asid, vpn)] }
/-- L2_TLB_LOOKUP (R82): at a slice, a hit is answered on VC1, and a miss goes to a walker; with ok, the answer at the tile, which asks
again where the entry has been dropped meanwhile (R84). -/
def execL2TlbLookup (s : State) : Out :=
  let a := s.arg
  let d := dieOf a.tile
  let slice := l2TlbSlice d a.asid a.vpn
  let hit := tlbFind (fget (s.die d).l2tlb slice []) a.asid (a.vpn * 4096)
  .next (if !(s.tile a.tile).un.wants a.asid a.vpn then s
    else if a.ok then (match hit with
      | some l => s.fillTlb a.tile a.asid a.vpn l
      | none => s.pend .l1TlbMiss { a with ok := false })
    else match hit with
      | some _ => s.send (.slice slice) (.tile a.tile) 1 1 orphanLaunch .l2TlbLookup { a with ok := true }
      | none => s.askWalker d a.asid a.vpn)
/-- A walk is over: its walker, and those of pages that its entry translates too, take the next pages that wait. -/
def State.freeWalkers (s : State) (d asid vpn span : Nat) : State :=
  let x := s.die d
  let busy := x.walkers.filter fun w => !inSpan asid vpn span w
  let next := x.walkQ.filter fun w => !inSpan asid vpn span w
  let n := walkerCount - busy.length
  let s := s.updDie d fun x => { x with walkers := busy ++ next.take n, walkQ := next.drop n }
  (next.take n).foldl (fun s w => s.pend .pageWalk { die := d, asid := w.1, vpn := w.2 }) s
/-- PAGE_WALK (R72, R82): a walk by the die's ASROOT, once it has read its table entries through the L2 as DIRECT lines, fills the slice and
answers every tile of the die that waits for the page. -/
def execPageWalk (s : State) : Out :=
  let a := s.arg
  let d := a.die
  let va := a.vpn * 4096
  let slice := l2TlbSlice d a.asid a.vpn
  let waits := fun (span : Nat) (p : Nat × Tile) => dieOf p.1 == d && p.2.un.walks.any fun w => inSpan a.asid a.vpn span (w.1, w.2.1)
  .next (if !(s.die d).walkers.contains (a.asid, a.vpn) then s
    else
      match s.linesFor d ((s.walkLines d a.asid va).map fun l => (l, false)) ⟨.pageWalk, a⟩ with
      | (false, s) => s
      | (true, s) =>
        match s.walk d a.asid va with
        | .ok l =>
          let (n, s) := s.fresh
          let l := { s.wholePage d a.asid va l with since := n }
          let ts := (s.tiles.filter (waits l.span)).map (·.1)
          let s := s.updDie d fun x =>
            { x with l2tlb := fset x.l2tlb slice (tlbPut (fget x.l2tlb slice []) l2TlbSize a.asid va l) }
          ts.foldl (fun s t => s.fillTlb t a.asid a.vpn l) (s.freeWalkers d a.asid a.vpn l.span)
        | .bad kind level root =>
          let ts := (s.tiles.filter (waits 4096)).map (·.1)
          ts.foldl (fun s t => s.faultTlb t a.asid a.vpn kind level root) (s.freeWalkers d a.asid a.vpn 4096))

end Sys2Proof.Machine
end

