-- ==== Sys2Proof/Machine/Services.lean ====
section
/-! DEFINITION. The pooled service units: video decoders, resizers, texture filters and rasterisers (R117 to R129, R148). -/
namespace Sys2Proof.Machine

/-! ### Requests and replies (R118 to R124) -/

/-- n bytes of a request from byte b up. -/
def SvcReq.field (r : SvcReq) (b n : Nat) : Nat :=
  let w := r.words.foldr (fun (x : Word) acc => x.toNat + 2 ^ 32 * acc) 0
  w / 2 ^ (8 * b) % 2 ^ (8 * n)
/-- KIND of a request. -/
def SvcReq.kind (r : SvcReq) : Nat := bits (r.field 4 4) 3 0
/-- OP of a request. -/
def SvcReq.op (r : SvcReq) : Nat := bits (r.field 4 4) 7 4
/-- A request in a unit. -/
def State.svcReq? (s : State) (id : Nat) : Option SvcReq := s.svc.find? fun r => r.id == id
/-- A request replaced. -/
def State.setSvc (s : State) (r : SvcReq) : State := { s with svc := s.svc.map fun x => if x.id == r.id then r else x }
/-- The event that does a request's work. -/
def SvcReq.event (r : SvcReq) : Instr :=
  match r.kind with
  | 1 => if r.op == 0 then .decode else if r.op == 1 then .emitPicture else .clearContext
  | 2 => .resize
  | 3 => .textureSample
  | _ => .rasterise
/-- The request at the head of a unit's queue is worked on (R117). -/
def State.svcKick (s : State) (d u : Nat) : State :=
  match s.svc.find? fun r => r.die == d && r.unit == u with
  | none => s
  | some r =>
    if s.pending.any fun e => e.what == r.event && e.arg.id == r.id then s
    else s.pend r.event { die := d, unit := u, id := r.id }
/-- The three words of a reply above DETAIL (R121). -/
def SvcReq.reply (r : SvcReq) (status result detail : Nat) : List Word :=
  [BitVec.ofNat 32 detail,
   BitVec.ofNat 32 (r.die % 4 * 2 ^ 2 + r.kind * 2 ^ 4 + status * 2 ^ 8 + bits (r.field 4 4) 31 16 * 2 ^ 16),
   BitVec.ofNat 32 result, BitVec.ofNat 32 (result / 2 ^ 32)]
/-- A reply sent on VC6 to the issuer's tile; that of an ended launch is discarded (R121, R124). -/
def State.svcAnswer (s : State) (r : SvcReq) (src : Place) (status result detail : Nat) : State :=
  if r.dead then s
  else
    s.send src (.tile r.tile) 6 1 r.lidx .serviceReply
      { tile := r.tile, ctx := r.ctx, id := r.id, q := r.field 0 4 % 8, words := r.reply status result detail }
/-- Stream contexts that a decoder holds are free (R125). -/
def State.unlockStreams (s : State) (unit : Nat) : State :=
  { s with streams := s.streams.map fun p => (p.1, if p.2.lock == some unit then { p.2 with lock := none } else p.2) }
/-- A unit finishes a request (R121, R148): its counters, its reply, and the next request. -/
def State.svcFinish (s : State) (r : SvcReq) (status result detail : Nat) : State :=
  let s := { s with svc := s.svc.filter fun x => x.id != r.id }.unlockStreams (r.die * 16 + r.unit)
  let s := s.updBar0 r.die fun b =>
    let w := (fget b.svccnt r.unit 0#64).toNat
    let done := sat 0xFFFFFFFF (w / 2 ^ 32 + 1)
    let drop := sat 0xFFFF (bits w 31 16 + (if status == 6 then 1 else 0))
    let other := sat 0xFFFF (w % 2 ^ 16 + (if status != 0 && status != 6 then 1 else 0))
    { b with svccnt := fset b.svccnt r.unit (BitVec.ofNat 64 (done * 2 ^ 32 + drop * 2 ^ 16 + other)) }
  ((s.svcAnswer r (.service r.die r.unit) status result detail).pend .commitRequest { lidx := r.lidx }).svcKick r.die r.unit
/-- SERVICE_REQUEST (R117 to R119, R123): a request joins the queue of its unit; one with an invalid KIND, a UNITSEL out of its range, or no
unit is answered. -/
def execServiceRequest (s : State) : Out :=
  let a := s.arg
  let r : SvcReq :=
    { id := a.id, tile := a.tile, ctx := a.ctx, lidx := a.lidx, pc := a.off, words := a.words, die := a.die,
      unit := a.unit, asid := a.asid, txn := a.own,
      dead := !s.indexLive a.lidx || (s.launch a.lidx).tag != a.val, tri := 0, blk := 0,
      recs := 0, disc := 0, pois := false, bins := [], wait := none }
  .next (if r.kind == 0 || 4 < r.kind then s.svcAnswer r (.service a.die a.unit) 2 0 0
    else if !selOk (r.field 4 4) then s.svcAnswer r (if a.ok then .service a.die a.unit else .tile a.tile) 3 0 0
    else if !a.ok then s.svcAnswer r (.tile a.tile) 1 0 0
    else { s with svc := s.svc ++ [r] }.svcKick a.die a.unit)
/-- SERVICE_REPLY (R121, R308): placed in the reserved record, in completion order, and SVC falls; while the issuer is trapped it falls
later.  One whose record is gone is discarded. -/
def execServiceReply (s : State) : Out :=
  let a := s.arg
  let rq := fget (s.tile a.tile).un.replies a.q []
  .next (match rq.find? fun r => r.id == a.id && r.words.isNone with
    | none => s
    | some r =>
      let rq := (rq.filter fun x => x.id != a.id) ++ [{ r with words := some a.words, t := s.now }]
      let s := s.updUn a.tile fun u => { u with replies := fset u.replies a.q rq }
      s.updCtx a.tile a.ctx fun k =>
        if k.status == .trapped then { k with deferred := k.deferred ++ [⟨.serviceReply, a⟩] } else k.lower a.id)
/-- SERVICE_TIMEOUT (R61, R124): the request completes with an error status: a poisoned record is placed for it, and SVC falls. -/
def execServiceTimeout (s : State) : Out :=
  let a := s.arg
  let rq := fget (s.tile a.tile).un.replies a.q []
  .next (match rq.find? fun r => r.id == a.id && r.words.isNone with
    | none => s
    | some r =>
      let rq := (rq.filter fun x => x.id != a.id) ++ [{ r with words := some [0#32, 0#32, 0#32, 0#32], t := s.now, bad := true }]
      let s := s.updUn a.tile fun u => { u with replies := fset u.replies a.q rq }
      s.updCtx a.tile a.ctx fun k =>
        if k.status == .trapped then { k with deferred := k.deferred ++ [⟨.serviceReply, a⟩] } else k.lower a.id)

/-! ### Inputs and outputs (R120) -/

/-- Where a byte of a request lies, with its class (4 for scratch), or the status that stops the request; 16 + 5 is a violation. -/
def State.svcPlace (s : State) (r : SvcReq) (va : Nat) (write : Bool) : Except Nat (Nat × Loc) :=
  match s.scrWin r.tile va with
  | .own off =>
    match (if r.dead then none else (s.tile r.tile).share? r.lidx) with
    | some h => if h.lbase ≤ off && off < h.lbase + h.lsize && !h.ended then .ok (4, .scr r.tile off) else .error 21
    | none => .error 21
  | .none =>
    if !globalVa va then .error 5
    else
      match s.translate (dieOf r.tile) r.asid va (if write then 1 else 0) r.txn true with
      | .ok (l, p) => if l.cls == 3 || (write && l.cls == 2) then .error 5 else .ok (l.cls, p)
      | .error (k, _, _) => .error (if k == 1 || k == 3 then 5 else 4)
  | .event _ => .error 5
  | _ => .error 21
/-- The first refusal of a range, looked for in every 64 bytes of it: class or window (R120). -/
def State.svcRefused (s : State) (r : SvcReq) (va n : Nat) (write : Bool) : Option (Nat × Nat) :=
  if n == 0 then none
  else
    ((List.range (n / 64 + 1)).map (fun i => va + 64 * i) ++ [va + n - 1]).findSome? fun a =>
      match s.svcPlace r (min a (va + n - 1)) write with
      | .error c => if c == 4 then none else some (c, min a (va + n - 1))
      | .ok _ => none
/-- A request refused (R120): status ACCESS, and a violation where a scratch window was left. -/
def State.svcDeny (s : State) (r : SvcReq) (c va : Nat) (write : Bool) : State :=
  let s := if c == 21 && !r.dead then s.violate r.tile r.tile r.ctx r.lidx r.pc va write else s
  s.svcFinish r 5 0 0
/-- One byte of input with its poison; one behind a port that is not there is poisoned (R81). -/
def State.svcGet1 (s : State) (r : SvcReq) (cls : Nat) (p : Loc) : Nat × Bool × State :=
  if s.placeDead p then (0, true, s)
  else if r.dead then let v := s.agentRead (dieOf r.tile) p 1; (v.1, v.2, s)
  else s.loadAt r.tile r.lidx cls p 1
/-- Bytes of input from an address up: what was read and whether any was poisoned, or the status that stops the request. -/
def State.svcGet (s : State) (r : SvcReq) (va : Nat) : Nat → Except Nat (List Byte × Bool) × State
  | 0 => (.ok ([], false), s)
  | n + 1 =>
    match s.svcGet r va n with
    | (.error e, s) => (.error e, s)
    | (.ok (bs, p), s) =>
      match s.svcPlace r (va + n) false with
      | .error e => (.error (e % 16), s)
      | .ok (cls, loc) =>
        let (v, q, s) := s.svcGet1 r cls loc
        (.ok (bs ++ [BitVec.ofNat 8 v], p || q), s)
/-- One byte of output (R120): scratch words are set FULL, GLOBAL of a transactional launch goes to its shadow, and what an ended
launch would shadow is discarded (R124). -/
def State.svcPut1 (s : State) (r : SvcReq) (cls va : Nat) (p : Loc) (v : Nat) (pois : Bool) : State :=
  match p with
  | .scr t off => (s.scrWrite t off 1 v pois).changeFull t off true
  | p =>
    if !r.dead then s.storeAt r.tile r.lidx cls va p 1 v pois
    else if r.txn && cls == 0 then s
    else s.agentWrite (dieOf r.tile) p 1 v pois
/-- Bytes of output from an address up: how many were written, and the status that stopped the request. -/
def State.svcPut (s : State) (r : SvcReq) (pois : Nat → Bool) (va : Nat) : Nat → List Byte → Nat × Option Nat × State
  | n, [] => (n, none, s)
  | n, b :: bs =>
    match s.svcPlace r va true with
    | .error e => (n, some (e % 16), s)
    | .ok (cls, p) =>
      let s := if va % 64 == 0 && 63 ≤ bs.length && !(r.dead && r.txn && cls == 0) then
          s.wholeLine (dieOf r.tile) (if r.dead then none else s.shTag r.lidx cls) p
        else s
      (s.svcPut1 r cls va p b.toNat (pois (n / 4))).svcPut r pois (va + 1) (n + 1) bs
/-- Regions of output, each an address and its bytes, in order. -/
def State.svcPuts (s : State) (r : SvcReq) (pois : Nat → Bool) : Nat → List (Nat × List Byte) → Nat × Option Nat × State
  | n, [] => (n, none, s)
  | n, (va, bs) :: rest =>
    match s.svcPut r pois va n bs with
    | (n, none, s) => s.svcPuts r pois n rest
    | r => r
/-- Regions of input, each an address and a length, in order. -/
def State.svcGets (s : State) (r : SvcReq) : List (Nat × Nat) → Except Nat (List Byte × Bool) × State
  | [] => (.ok ([], false), s)
  | (va, n) :: rest =>
    match s.svcGet r va n with
    | (.error e, s) => (.error e, s)
    | (.ok (bs, p), s) =>
      match s.svcGets r rest with
      | (.error e, s) => (.error e, s)
      | (.ok (cs, q), s) => (.ok (bs ++ cs, p || q), s)
/-- Groups of input regions, each group with its own poison. -/
def State.svcGroups (s : State) (r : SvcReq) : List (List (Nat × Nat)) → Except Nat (List (List Byte × Bool)) × State
  | [] => (.ok [], s)
  | g :: rest =>
    match s.svcGets r g with
    | (.error e, s) => (.error e, s)
    | (.ok b, s) =>
      match s.svcGroups r rest with
      | (.error e, s) => (.error e, s)
      | (.ok bs, s) => (.ok (b :: bs), s)
/-- The places of the lines of a region, with their class. -/
def State.svcPlaces (s : State) (r : SvcReq) (write : Bool) (g : Nat × Nat) : List (Nat × Loc) :=
  if g.2 == 0 then []
  else
    (List.range ((g.1 + g.2 - 1) / 64 - g.1 / 64 + 1)).filterMap fun i =>
      match s.svcPlace r (if i == 0 then g.1 else (g.1 / 64 + i) * 64) write with
      | .ok (4, _) => none
      | .ok p => if s.placeDead p.2 then none else some p
      | .error _ => none
/-- Whether regions may be reached now: what the unit's event needs of the lines of the issuer's die (R96, R101, R165), the sheltered launch's
hold (R177) and the shadow's ways (R154).  DESIGN CHOICE (log 66): a unit reaches memory through the slices, and the port, of its issuer's
die. -/
def State.svcReach (s : State) (r : SvcReq) (gs : List (Nat × Nat)) (write : Bool) : Bool × State :=
  let ev : Event := ⟨r.event, { die := r.die, unit := r.unit, id := r.id }⟩
  let ps := gs.flatMap (s.svcPlaces r write)
  let lines := ps.flatMap fun p => if r.dead then placeLines p.2 1 write else s.unitLines r.lidx p.1 p.2 1 write
  if !write && !r.dead && ps.any fun p => s.shelterHeld r.lidx p.1 (addrOf p.2) then (false, s.holdEvent ev)
  else
    let q := if write && !r.dead then
        ps.foldl (fun (q : Bool × State) p => if q.1 then q.2.wayFor r.lidx p.1 p.2 ev else q) (true, s)
      else (true, s)
    if q.1 then q.2.linesFor (dieOf r.tile) lines.eraseDups ev else q
/-- What a request writes: its regions, the output words that are poisoned, RESULT and STATUS. -/
structure SvcOut where
  regions : List (Nat × List Byte)
  pois : Nat → Bool
  result : Nat
  status : Nat
/-- The device lines that a request wrote in place are tested at the slices of the issuer's die (R162). -/
def State.svcTests (s : State) (r : SvcReq) (gs : List (Nat × Nat)) : State :=
  (gs.flatMap (s.svcPlaces r true)).foldl (fun s p =>
    match p.2, (if r.dead then none else s.shTag r.lidx p.1) with
    | .dev _ a, none => s.testAt (dieOf r.tile) a (if r.dead then none else some r.lidx)
    | _, _ => s) s
/-- The frame of a request (R120, R121, R123): refusals first, then its inputs are read, those that they name among them, then its outputs are
written, and the reply.  more gives, from the input bytes, the groups of further regions that it reads; out what it writes; and kept what a
request that nothing has stopped leaves behind. -/
def State.svcRun (s : State) (r : SvcReq) (ins ranges : List (Nat × Nat)) (more : List Byte → List (List (Nat × Nat)))
    (out : List Byte → Bool → List (List Byte × Bool) → SvcOut) (kept : State → State) : State :=
  match ins.findSome? fun p => s.svcRefused r p.1 p.2 false with
  | some (c, va) => s.svcDeny r c va false
  | none =>
    match ranges.findSome? fun p => s.svcRefused r p.1 p.2 true with
    | some (c, va) => s.svcDeny r c va true
    | none =>
      match s.svcReach r ins false with
      | (false, s) => s
      | (true, s) =>
        match s.svcGets r ins with
        | (.error e, s) => s.svcFinish r e 0 0
        | (.ok (bs, bad), s) =>
          match (more bs).flatten.findSome? fun p => s.svcRefused r p.1 p.2 false with
          | some (c, va) => s.svcDeny r c va false
          | none =>
            match s.svcReach r (more bs).flatten false with
            | (false, s) => s
            | (true, s) =>
              match s.svcGroups r (more bs) with
              | (.error e, s) => s.svcFinish r e 0 0
              | (.ok groups, s) =>
                let o := out bs bad groups
                let outs := o.regions.map fun p => (p.1, p.2.length)
                match s.svcReach r outs true with
                | (false, s) => s
                | (true, s) =>
                  let (n, stop, s) := s.svcPuts r o.pois 0 o.regions
                  let s := s.svcTests r outs
                  match stop with
                  | some e => s.svcFinish r e o.result n
                  | none => (kept s).svcFinish r o.status o.result n
/-- STATUS of a request whose input was read: POISON where any of it was poisoned (R123). -/
def poisStatus (bad : Bool) : Nat := if bad then 7 else 0
/-- The request that a unit event works on: the head of its unit's queue. -/
def State.svcHead (s : State) : Option SvcReq :=
  match s.svc.find? fun r => r.die == s.arg.die && r.unit == s.arg.unit with
  | some r => if r.id == s.arg.id then some r else none
  | none => none

/-! ### Video decode (R125, R126) -/

/-- Bytes of a stream context (R125). -/
def contextBytes : Nat := 65536
/-- Whether a whole stream context is one that a decoder may use: 4 KiB aligned, DIRECT (R125). -/
def State.contextOk (s : State) (r : SvcReq) (va : Nat) : Option Nat :=
  (List.range 16).findSome? fun i =>
    match s.svcPlace r (va + 4096 * i) true with
    | .ok (1, _) => none
    | .ok _ => some 5
    | .error e => some e
/-- The key of a stream context among the locked ones. -/
def SvcReq.contextKey (r : SvcReq) : Nat := r.asid * 2 ^ 64 + r.field 8 8
/-- A stream context. -/
def State.stream (s : State) (k : Nat) : StreamCtx := fget s.streams k StreamCtx.init
/-- A stream context changed. -/
def State.updStream (s : State) (k : Nat) (f : StreamCtx → StreamCtx) : State := { s with streams := fset s.streams k (f (s.stream k)) }
/-- The pictures that a decode request makes pending, within those that a decoder has (R117). -/
def SvcReq.newPics (r : SvcReq) : List Picture :=
  (Config.framePics r.id).zipIdx.map fun p =>
    { index := p.1.1 % 2 ^ 31, w := p.1.2.1 % 8193, h := p.1.2.2.1 % 4353, deep := p.1.2.2.2, id := r.id, n := p.2 }
/-- The pending picture that is next in display order (R125). -/
def nextPicture : List Picture → Option Picture
  | [] => none
  | p :: ps =>
    match nextPicture ps with
    | none => some p
    | some q => if q.index < p.index then some q else some p
/-- RESULT of a decode request (R122): the picture that it emits. -/
def SvcReq.picResult (r : SvcReq) : Option Picture → Nat
  | some p => p.w * 2 ^ 48 + p.h * 2 ^ 32 + p.index * 2 + 1
  | none => Config.emptyResult r.id % 2 ^ 63 * 2
/-- The regions of an emitted picture (R125): rows of luma, then of chroma; P010 has two bytes to a sample. -/
def SvcReq.pictureOut (r : SvcReq) : Option Picture → List (Nat × Nat)
  | none => []
  | some p =>
    let size := if r.field 29 1 == 1 then 2 else 1
    let pitch := r.field 48 4
    (List.range p.h).map (fun j => (r.field 32 8 + j * pitch, p.w * size)) ++
      (List.range ((p.h + 1) / 2)).map fun j => (r.field 40 8 + j * pitch, (p.w + 1) / 2 * 2 * size)
/-- A sample of a picture in NV12 (R125): 10 bits are rounded to 8, halves up. -/
def Picture.nv12 (p : Picture) (i : Nat) : Nat :=
  let v := Config.pictureSample p.id p.n i
  if !p.deep then v % 256 else if v % 1024 + 2 < 1024 then (v % 1024 + 2) / 4 else (Config.topSample (v % 1024)).toNat
/-- A sample of a picture in P010 (R125): 10 bits in bits [15:6]. -/
def Picture.p010 (p : Picture) (i : Nat) : Nat :=
  let v := Config.pictureSample p.id p.n i
  64 * (if p.deep then v % 1024 else Config.deepSample (v % 256) % 1024)
/-- A byte of an emitted picture by its running index. -/
def SvcReq.pictureByte (r : SvcReq) (p : Option Picture) (i : Nat) : Byte :=
  match p with
  | none => 0#8
  | some p => BitVec.ofNat 8 (if r.field 29 1 == 1 then p.p010 (i / 2) / 256 ^ (i % 2) else p.nv12 i)
/-- Regions of given lengths filled with bytes by their running index. -/
def fillRegions (f : Nat → Byte) : Nat → List (Nat × Nat) → List (Nat × List Byte)
  | _, [] => []
  | i, (va, n) :: rest => (va, (List.range n).map fun j => f (i + j)) :: fillRegions f (i + n) rest
/-- The fields of a decode request are in their ranges (R125). -/
def SvcReq.decodeFields (r : SvcReq) : Option Nat :=
  if r.field 30 2 != 0 || r.field 60 4 != 0 || bitB (r.field 4 4) 14 || 2 < r.op then some 2
  else if r.field 8 8 % 4096 != 0 || 2 ^ 26 < r.field 24 4 || 2 < r.field 28 1 || 1 < r.field 29 1 || r.field 48 4 % 64 != 0 then some 3
  else none
/-- What a decoder does with a request, in two parts: it locks the context, or finds it locked, and later finishes (R125). -/
def State.decodeWith (s : State) (work : State → SvcReq → State) : State :=
  match s.svcHead with
  | none => s
  | some r =>
    let me := r.die * 16 + r.unit
    match r.decodeFields with
    | some e => s.svcFinish r e 0 0
    | none =>
      match (s.stream r.contextKey).lock with
      | some u => if u == me then work s r else s.svcFinish r 8 0 0
      | none =>
        match s.contextOk r (r.field 8 8) with
        | some 5 => s.svcDeny r 5 (r.field 8 8) true
        | some e => if e == 4 then s.svcFinish r 4 0 0 else s.svcDeny r e (r.field 8 8) true
        | none =>
          (s.updStream r.contextKey fun x => { x with lock := some me }).after (64 * meshTicks) r.event
            { die := r.die, unit := r.unit, id := r.id }
/-- The context as a request leaves it: its format is not given (R125). -/
def SvcReq.contextOut (r : SvcReq) : Nat × List Byte := (r.field 8 8, (List.range contextBytes).map (Config.contextByte r.id))
/-- A decode request finds an error (R126): in its bitstream, or in a reference slot that is marked missing. -/
def SvcReq.decodeErr (r : SvcReq) (x : StreamCtx) : Bool :=
  Config.streamErr r.id || (!Config.frameKey r.id && (Config.frameRefs r.id).any fun j => x.missing.contains (j % 32))
/-- The context after a decode (R125, R126): an error marks the slot missing; else a key frame ends every mark, the slot is there, and the new
pictures are pending but for the one emitted. -/
def SvcReq.decoded (r : SvcReq) (x : StreamCtx) (out : Option Picture) : StreamCtx :=
  let slot := Config.frameSlot r.id % 32
  if r.decodeErr x then { x with missing := slot :: x.missing.filter (· != slot) }
  else
    { x with missing := if Config.frameKey r.id then [] else x.missing.filter (· != slot),
             pics := (x.pics ++ r.newPics).filter fun p => some p != out }
/-- DECODE (R125, R126): one temporal unit or access unit; a bitstream error drops the frame. -/
def execDecode (s : State) : Out :=
  .next (s.decodeWith fun s r =>
    let x := s.stream r.contextKey
    let err := r.decodeErr x
    let pic := if !err && Config.frameEmits r.id then nextPicture (x.pics ++ r.newPics) else none
    let rows := r.pictureOut pic
    let ref := if err then [] else [(r.field 52 8 + Config.frameSlot r.id % 32 * Config.bufferBytes r.id, Config.bufferBytes r.id)]
    let reads := if err then [] else (Config.frameRefs r.id).map fun j => (r.field 52 8 + j % 32 * Config.bufferBytes r.id, Config.bufferBytes r.id)
    s.svcRun r ([(r.field 8 8, contextBytes), (r.field 16 8, r.field 24 4)] ++ reads) (rows ++ ref) (fun _ => [])
      (fun _ bad _ =>
        { regions := fillRegions (r.pictureByte pic) 0 rows ++
            fillRegions (fun i => BitVec.ofNat 8 (Config.pictureSample r.id (2 ^ 16) i)) 0 ref ++ [r.contextOut],
          pois := fun i => bad && Config.outPoison r.id i, result := r.picResult pic,
          status := if err then 6 else poisStatus bad })
      fun s => s.updStream r.contextKey fun x => r.decoded x pic)
/-- EMIT_PICTURE (R125): one pending picture without decoding. -/
def execEmitPicture (s : State) : Out :=
  .next (s.decodeWith fun s r =>
    let pic := nextPicture (s.stream r.contextKey).pics
    let rows := r.pictureOut pic
    s.svcRun r [(r.field 8 8, contextBytes)] rows (fun _ => [])
      (fun _ bad _ =>
        { regions := fillRegions (r.pictureByte pic) 0 rows ++ [r.contextOut], pois := fun i => bad && Config.outPoison r.id i,
          result := r.picResult pic, status := poisStatus bad })
      fun s => s.updStream r.contextKey fun x => { x with pics := x.pics.filter fun p => some p != pic })
/-- CLEAR_CONTEXT (R125). -/
def execClearContext (s : State) : Out :=
  .next (s.decodeWith fun s r =>
    s.svcRun r [] [] (fun _ => []) (fun _ _ _ => { regions := [r.contextOut], pois := fun _ => false, result := 0, status := 0 })
      fun s => s.updStream r.contextKey fun x => { x with pics := [], missing := [] })

/-! ### Resize (R127) -/

/-- Bytes of an output element (R127). -/
def resizeElem (ty : Nat) : Nat := if ty < 2 then 2 else 1
/-- The pad value, BF16, converted to the output type with the rounding of R127. -/
def padCode (ty pad : Nat) : Nat :=
  match ty with
  | 0 => pad
  | 1 => (roundV fmtF16 .rne noOv (fmtBF16.val pad)).1
  | 2 => (roundV fmtE4M3 .rne noOv (fmtBF16.val pad)).1
  | _ =>
    match fmtBF16.val pad with
    | .fin false m e => min 255 (roundAt .rne false (255 * m) e 0).1
    | .inf false => 255
    | _ => 0
/-- The rows of an input image (R127): luma, then chroma at pitch × height; RGB8 has one plane. -/
def SvcReq.resizeIn (r : SvcReq) : List (Nat × Nat) :=
  let (w, h, pitch, va) := (r.field 32 2, r.field 34 2, r.field 24 4, r.field 8 8)
  let rows (b n bytes : Nat) : List (Nat × Nat) := (List.range n).map fun j => (b + j * pitch, bytes)
  match r.field 48 1 with
  | 0 => rows va h w ++ rows (va + pitch * h) ((h + 1) / 2) ((w + 1) / 2 * 2)
  | 1 => rows va h (2 * w) ++ rows (va + pitch * h) ((h + 1) / 2) ((w + 1) / 2 * 4)
  | _ => rows va h (3 * w)
/-- A rational number as a numerator and a denominator. -/
abbrev Rat2 := Int × Nat
/-- The sum of two rationals. -/
def addR (a b : Rat2) : Rat2 := (a.1 * b.2 + b.1 * a.2, a.2 * b.2)
/-- The product of two rationals. -/
def mulR (a b : Rat2) : Rat2 := (a.1 * b.1, a.2 * b.2)
/-- The letterboxed image in the output (R127): offsets, the first column and row past it, and the scale of each axis, source over output. -/
def SvcReq.letterbox (r : SvcReq) : (Nat × Nat) × (Nat × Nat) × (Nat × Nat) × (Nat × Nat) :=
  let (cw, ch, w, h) := (r.field 40 2, r.field 42 2, r.field 44 2, r.field 46 2)
  if r.field 52 1 == 0 then ((0, 0), (w, h), (cw, w), (ch, h))
  else if w * ch ≤ h * cw then
    let oy := (h * cw - w * ch) / (2 * cw)
    ((0, oy), (w, oy + (w * ch + cw - 1) / cw), (cw, w), (cw, w))
  else
    let ox := (w * ch - h * cw) / (2 * ch)
    ((ox, 0), (ox + (h * cw + ch - 1) / ch, h), (ch, h), (ch, h))
/-- The taps of a filter on one axis, each a source index and its weight, and the sum of the weights (R127): position x of the image, the scale,
the crop's first index, and 1 or 2 for a plane of full or of half resolution.  Samples are taken at pixel centres.  PRESUMED (log 66): the
bicubic kernel is that of Keys, and the area filter weighs each source sample by what the pixel covers of it. -/
def axisTaps (filter x num den crop half : Nat) : List (Int × Int) × Int :=
  let q : Int := 4 * den * half
  let p : Int := 2 * ((2 * x + 1) * num + 2 * den * crop : Nat) - 2 * (den * half : Nat)
  let k := p / q
  let f := p % q
  let taps := match filter with
    | 0 => [(k, q - f), (k + 1, f)]
    | 1 => [(k - 1, -f ^ 3 + 2 * f ^ 2 * q - f * q ^ 2), (k, 3 * f ^ 3 - 5 * f ^ 2 * q + 2 * q ^ 3),
            (k + 1, -3 * f ^ 3 + 4 * f ^ 2 * q + f * q ^ 2), (k + 2, f ^ 3 - f ^ 2 * q)]
    | _ =>
      let lo := x * num + crop * den
      let hi := lo + num
      let d := den * half
      (List.range ((hi - 1) / d - lo / d + 1)).map fun i =>
        let j := lo / d + i
        ((j : Int), ((min hi ((j + 1) * d) - max lo (j * d) : Nat) : Int))
  (taps.filter fun t => t.2 != 0, (taps.map (·.2)).sum)
/-- A filtered sample of a plane (R127), none where a tap lies beyond the crop: get reads a source sample. -/
def SvcReq.filtered (r : SvcReq) (x y half : Nat) (get : Nat → Nat → Nat) : Option Rat2 :=
  let (_, _, sx, sy) := r.letterbox
  let (tx, wx) := axisTaps (r.field 50 1) x sx.1 sx.2 (r.field 36 2) half
  let (ty, wy) := axisTaps (r.field 50 1) y sy.1 sy.2 (r.field 38 2) half
  let inside := fun (t : Int × Int) (lo n : Nat) => decide ((lo / half : Nat) ≤ t.1) && decide (t.1 ≤ ((lo + n - 1) / half : Nat))
  if tx.all (inside · (r.field 36 2) (r.field 40 2)) && ty.all (inside · (r.field 38 2) (r.field 42 2)) && 0 < wx && 0 < wy then
    some (((ty.map fun b => (tx.map fun a => a.2 * b.2 * (get a.1.toNat b.1.toNat : Int)).sum).sum), (wx * wy).toNat)
  else none
/-- Kr and Kb of a matrix in ten thousandths.  PRESUMED (log 66): those of the standards that R127 names. -/
def matrixK (m : Nat) : Nat × Nat :=
  match m % 3 with
  | 0 => (2990, 1140)
  | 1 => (2126, 722)
  | _ => (2627, 593)
/-- Red, green or blue of a luma and two chroma samples (R127): limited or full range, of 8 or 10 bits. -/
def toRgb (m : Nat) (deep : Bool) (y u v : Rat2) (c : Nat) : Rat2 :=
  let one := if deep then 1023 else 255
  let s := if deep then 4 else 1
  let mid : Int := -(128 * s : Nat)
  let luma := if m < 3 then mulR (addR y (-(16 * s : Nat), 1)) (1, 219 * s) else mulR y (1, one)
  let chroma := fun (z : Rat2) => mulR (addR z (mid, 1)) (1, if m < 3 then 224 * s else one)
  let (kr, kb) := matrixK m
  let kg := 10000 - kr - kb
  match c with
  | 0 => addR luma (mulR (chroma v) ((2 * (10000 - kr) : Nat), 10000))
  | 1 =>
    addR luma (addR (mulR (chroma u) (-(2 * kb * (10000 - kb) : Nat), 10000 * kg)) (mulR (chroma v) (-(2 * kr * (10000 - kr) : Nat), 10000 * kg)))
  | _ => addR luma (mulR (chroma u) ((2 * (10000 - kb) : Nat), 10000))
/-- A value clamped to [0, 1] in the output type (R127): floats rounded RNE, n8 rounded half to even to 255 × value. -/
def rgbCode (ty : Nat) (v : Rat2) : Nat :=
  let n := min v.1.toNat v.2
  let fl := fun (F : Fmt) => (roundV F .rne noOv (divV (.fin false n 0) (.fin false v.2 0)).1).1
  match ty with
  | 0 => fl fmtBF16
  | 1 => fl fmtF16
  | 2 => fl fmtE4M3
  | _ =>
    let q := 255 * n / v.2
    let rem := 2 * (255 * n % v.2)
    if v.2 < rem || (rem == v.2 && q % 2 == 1) then q + 1 else q
/-- A sample of the image before clamping (R127): channel, column and row; free where the filter reaches past the crop. -/
def SvcReq.resizeVal (r : SvcReq) (bs : List Byte) (c x y : Nat) : Rat2 :=
  let (w, h) := (r.field 32 2, r.field 34 2)
  let b := fun i => (bs.getD i 0#8).toNat
  let free : Rat2 := let e := Config.resizeEdge r.id ((c * r.field 46 2 + y) * r.field 44 2 + x); (e.1, e.2 + 1)
  match r.field 48 1 with
  | 2 => ((r.filtered x y 1 fun i j => b ((j * w + i) * 3 + c)).map fun v => mulR v (1, 255)).getD free
  | f =>
    let size := f + 1
    let cw := (w + 1) / 2 * 2
    let at_ := fun i => if f == 1 then (b (2 * i) + 256 * b (2 * i + 1)) / 64 else b i
    let base := w * h
    let uv := fun (k i j : Nat) => at_ (base + j * cw + 2 * i + k)
    match r.filtered x y 1 (fun i j => at_ (j * w + i)), r.filtered x y 2 (uv 0), r.filtered x y 2 (uv 1) with
    | some l, some u, some v => toRgb (r.field 51 1) (size == 2) l u v c
    | _, _, _ => free
/-- The output planes (R127): R, G and B at the channel stride, rows packed; the margin holds the pad value. -/
def SvcReq.resizeOut (r : SvcReq) (bs : List Byte) : List (Nat × List Byte) :=
  let (w, h, ty) := (r.field 44 2, r.field 46 2, r.field 49 1)
  let n := resizeElem ty
  let pad := leBytes n (padCode ty (r.field 54 2))
  let ((ox, oy), (ex, ey), _) := r.letterbox
  (List.range 3).flatMap fun c => (List.range h).map fun y =>
    (r.field 16 8 + c * r.field 28 4 + y * w * n,
     (List.range w).flatMap fun x =>
       if x < ox || ex ≤ x || y < oy || ey ≤ y then pad else leBytes n (rgbCode ty (r.resizeVal bs c (x - ox) (y - oy))))
/-- The regions that the output planes take. -/
def SvcReq.resizeRanges (r : SvcReq) : List (Nat × Nat) :=
  let (w, h, n) := (r.field 44 2, r.field 46 2, resizeElem (r.field 49 1))
  (List.range 3).flatMap fun c => (List.range h).map fun y => (r.field 16 8 + c * r.field 28 4 + y * w * n, w * n)
/-- RESIZE (R127). -/
def execResize (s : State) : Out :=
  .next (match s.svcHead with
    | none => s
    | some r =>
      let (cx, cy, cw, ch) := (r.field 36 2, r.field 38 2, r.field 40 2, r.field 42 2)
      let (w, h) := (r.field 44 2, r.field 46 2)
      if r.op != 0 || bitB (r.field 4 4) 14 || r.field 53 1 != 0 || r.field 56 8 != 0 then s.svcFinish r 2 0 0
      else if w == 0 || 8192 < w || h == 0 || 8192 < h || 2 < r.field 48 1 || 3 < r.field 49 1 || 2 < r.field 50 1 ||
          5 < r.field 51 1 || 1 < r.field 52 1 || cw == 0 || ch == 0 || r.field 32 2 < cx + cw || r.field 34 2 < cy + ch then
        s.svcFinish r 3 0 0
      else
        let (o, _) := r.letterbox
        s.svcRun r r.resizeIn r.resizeRanges (fun _ => [])
          (fun bs bad _ =>
            { regions := r.resizeOut bs, pois := fun i => bad && Config.outPoison r.id i, result := o.1 * 2 ^ 48 + o.2 * 2 ^ 32,
              status := poisStatus bad })
          id)

/-! ### Texture filtering (R128) -/

/-- The bytes of a texture request's i-th sample among its input. -/
def texSample (bs : List Byte) (i : Nat) : List Byte := (bs.drop (32 + 32 * i)).take 32
/-- TEXTURE_SAMPLE (R122, R123, R128): each sample's texels are read as the descriptor says, and the results written in sample order; the
descriptor's layout and the filter's precision are not given. -/
def execTextureSample (s : State) : Out :=
  .next (match s.svcHead with
    | none => s
    | some r =>
      let n := r.field 24 1
      let size := if r.field 25 1 == 0 then 8 else 16
      if r.op != 0 || bitB (r.field 4 4) 14 || r.field 26 6 != 0 || r.field 40 24 != 0 then s.svcFinish r 2 0 0
      else if n == 0 || 32 < n || 1 < r.field 25 1 then s.svcFinish r 3 0 0
      else
        match s.svcRefused r (r.field 8 8) 32 false with
        | some (c, va) => s.svcDeny r c va false
        | none =>
          match s.svcReach r [(r.field 8 8, 32)] false with
          | (false, s) => s
          | (true, s0) =>
            let bad := match (s0.svcGet r (r.field 8 8) 32).1 with
              | .ok (desc, _) => Config.descBad desc
              | .error _ => false
            if bad then s0.svcFinish r 3 0 0
            else
              s0.svcRun r [(r.field 8 8, 32), (r.field 16 8, 32 * n)] [(r.field 32 8, n * size)]
                (fun bs => (List.range n).map fun i => Config.texels (bs.take 32) (texSample bs i))
                (fun bs bad groups =>
                  let sampleBad := fun i => (groups.getD i ([], false)).2
                  { regions := [(r.field 32 8, (List.range (n * size)).map fun j =>
                      Config.textureByte (bs.take 32) (texSample bs (j / size)) (groups.getD (j / size) ([], false)).1 (j % size))],
                    pois := fun i => sampleBad (4 * i / size) || (bad && Config.outPoison r.id i),
                    result := ((List.range n).filter sampleBad).length, status := poisStatus (bad || groups.any (·.2)) })
                id)

/-! ### Rasterisation (R129) -/

/-- A coordinate in 1/256, or none where it is no number (R129). -/
def snap (w : Nat) : Option Int :=
  match fmtF32.val w with
  | .fin neg m e =>
    let lo := (roundAt .rtz neg m e (-8)).1
    let near := (roundAt .rne neg m e (-8)).1
    let half := roundAt .rtz neg m e (-9)
    let v := if !half.2 && half.1 % 2 == 1 then (if Config.snapTie w then lo + 1 else lo) else near
    some (if neg then -(v : Int) else v)
  | _ => none
/-- A snapped vertex, if it lies within ±16,384. -/
def snapVertex (x y : Nat) : Option (Int × Int) :=
  match snap x, snap y with
  | some a, some b => if a.natAbs ≤ 16384 * 256 && b.natAbs ≤ 16384 * 256 then some (a, b) else none
  | _, _ => none
/-- The edge function of a to b at p. -/
def edgeFn (a b p : Int × Int) : Int := (b.1 - a.1) * (p.2 - a.2) - (b.2 - a.2) * (p.1 - a.1)
/-- Whether a point is inside an edge under the top-left rule (R129), y growing downwards and the interior on the positive side. -/
def insideEdge (a b p : Int × Int) : Bool :=
  let e := edgeFn a b p
  let topLeft := b.2 < a.2 || (b.2 == a.2 && a.1 < b.1)
  decide (0 < e) || (e == 0 && topLeft)
/-- A triangle ready to be covered: its vertices clockwise on the screen, or none where it is discarded (R129). -/
def setupTri (cull cw : Bool) (v0 v1 v2 : Option (Int × Int)) : Option ((Int × Int) × (Int × Int) × (Int × Int)) :=
  match v0, v1, v2 with
  | some a, some b, some c =>
    let area := edgeFn a b c
    if area == 0 then none
    else if cull && (decide (0 < area)) != cw then none
    else if 0 < area then some (a, b, c) else some (a, c, b)
  | _, _, _ => none
/-- The coverage mask of a block within the scissor: bit 8 × row + column (R129). -/
def blockMask (x0 y0 x1 y1 : Nat) (v : (Int × Int) × (Int × Int) × (Int × Int)) (bx byy : Nat) : Nat :=
  (List.range 32).foldl (fun m i =>
    let x := 8 * bx + i % 8
    let y := 4 * byy + i / 8
    let p : Int × Int := (256 * x + 128, 256 * y + 128)
    if x0 ≤ x && x < x1 && y0 ≤ y && y < y1 && insideEdge v.1 v.2.1 p && insideEdge v.2.1 v.2.2 p && insideEdge v.2.2 v.1 p then
      m + 2 ^ i
    else m) 0
/-- The covered blocks of a triangle by increasing block y and then block x, with their masks (R129). -/
def coveredBlocks (x0 y0 x1 y1 : Nat) (v : (Int × Int) × (Int × Int) × (Int × Int)) : List (Nat × Nat × Nat) :=
  let rows := (List.range ((y1 - 1) / 4 + 1 - y0 / 4)).map (· + y0 / 4)
  let cols := (List.range ((x1 - 1) / 8 + 1 - x0 / 8)).map (· + x0 / 8)
  rows.flatMap fun j => (cols.map fun i => (i, j, blockMask x0 y0 x1 y1 v i j)).filter fun b => b.2.2 != 0
/-- The scissor of a rasteriser request. -/
def SvcReq.scissor (r : SvcReq) : Nat × Nat × Nat × Nat := (r.field 20 2, r.field 22 2, r.field 24 2, r.field 26 2)
/-- Bins of a scissor, across and in all (R129). -/
def SvcReq.binCount (r : SvcReq) : Nat × Nat :=
  let (x0, y0, x1, y1) := r.scissor
  ((x1 - x0 + 63) / 64, (x1 - x0 + 63) / 64 * ((y1 - y0 + 63) / 64))
/-- The bin of a block: that of its first pixel in the scissor (R129). -/
def SvcReq.binOf (r : SvcReq) (bx byy : Nat) : Nat :=
  let (x0, y0, _, _) := r.scissor
  (max (4 * byy) y0 - y0) / 64 * r.binCount.1 + (max (8 * bx) x0 - x0) / 64
/-- The blocks of a triangle from its 48 bytes, or none where it is discarded. -/
def SvcReq.triBlocks (r : SvcReq) (bs : List Byte) : Option (List (Nat × Nat × Nat)) :=
  let (x0, y0, x1, y1) := r.scissor
  let w := fun i => bytesAt bs (4 * i) 4
  let f := r.field 28 1
  (setupTri (bitB f 0) (bitB f 1) (snapVertex (w 0) (w 1)) (snapVertex (w 4) (w 5)) (snapVertex (w 8) (w 9))).map
    (coveredBlocks x0 y0 x1 y1)
/-- The records of a triangle's blocks written one by one, until a ring is full (R129). -/
def State.rasterBlocks (s : State) (r : SvcReq) (pois : Bool) : List (Nat × Nat × Nat) → SvcReq × Option Nat × State
  | [] => (r, none, s)
  | (bx, byy, m) :: rest =>
    let n := r.field 40 4
    let bin := r.binOf bx byy
    let va := r.field 32 8 + bin * 16 * n + 16 * (fget r.bins bin 0 % n)
    match s.svcPlace r va true with
    | .ok (_, .scr t off) =>
      if s.scrFull t off then (r, some 0, s)
      else
        let v := r.tri % 2 ^ 32 + bx * 2 ^ 32 + byy * 2 ^ 48 + m * 2 ^ 64
        let s := s.engineWords t off 16 v pois true
        s.rasterBlocks { r with blk := r.blk + 1, recs := r.recs + 1, bins := fset r.bins bin (fget r.bins bin 0 + 1) } pois rest
    | .ok _ => (r, some 5, s)
    | .error e => (r, some e, s)
/-- RESULT of a rasteriser request (R122). -/
def SvcReq.rasterResult (r : SvcReq) : Nat := r.recs % 2 ^ 32 * 2 ^ 32 + r.disc % 2 ^ 32
/-- The limits of a rasteriser request (R123, R129). -/
def SvcReq.rasterFields (r : SvcReq) : Option Nat :=
  let (x0, y0, x1, y1) := r.scissor
  let n := r.field 40 4
  if r.op != 0 || bitB (r.field 4 4) 14 || r.field 29 3 != 0 || r.field 44 20 != 0 || 3 < r.field 28 1 then some 2
  else if x1 ≤ x0 || y1 ≤ y0 || 16384 ≤ x1 || 16384 ≤ y1 || 64 < r.binCount.2 || n < 16 || 4096 < n || 2 ^ Nat.log2 n != n then some 3
  else none
/-- A request that waits on a full ring, until the time-out of R129. -/
def State.rasterWait (s : State) (r : SvcReq) : State :=
  let a : Arg := { die := r.die, unit := r.unit, id := r.id }
  match r.wait with
  | some _ => (s.setSvc r).after meshTicks .rasterise a
  | none =>
    ((s.setSvc { r with wait := some s.now }).after meshTicks .rasterise a).after (2 ^ 20 * meshTicks) .rasterOverflow
      { a with val := s.now }
/-- RASTERISE (R129): the next triangle of a request, or what is left of it. -/
def execRasterise (s : State) : Out :=
  .next (match s.svcHead with
    | none => s
    | some r =>
      match r.rasterFields with
      | some e => s.svcFinish r e 0 0
      | none =>
        let first := r.tri == 0 && r.blk == 0 && r.recs == 0 && r.disc == 0
        match (if first then s.svcRefused r (r.field 32 8) (r.binCount.2 * 16 * r.field 40 4) true else none) with
        | some (c, va) => s.svcDeny r c va true
        | none =>
          match (if first then s.svcRefused r (r.field 8 8) (48 * r.field 16 4) false else none) with
          | some (c, va) => s.svcDeny r c va false
          | none =>
            if r.field 16 4 ≤ r.tri then s.svcFinish r (if r.pois then 7 else 0) r.rasterResult (16 * r.recs)
            else
              match s.svcReach r [(r.field 8 8 + 48 * r.tri, 48)] false with
              | (false, s) => s
              | (true, s) =>
                match s.svcGet r (r.field 8 8 + 48 * r.tri) 48 with
                | (.error e, s) => s.svcFinish r e r.rasterResult (16 * r.recs)
                | (.ok (bs, bad), s) =>
                  let r := { r with pois := r.pois || bad }
                  let again (s : State) : State := s.after meshTicks .rasterise { die := r.die, unit := r.unit, id := r.id }
                  match r.triBlocks bs with
                  | none => again (s.setSvc { r with tri := r.tri + 1, blk := 0, disc := r.disc + 1, wait := none })
                  | some blocks =>
                    match s.rasterBlocks r bad (blocks.drop r.blk) with
                    | (r, none, s) => again (s.setSvc { r with tri := r.tri + 1, blk := 0, wait := none })
                    | (q, some 0, s) => s.rasterWait (if q.recs == r.recs then q else { q with wait := none })
                    | (r, some e, s) => if e % 16 == 5 then s.svcDeny r e (r.field 32 8) true else s.svcFinish r e r.rasterResult (16 * r.recs))
/-- RASTER_OVERFLOW (R129): a ring has stayed full for 2^20 mesh cycles; DETAIL names the first unfinished triangle. -/
def execRasterOverflow (s : State) : Out :=
  .next (match s.svcReq? s.arg.id with
    | none => s
    | some r => if r.wait == some s.arg.val then s.svcFinish r 9 r.rasterResult r.tri else s)

end Sys2Proof.Machine
end

