-- ==== Sys2Proof/Machine/Image.lean ====
section
/-! DEFINITION. The save image of a tile (R309 to R313): its byte stream, its blocks with their tags, and where they lie. -/
namespace Sys2Proof.Machine

/-- A byte string filled up with zeros to a length. -/
def padTo (n : Nat) (bs : List Byte) : List Byte := bs ++ List.replicate (n - bs.length) 0#8
/-- A byte string filled up to an 8-byte boundary (R311). -/
def padTo8 (bs : List Byte) : List Byte := padTo ((bs.length + 7) / 8 * 8) bs
/-- The bytes of some words. -/
def wordBytes (ws : List Word) : List Byte := ws.flatMap fun w => leBytes 4 w.toNat
/-- Bits packed into bytes, the first lowest. -/
def bitBytes : List Bool → List Byte
  | a :: b :: c :: d :: e :: f :: g :: h :: rest =>
    BitVec.ofNat 8 (a.toNat + 2 * b.toNat + 4 * c.toNat + 8 * d.toNat + 16 * e.toNat + 32 * f.toNat + 64 * g.toNat + 128 * h.toNat) ::
      bitBytes rest
  | [] => []
  | rest => [BitVec.ofNat 8 (rest.zipIdx.foldl (fun n p => n + p.1.toNat * 2 ^ p.2) 0)]
/-- The control registers in the order of R312, 48 bytes. -/
def Ctl.bytes (k : Ctl) : List Byte :=
  wordBytes [k.fpmode, k.fpstat, k.wavectl] ++ leBytes 8 k.uipc.toNat ++
    wordBytes [k.xferid, k.msc, k.rngseed, k.trapcause] ++ leBytes 8 k.trapaddr.toNat ++ leBytes 4 k.trapseq.toNat
/-- The divergence stack (R312): 32 entries of 16 bytes. -/
def dstackBytes (d : List (BitVec 48 × Word)) : List Byte :=
  padTo 512 (d.flatMap fun e => leBytes 8 e.1.toNat ++ leBytes 8 e.2.toNat)
/-- A stream register (R453): 32 bytes. -/
def Stream.bytes (x : Stream) : List Byte := padTo 32 (leBytes 8 x.base.toNat ++ wordBytes [x.stride, x.limit, x.count])
/-- The record of a wave (R312). -/
def Ctx.waveBytes (k : Ctx) : List Byte :=
  let r := k.regs
  let vs := (List.range k.live).map fun i => fget r.v i VReg.zero
  let fixed :=
    wordBytes ((List.range 63).map fun i => fget r.s i 0#32) ++ leBytes 8 r.sp.toNat ++
      leBytes 8 (r.pc.toNat + r.q % 512 * 2 ^ 48 + (k.gang.getD 127) % 128 * 2 ^ 57) ++ leBytes 4 r.exec.toNat ++
      wordBytes ((List.range 7).map fun i => fget r.m (i + 1) 0#32) ++ leBytes 4 (k.live + r.dstack.length * 2 ^ 16) ++
      dstackBytes r.dstack ++ ((List.range 8).flatMap fun i => (fget r.st i ⟨0, 0, 0, 0⟩).bytes) ++
      ((List.range 16).flatMap fun i => leBytes 64 (fget r.tm i 0#512).toNat) ++ k.ctl.bytes ++ leBytes 4 k.dseq ++
      padTo 64 (k.uiq.flatMap fun u => leBytes 6 u.handler.toNat ++ leBytes 2 u.xfer)
  padTo 2304 fixed ++ padTo8 ((vs.flatMap fun v => wordBytes v.lanes.toList) ++ (vs.flatMap fun v => leBytes 4 v.poison.toNat) ++
    bitBytes (vs.map (·.uniform)))
/-- The record of a path thread (R311), 128 bytes; the spec gives its parts, and the model their order within it. -/
def Ctx.threadBytes (k : Ctx) : List Byte :=
  let r := k.regs
  padTo 128 (wordBytes ((List.range 16).map fun i => fget r.s i 0#32) ++ leBytes 2 (r.sp.toNat % 2 ^ 16) ++ leBytes 4 r.pw.toNat ++
    leBytes 6 r.pc.toNat ++ leBytes 4 (k.hdr.thread + k.hdr.seq % 256 * 2 ^ 24) ++
    leBytes 4 (k.hdr.opkg % 256 + k.hdr.otile % 1024 * 2 ^ 8 + k.hdr.cls % 64 * 2 ^ 18) ++ leBytes 4 k.hdr.seg ++
    wordBytes [k.ctl.fpmode, k.ctl.fpstat, k.ctl.xferid, k.ctl.trapcause] ++ leBytes 8 k.ctl.uipc.toNat ++
    leBytes 8 k.ctl.trapaddr.toNat)
/-- The record of a gang (R311), 16 bytes. -/
def gangBytes (n : Nat) (g : Gang) (accmap : Nat) : List Byte :=
  leBytes 2 n ++ leBytes 2 g.members.length ++ leBytes 4 accmap ++ leBytes 4 g.pool.length ++ leBytes 4 g.rank
/-- The stream of a tile's image (R311). -/
def Saved.stream (x : Saved) (l swouts mask : Nat) : List Byte :=
  let waves := x.ctxs.filter fun p => !isPath p.1 && p.2.status == .stopped
  let threads := x.ctxs.filter fun p => isPath p.1
  let accmap := fun (g : Nat) => ((x.owners.filter fun p => p.2 == g).map fun p => 2 ^ p.1).sum
  let bars := (List.range 32).map fun b => match fget? x.bars b with | some y => y.word | none => 0#32
  let accs := (List.range 16).filter fun a => bitB mask a
  let accBytes := accs.flatMap fun a => (List.range 2048).flatMap fun i => leBytes 4 (fget x.acc (a * 2048 + i) 0)
  let key := scrKey x.tile x.lbase
  let word := fun (i : Nat) => x.bytes.readN (key + 4 * i) 4
  let loc := padTo8 (((List.range (x.lsize / 4)).flatMap fun i => leBytes 4 (word i)) ++
    bitBytes ((List.range (x.lsize / 4)).flatMap fun i => [x.full.contains (key / 4 + i), x.spois.contains (key / 4 + i)]))
  let parks := x.parks.flatMap fun p => leBytes 4 p.off ++ leBytes 4 p.lane ++ leBytes 8 p.op
  let body := wordBytes bars ++ (x.gangs.flatMap fun p => gangBytes p.1 p.2 (accmap p.1)) ++ (waves.flatMap fun p => p.2.waveBytes) ++
    (threads.flatMap fun p => p.2.threadBytes) ++ accBytes ++ loc ++ parks
  let head := leBytes 4 l ++ leBytes 4 x.tile ++ leBytes 4 swouts ++ leBytes 2 waves.length ++ leBytes 2 threads.length ++
    leBytes 4 (x.lsize / 1024) ++ leBytes 4 (64 + body.length) ++ leBytes 4 mask
  padTo 64 head ++ body
/-- Bytes of the stream in one block (R310). -/
def blockData : Nat := 4088
/-- Blocks that a stream of n bytes takes. -/
def blocksOf (n : Nat) : Nat := (n + blockData - 1) / blockData
/-- The bytes of a block of the stream, filled up with zeros. -/
def blockBytes (stream : List Byte) (i : Nat) : List Byte := padTo blockData ((stream.drop (i * blockData)).take blockData)
/-- The tag of a block (R310), under the key of a boot. -/
def blockTag (boot l tile swouts i : Nat) (data : List Byte) : Nat :=
  Config.hmac (Config.bootKey boot) (leBytes 2 l ++ leBytes 2 tile ++ leBytes 4 swouts ++ leBytes 4 i ++ data) % 2 ^ 64
/-- The free pages of a launch's detour area, as addresses (R156, R309): shadow pages that are not bound, the highest first, and that
no image uses. -/
def State.freeDetour (s : State) (x : Launch) : List Nat :=
  let bound := match x.vtag? with | some g => (fget s.txn.detPages g []).length | none => 0
  let n := x.r.detsize - mapPages x.r.detsize - bound
  ((List.range n).map fun i => x.r.detbase + (x.r.detsize - 1 - i) * 65536).filter fun a => !x.imgPages.contains (a / 65536)
/-- A page can hold part of an image: each of its 4 KiB blocks can be translated for a store by a die (R156). -/
def State.detourWritable (s : State) (d asid va : Nat) : Bool :=
  (List.range 16).all fun i => match s.detourPlace d asid (va + 4096 * i) with | .ok _ => true | .error _ => false
/-- n bytes written from a page's address up by a tile's supervisor, in whole lines. -/
def State.putBlock (s : State) (d asid va : Nat) (bs : List Byte) : State :=
  (List.range 64).foldl (fun s i =>
    match s.detourPlace d asid (va + 64 * i) with
    | .ok p => s.agentLater d p 64 (leNat ((bs.drop (64 * i)).take 64))
    | .error _ => s) s
/-- A block as it is read back: its bytes, whether a line of it is poisoned, and the physical address of its first line; none where it
cannot be translated (R313). -/
def State.getBlock (s : State) (d asid va : Nat) : Option (List Byte × Bool × Nat) :=
  let lines := (List.range 64).map fun i =>
    match s.translate d asid (va + 64 * i) 0 false true with
    | .ok (_, p) => some (if s.placeDead p then (0, true) else s.agentRead d p 64, addrOf p)
    | .error _ => none
  if lines.any Option.isNone then none
  else
    let rs := lines.filterMap fun x => x
    some (rs.flatMap fun r => leBytes 64 r.1.1, rs.any fun r => r.1.2, (rs.head?.map (·.2)).getD 0)
/-- An image written to pages of the detour area, its blocks in order (R310). -/
def State.putImage (s : State) (d asid boot l swouts : Nat) (x : Saved) (stream : List Byte) : State :=
  x.blocks.zipIdx.foldl (fun s b =>
    let data := blockBytes stream b.2
    s.putBlock d asid b.1 (data ++ leBytes 8 (blockTag boot l x.tile swouts b.2 data))) s
/-- Whether every block of an image bears its tag, or the physical address of the first one that does not (R313). -/
def State.checkImage (s : State) (d asid l : Nat) (x : Saved) : Option Nat :=
  x.blocks.zipIdx.findSome? fun b =>
    match s.getBlock d asid b.1 with
    | none => some 0
    | some (bs, bad, pa) =>
      if bad || leNat (bs.drop blockData) != blockTag x.boot l x.tile x.nth b.2 (bs.take blockData) then some pa else none

end Sys2Proof.Machine
end

