-- ==== Sys2Proof/Machine/Placement.lean ====
section
/-! DEFINITION. Launch records and their checks, and what a tile needs to take a launch: its reservation, its register blocks and the
compactor (R139, R140, R190, R191, R193, R195, R197, R198, R245, R246). -/
namespace Sys2Proof.Machine

/-! ### Records (R139, R140) -/

/-- The fields of a record (R139). -/
def recOf (v : Nat) : Rec :=
  { entry := bits v 47 0, waves := bits v 55 48, x0 := bits v 68 64, y0 := bits v 73 69, w := bits v 79 74, h := bits v 85 80,
    quota := bits v 88 86, acc := bits v 93 89, loc := bits v 111 96, pslots := bits v 116 112, classtab := bits v 175 128,
    args := bits v 239 192, budget := bits v 287 256, prio := bits v 290 288, txn := bitB v 291, lenient := bitB v 292,
    msix := bitB v 293, persist := bitB v 294, ndep := bits v 297 295,
    deps := [bits v 607 576, bits v 639 608, bits v 671 640, bits v 703 672], detbase := bits v 367 320,
    detsize := bits v 415 384, lodseed := BitVec.ofNat 32 (bits v 447 416), compaddr := bits v 495 448,
    compval := bits v 575 512 }
/-- The reserved fields of a record (R139). -/
def recReserved : List (Nat × Nat) :=
  [(63, 56), (95, 94), (127, 117), (191, 176), (255, 240), (319, 298), (383, 368), (511, 496), (1791, 704), (1815, 1815),
   (1831, 1826), (1855, 1848), (1919, 1908), (2047, 2016)]
/-- A field outside its range (R139, R140). -/
def Rec.outOfRange (r : Rec) (ceil : Nat) : Bool :=
  r.waves == 0 || 192 < r.waves || r.w == 0 || 32 < r.w || r.h == 0 || 32 < r.h || 5 < r.quota || 16 < r.acc || 480 < r.loc ||
  30 < r.pslots || r.entry % 2 != 0 || r.compaddr % 8 != 0 || r.classtab % 512 != 0 || r.detbase % 65536 != 0 ||
  (r.txn && r.detsize < 32) || 4 < r.ndep || ceil < r.prio || 32 < r.x0 + r.w || 32 < r.y0 + r.h ||
  8192 < r.waves * 8 * 2 ^ r.quota
/-- The dependences in use. -/
def Rec.inUse (r : Rec) : List Nat := r.deps.take r.ndep
/-- A dependence names the record itself or a later one of its own queue (R140). -/
def Rec.selfDep (r : Rec) (q i : Nat) : Bool :=
  r.inUse.any fun t => t / 2 ^ 15 == q && !(decide (1 ≤ (i % 2 ^ 15 + 2 ^ 15 - t % 2 ^ 15) % 2 ^ 15) &&
    decide ((i % 2 ^ 15 + 2 ^ 15 - t % 2 ^ 15) % 2 ^ 15 ≤ 2 ^ 14))
/-- A record is rejected (R140). -/
def recBad (v ceil q i : Nat) : Bool :=
  (recReserved.any fun b => bits v b.1 b.2 != 0) || 9 < bits v 1807 1800 || 7 < bits v 1814 1811 || (recOf v).outOfRange ceil || (recOf v).selfDep q i
/-- A dependence is met (R140): the launch has ended, or its queue's READIDX has passed it. -/
def State.depMet (s : State) (t : Nat) : Bool :=
  let x := s.queue (t / 2 ^ 15)
  let n := (x.readIdx % 2 ^ 15 + 2 ^ 15 - t % 2 ^ 15) % 2 ^ 15
  x.ended.any (fun i => i % 2 ^ 15 == t % 2 ^ 15) || (decide (1 ≤ n) && decide (n ≤ 2 ^ 14))

/-! ### What a tile needs (R193, R195, R197) -/

/-- The least power of two that is no less than n. -/
def pow2Up (n : Nat) : Nat := (((List.range 20).map (2 ^ ·)).find? fun p => n ≤ p).getD n
/-- A 1 KiB granule of the local area lies in no block. -/
def Tile.localFree (x : Tile) (g : Nat) : Bool :=
  x.locBase ≤ 1024 * g && !x.shares.any fun h => h.lsize != 0 && h.lbase ≤ 1024 * g && decide (1024 * g < h.lbase + h.lsize)
/-- The place of a local block of n granules (R197, R241). -/
def Tile.localPlace (x : Tile) (n : Nat) : Option Nat := buddyFind x.localFree (x.locBase / 1024) 512 (2 ^ x.lmax) n
/-- Granules of the local block of a record; none for LOCAL = 0 (R195). -/
def Rec.localGrans (r : Rec) : Nat := if r.loc == 0 then 0 else pow2Up r.loc
/-- Granules of registers of each wave of a record (R195). -/
def Rec.waveGrans (r : Rec) : Nat := 2 ^ r.quota
/-- The shares of a tile's admitted launches. -/
def Tile.admitted (x : Tile) : List Share := x.shares.filter fun h => !h.ended && !h.guest && !h.away
/-- What a tile needs beside its local block and the numbers of a switched-out launch (R193, R195, R243). -/
def State.tileRoom (s : State) (t waves grans acc pslots packets : Nat) : Bool :=
  let y := s.tile t
  let l := y.admitted
  s.dieUp (dieOf t) && !(s.die (dieOf t)).stopped && !y.stopped && y.scrset.isNone && l.length < 8 &&
  (l.map (·.waves)).sum + waves ≤ 192 && grans + (l.map (·.grans)).sum ≤ y.un.freeGrans && (l.map (·.acc)).sum + acc ≤ 16 &&
  (l.map (·.pslots)).sum + pslots ≤ 28 && (y.shares.map (·.packets)).sum + packets ≤ s.packetCap t
/-- Whether a rectangle holds a tile (R194). -/
def Hold.has (h : Hold) (t : Nat) : Bool := (rectTiles h.x h.y h.w h.h).contains t
/-- A tile is held for another record (R190, R194). -/
def State.heldFrom (s : State) (tag t : Nat) : Bool := s.holds.any fun h => h.tag != tag && h.has t
/-- Granules that the saved waves and gangs of a tile hold. -/
def Saved.grans (y : Saved) : Nat :=
  (y.ctxs.map fun p => (p.2.regs.blocks.map (·.2)).sum).sum + (y.gangs.map fun p => p.2.pool.length).sum
/-- Waves of a launch on a tile whose image is kept: its contexts below 192. -/
def Saved.waves (y : Saved) : List Nat := (y.ctxs.filter fun p => !isPath p.1).map (·.1)
/-- A tile can take a switched-out launch back: with the numbers and the block that its programs know (R195, R208). -/
def State.tileTakes (s : State) (y : Saved) : Bool :=
  let x := s.tile y.tile
  s.tileRoom y.tile y.waves.length y.grans y.accs y.pslots 0 &&
  (y.ctxs.all fun p => if isPath p.1 then (x.ctx p.1).status == .idle else (fget? x.ctxs p.1).isNone) &&
  (y.gangs.all fun p => (fget? x.mx.gangs p.1).isNone) && (y.owners.all fun p => (fget? x.mx.accOwner p.1).isNone) &&
  (y.bars.all fun p => !(fget x.sync.bar p.1 Barrier.init).opened) &&
  (List.range (y.lsize / 1024)).all fun i => x.localFree (y.lbase / 1024 + i)
/-- A tile can take a launch (R194, R195): at its fresh admission, or on its resumption. -/
def State.tileFits (s : State) (x : Launch) (packets t : Nat) : Bool :=
  let r := x.r
  !s.heldFrom x.tag t &&
  if x.run == 2 then x.saved.all fun y => y.tile != t || s.tileTakes y
  else s.tileRoom t r.waves (r.waves * r.waveGrans) r.acc r.pslots packets &&
    (r.loc == 0 || ((s.tile t).localPlace r.localGrans).isSome)

/-! ### Reserving (R192, R195) -/

/-- A tile takes everything that a launch needs there: the lowest free wave contexts among them. -/
def State.reserveFresh (s : State) (x : Launch) (l packets credits t : Nat) : State :=
  let r := x.r
  s.updTile t fun y =>
    let lbase := if r.loc == 0 then 0 else (y.localPlace r.localGrans).getD 0 * 1024
    let ns := ((List.range 192).filter fun c => (fget? y.ctxs c).isNone).take r.waves
    { y with shares := y.shares ++ [{ lidx := l, lbase := lbase, lsize := r.localGrans * 1024, acc := r.acc, pslots := r.pslots,
                                      packets := packets, credits := credits, creditQ := [], classes := none, viol := 0,
                                      ended := false, started := false, guest := false, waves := r.waves,
                                      grans := r.waves * r.waveGrans, away := false }],
             ctxs := ns.zipIdx.foldl (fun m c => fset m c.1 { Ctx.init with lidx := l, windex := c.2 }) y.ctxs }
/-- A tile takes a switched-out launch back: its contexts stand stopped, without registers of their own as yet. -/
def State.reserveSaved (s : State) (l : Nat) (y : Saved) : State :=
  let s := s.updTile y.tile fun x =>
    let x := x.updShare l fun h =>
      { h with lbase := y.lbase, lsize := y.lsize, acc := y.accs, pslots := y.pslots, waves := y.waves.length, grans := y.grans,
               away := false, started := false }
    let put := fun (m : FMap Ctx) (p : Nat × Ctx) =>
      fset m p.1 (if p.2.status == .idle then p.2 else { p.2 with status := .stopped, regs := { p.2.regs with blocks := [] } })
    { x with ctxs := y.ctxs.foldl put x.ctxs,
             mx := { x.mx with gangs := y.gangs.foldl (fun m g => fset m g.1 { g.2 with pool := [] }) x.mx.gangs,
                               accOwner := y.owners.foldl (fun m a => fset m a.1 a.2) x.mx.accOwner },
             sync := { x.sync with bar := y.bars.foldl (fun m b => fset m b.1 b.2) x.sync.bar } }
  s
/-- The packets each tile of a launch reserves, of its effective budget over n tiles (R56). -/
def packetsPer (budget n : Nat) : Nat := (budget + n - 1) / n
/-- The credits of the i-th tile of n (R216). -/
def creditsAt (budget n i : Nat) : Nat := budget / n + if i < budget % n then 1 else 0
/-- Some tiles of a launch's set reserved. -/
def State.reserveOn (s : State) (x : Launch) (l : Nat) (ts : List Nat) : State :=
  if x.run == 2 then (x.saved.filter fun y => ts.contains y.tile).foldl (fun s y => s.reserveSaved l y) s
  else
    let n := x.tiles.length
    (x.tiles.zipIdx.filter fun p => ts.contains p.1).foldl
      (fun s (p : Nat × Nat) => s.reserveFresh x l (packetsPer x.budget n) (creditsAt x.budget n p.2) p.1) s
/-- A tile without what was reserved and not yet used. -/
def Tile.unreserve (x : Tile) (l : Nat) (y : Option Saved) : Tile :=
  let x := { x with ctxs := x.ctxs.filter fun (p : Nat × Ctx) => p.2.lidx != l || (p.2.status == Status.idle && isPath p.1) }
  match y with
  | none => { x with shares := x.shares.filter fun h => h.lidx != l || h.ended }
  | some y =>
    let x := x.updShare l fun h => { h with lbase := 0, lsize := 0, acc := 0, pslots := 0, waves := 0, grans := 0, away := true }
    { x with mx := { x.mx with gangs := x.mx.gangs.filter fun (g : Nat × Gang) => g.2.lidx != l,
                               accOwner := x.mx.accOwner.filter fun (a : Nat × Nat) => !y.owners.contains a },
             sync := { x.sync with bar := x.sync.bar.map fun (b : Nat × Barrier) => if b.2.opened && b.2.lidx == l then (b.1, Barrier.init) else b } }
/-- Some tiles given back (R192). -/
def State.unreserveOn (s : State) (x : Launch) (l : Nat) (ts : List Nat) : State :=
  ts.foldl (fun s t =>
    s.updTile t fun y => y.unreserve l (if x.run == 2 then x.saved.find? fun z => z.tile == t else none)) s

/-! ### Origins (R190, R191, R209) -/

/-- A record's origins in first-fit order (R190); a switched-out launch has its own alone (R208). -/
def Launch.origins (x : Launch) : List (Nat × Nat) :=
  if x.run == 2 then [(x.r.x0, x.r.y0)]
  else
    (x.r.x0, x.r.y0) :: (List.range (33 - x.r.h)).flatMap fun y => (List.range (33 - x.r.w)).map fun a => (a, y)
/-- A launch moved to an origin. -/
def Launch.at_ (x : Launch) (o : Nat × Nat) : Launch := { x with r := { x.r with x0 := o.1, y0 := o.2 } }
/-- The tags of launches whose occupancy a record no longer tries (R209). -/
def State.outlasted (s : State) (tag : Nat) : List Nat := (s.outlast.filter fun p => p.1 == tag).map (·.2)
/-- The launches that occupy some tiles. -/
def State.occupants (s : State) (ts : List Nat) : List Nat :=
  (ts.flatMap fun t => (s.tile t).admitted.map (·.lidx)).eraseDups
/-- An origin is not skipped (R190, R209). -/
def State.originOk (s : State) (x : Launch) (o : Nat × Nat) : Bool :=
  let ts := (x.at_ o).tiles
  let old := s.outlasted x.tag
  (ts.all fun t => !s.tilesGone (dieOf t)) && (match x.excl with | some t => !ts.contains t | none => true) &&
  (!x.r.persist || ts.all fun t => dieOf t == dieOf (x.r.y0 * 32 + x.r.x0)) &&
  (old.isEmpty || !(s.occupants ts).any fun l => old.contains (s.launch l).tag)
/-- The largest local block of a tile, with the change of its partition that is pending (R191, R241). -/
def Tile.lmaxPending (x : Tile) : Nat :=
  match x.scrset with
  | some (i, g) => max x.lmax { x with inboxU := i, segU := g }.lmax
  | none => x.lmax
/-- No placement could ever take a record (R191). -/
def State.impossible (s : State) (x : Launch) : Bool :=
  let r := x.r
  let own := rectTiles r.x0 r.y0 r.w r.h
  let fits := fun (o : Nat × Nat) => (x.at_ o).tiles.all fun t =>
    !s.tilesGone (dieOf t) && (r.loc == 0 || r.localGrans ≤ 2 ^ (s.tile t).lmaxPending)
  28 < r.pslots || (r.persist && own.any fun t => dieOf t != dieOf (r.y0 * 32 + r.x0)) || !x.origins.any fits

/-! ### Register blocks at a start, and the compactor (R197, R198, R253) -/

/-- A block of n granules given to a holder, or none where no aligned one is free. -/
def Tile.takeBlock (x : Tile) (holder n : Nat) : Option (Nat × Tile) :=
  (buddyFind x.un.granFree 0 1024 32 n).map fun b => (b, { x with un := { x.un with gran := x.un.gran ++ [(b, n, holder)] } })
/-- A wave of a launch is given a block of n granules; none where the compactor must run first (R197). -/
def Tile.giveBlock (x : Tile) (l c n : Nat) : Option Tile :=
  (x.takeBlock c n).map fun p =>
    let k := p.2.ctx c
    (p.2.setCtx c { k with regs := { k.regs with blocks := k.regs.blocks ++ [(p.1, n)] } }).updShare l fun h =>
      { h with grans := h.grans - n }
/-- Blocks given to waves in order, as far as they go: what is left, and the tile. -/
def Tile.giveBlocks (l : Nat) : Tile → List (Nat × Nat) → List (Nat × Nat) × Tile
  | x, [] => ([], x)
  | x, (c, n) :: rest =>
    match x.giveBlock l c n with
    | some y => Tile.giveBlocks l y rest
    | none => ((c, n) :: rest, x)
/-- The blocks that a tile's waves still want, as their wave and size: want gives all those of a wave. -/
def Tile.wanted (x : Tile) (want : List (Nat × List Nat)) : List (Nat × Nat) :=
  want.flatMap fun w => (w.2.drop (x.ctx w.1).regs.blocks.length).map fun n => (w.1, n)
/-- The number j of 2^j granules. -/
def log2Of (n : Nat) : Nat := ((List.range 12).find? fun j => n ≤ 2 ^ j).getD 0
/-- The compactor asked for a region for an admission (R197). -/
def State.askCompactor (s : State) (t n : Nat) : State :=
  if (s.tile t).un.compact.any fun r => r.2 == 256 then s
  else (s.updUn t fun u => { u with compact := u.compact ++ [(log2Of n, 256)] }).pend .compactorMove { tile := t }
/-- Registers for the waves of a launch on a tile: whether each has its blocks, and else the compactor is asked. -/
def State.giveRegs (s : State) (t l : Nat) (want : List (Nat × List Nat)) : Bool × State :=
  let x := s.tile t
  let (left, y) := x.giveBlocks l (x.wanted want)
  let s := s.setTile t y
  match left with
  | [] => (true, s)
  | (_, n) :: _ => (false, s.askCompactor t n)

/-- A gang's granules listed one by one (R253). -/
def Tile.listPool (x : Tile) (g : Nat) : Tile :=
  let rest := (x.gang? g).elim [] fun y => y.pool.map fun p => (p.1, 1, gangHolder g)
  { x with un := { x.un with gran := (x.un.gran.filter fun z => z.2.2 != gangHolder g) ++ rest } }
/-- A block moved to another place with its contents (R198). -/
def Tile.moveBlock (x : Tile) (e : Nat × Nat × Nat) (dst : Nat) : Tile :=
  let x := { x with un := { x.un with gran := x.un.gran.map fun z => if z == e then (dst, e.2.1, e.2.2) else z } }
  if 256 ≤ e.2.2 then
    x.updGang (e.2.2 - 256) fun y =>
      { y with pool := (y.pool.filter fun p => e.1 ≤ p.1 && p.1 < e.1 + e.2.1).foldl
                 (fun m p => fset m (dst + (p.1 - e.1)) p.2) (y.pool.filter fun p => p.1 < e.1 || e.1 + e.2.1 ≤ p.1) }
  else
    let k := x.ctx e.2.2
    x.setCtx e.2.2 { k with regs := { k.regs with blocks := k.regs.blocks.map fun b => if b.1 == e.1 then (dst, b.2) else b } }
/-- Granules of a pool moved out of the way of a block that comes to lie at dst: they come to lie at b (R253). -/
def Tile.movePool (x : Tile) (g b n dst : Nat) : Tile :=
  (x.updGang g fun y =>
    { y with pool := (y.pool.filter fun p => dst ≤ p.1 && p.1 < dst + n).foldl (fun m p => fset m (b + (p.1 - dst)) p.2)
               (y.pool.filter fun p => p.1 < dst || dst + n ≤ p.1) }).listPool g
/-- The lowest aligned place of n granules that a test allows, outside the region of m granules at r. -/
def placeOutside (ok : Nat → Bool) (r m n : Nat) : Option Nat :=
  ((List.range (1024 / n)).map (· * n)).find? fun b => (b + n ≤ r || r + m ≤ b) && rangeFree ok b n
/-- The blocks of a region in increasing address, but for those a test leaves out. -/
def Tile.blocksIn (x : Tile) (r m : Nat) (out : Nat → Bool) : List (Nat × Nat × Nat) :=
  let l := x.un.gran.filter fun z => r ≤ z.1 && z.1 < r + m && !out z.2.2
  l.foldl (fun (acc : List (Nat × Nat × Nat)) z => acc.filter (·.1 < z.1) ++ [z] ++ acc.filter (z.1 < ·.1)) []
/-- A region freed for an admission (R198). -/
def Tile.compactFree (x : Tile) (n : Nat) : Tile :=
  match bestRegion x.un.granFree (fun _ => true) n with
  | none => x
  | some r =>
    (x.blocksIn r n fun _ => false).foldl (fun (x : Tile) e =>
      match placeOutside x.un.granFree r n e.2.1 with
      | some d => x.moveBlock e d
      | none => x) x
/-- A region filled with a gang's pool (R198, R253): its other blocks and its free granules change places with the pool's. -/
def Tile.compactPool (x : Tile) (g n : Nat) : Tile :=
  let x := x.listPool g
  let inPool := fun (x : Tile) (i : Nat) => ((x.gang? g).bind fun y => fget? y.pool i).isSome
  match bestRegion (inPool x) (fun _ => true) n with
  | none => x
  | some r =>
    let x := (x.blocksIn r n fun h => h == gangHolder g).foldl (fun (x : Tile) e =>
      match placeOutside (inPool x) r n e.2.1 with
      | some d => (x.moveBlock e d).movePool g e.1 e.2.1 d
      | none => x) x
    ((List.range n).map (r + ·)).foldl (fun (x : Tile) i =>
      if x.un.granFree i then
        match placeOutside (inPool x) r n 1 with
        | some d => x.movePool g i 1 d
        | none => x
      else x) x
/-- COMPACTOR_MOVE (R198, R253): one request at a time, in the order of the requests. -/
def execCompactorMove (s : State) : Out :=
  let t := s.arg.tile
  .next (match (s.tile t).un.compact with
    | [] => s
    | (j, who) :: rest =>
      let s := s.updTile t fun x =>
        let x := { x with un := { x.un with compact := rest } }
        if who == 256 then x.compactFree (2 ^ j)
        else match (x.ctx who).gang with | some g => x.compactPool g (2 ^ j) | none => x
      if rest.isEmpty then s else s.pend .compactorMove { tile := t })

end Sys2Proof.Machine
end

