-- ==== Sys2Proof/Machine/Dispatcher.lean ====
section
/-! DEFINITION. Dispatchers: candidate records, admission decisions and placement, claims of other dies' tiles, LAUNCH messages, the start
of waves, holds and the start of pre-emptions (R133 to R142, R149 to R153, R183 to R194, R206, R209, R213, R246, R327, R481). -/
namespace Sys2Proof.Machine

/-! ### Candidates (R137, R140, R184, R191) -/

/-- What has become of a record of a ring. -/
inductive RecState where
  | running
  | ended
  /-- Switched out, with its launch index. -/
  | away (l : Nat) (x : Launch)
  /-- Waiting for a retry or a re-admission. -/
  | again (x : Launch)
  | fresh
  deriving DecidableEq, Repr
/-- The state of record i of a queue. -/
def State.recordAt (s : State) (q i : Nat) : RecState :=
  match s.launches.find? fun p => p.2.queue == q && p.2.idx == i with
  | some (l, x) => if x.run == 2 then .away l x else .running
  | none =>
    match fget? s.requeued (tagOf q i) with
    | some x => .again x
    | none => if (s.queue q).ended.contains i then .ended else .fresh
/-- The stopped waves of a launch on some tiles go on after their PREPT (R207). -/
def State.goOn (s : State) (l : Nat) (on : Nat → Bool) : State :=
  { s with tiles := s.tiles.map fun p =>
      if on p.1 then
        (p.1, { p.2 with ctxs := p.2.ctxs.map fun c =>
          (c.1, if c.2.lidx == l && c.2.status == .stopped then { c.2 with status := .ready } else c.2) })
      else p }
/-- Victims that no pre-emption asks any more are let go on (R207, R209). -/
def State.letGo (s : State) (ls : List Nat) : State :=
  ls.foldl (fun s l =>
    if (s.preempts.any fun o => o.victims.contains l) || (s.launch l).run != 1 then s
    else (s.updLaunch l fun x => { x with tier := 0 }).goOn l fun _ => true) s
/-- What a dispatcher kept for a record is given up: its hold, its pre-emption and its failed placements end (R194). -/
def State.forget (s : State) (tag : Nat) : State :=
  let gone := s.preempts.filter fun p => p.tag == tag
  let s := { s with copies := fdel s.copies tag, requeued := fdel s.requeued tag, holds := s.holds.filter fun h => h.tag != tag,
                    preempts := s.preempts.filter fun p => p.tag != tag, outlast := s.outlast.filter fun p => p.1 != tag }
  let s := { s with queues := s.queues.map fun (p : Nat × Queue) =>
    if p.2.failT.any fun (f : Nat × Nat) => f.1 == tag then (p.1, { p.2 with failT := none }) else p }
  s.letGo (gone.flatMap fun (p : Preempt) => p.victims)
/-- A record ends FAILED with BADRECORD (R140, R191). -/
def State.rejectRecord (s : State) (x : Launch) : State :=
  (s.forget x.tag).failLaunch { x with att := { x.att with reason := 9, attempts := 0 } } false
/-- A record as its dispatcher holds it, read once (R137, R188); a read that faults puts the queue in ERROR (R134). -/
def State.takeRecord (s : State) (q i : Nat) : Option Nat × State :=
  match fget? s.copies (tagOf q i) with
  | some v => (some v, s)
  | none =>
    let x := s.queue q
    let d := queueDie q
    match s.translate d x.asid (x.recVa i) 0 false true with
    | .ok (l, p) =>
      let lines := (List.range 4).map fun j =>
        match p with
        | .dev k a => s.agentRead d (.dev (k + 64 * j) (a + 64 * j)) 64
        | .host port a => s.agentRead d (.host port (a + 64 * j)) 64
        | o => s.agentRead d o 64
      if l.cls == 3 || s.placeDead p || lines.any (·.2) then (none, s.qerrHard q 3)
      else
        let v := lines.zipIdx.foldl (fun n y => n + y.1.1 * 2 ^ (512 * y.2)) 0
        (some v, { s with copies := fset s.copies (tagOf q i) v })
    | .error _ => (none, s.qerrHard q 3)
/-- A candidate: its launch, and its index when it is switched out. -/
abbrev Cand := Launch × Option Nat
/-- A record that is not switched out as a candidate: impossible ones end, and one with a dependence that is not met blocks its queue
(R140, R184, R191). -/
def State.asCand (s : State) (x : Launch) : Option Cand × State :=
  if s.impossible x then (none, s.rejectRecord x)
  else if x.r.inUse.all s.depMet then (some (x, none), s)
  else (none, s)
/-- The candidate of a queue among n records from index i on (R184). -/
def State.candFrom (s : State) (q : Nat) : Nat → Nat → Option Cand × State
  | 0, _ => (none, s)
  | n + 1, i =>
    let y := s.queue q
    match s.recordAt q i with
    | .running => if y.order then s.candFrom q n ((i + 1) % 2 ^ 32) else (none, s)
    | .ended => s.candFrom q n ((i + 1) % 2 ^ 32)
    | .away l x => (some (x, some l), s)
    | .again x => s.asCand x
    | .fresh =>
      if y.disabling then (none, s)
      else
        match s.takeRecord q i with
        | (none, s) => (none, s)
        | (some v, s) =>
          let x := { Launch.init with queue := q, idx := i, r := recOf v }
          if recBad v y.prioceil q i then (none, s.rejectRecord x) else s.asCand x
/-- The candidates of a die's enabled queues in increasing queue number (R184). -/
def State.candidates (s : State) (d : Nat) : List Cand × State :=
  let qs := (s.queues.filter fun p => queueDie p.1 == d && p.2.qstate == 1).map (·.1)
  qs.foldl (fun (r : List Cand × State) q =>
    let y := r.2.queue q
    match r.2.candFrom q ((y.writeIdx + 2 ^ 32 - y.readIdx) % 2 ^ 32) y.readIdx with
    | (some c, s) => (r.1 ++ [c], s)
    | (none, s) => (r.1, s)) ([], s)

/-! ### Whether a candidate may be placed (R149, R152, R153, R176, R177, R186) -/

/-- TCACFG read at the first admission of a transactional launch since ZONECFG was written (R153). -/
def State.readTca (s : State) (d : Nat) : State :=
  match s.txn.tcacfg, s.poolKey 0 0 0 with
  | none, some k =>
    let v := s.devRead k 8
    let s := s.updTxn fun t => { t with tcacfg := some (BitVec.ofNat 64 v) }
    if v / 16 == 0 then s else s.updBar0 d fun b => { b with badreg := sat 0xFF (b.badreg + 1) }
  | _, _ => s
/-- TCACFG has a reserved field that is not zero (R153). -/
def State.tcaBad (s : State) : Bool := match s.txn.tcacfg with | some v => v.toNat / 16 != 0 | none => false
/-- The lowest free slot (R149). -/
def State.freeSlot? (s : State) (x : Launch) : Option Nat :=
  (List.range 64).find? fun k => (fget? s.txn.slots k).isNone || x.slot == some k
/-- The lowest free launch index (R213). -/
def State.freeLidx (s : State) : Option Nat :=
  (List.range 8192).find? fun l =>
    (fget? s.launches l).isNone && (fget? s.freed l).isNone && !s.placing.any fun p => p.2.lidx == l
/-- A candidate is placeable (R186). -/
def State.placeable (s : State) (x : Launch) : Bool :=
  x.run == 2 || !x.r.txn ||
  ((s.zone 0).2 != 0 && !s.tcaBad && x.waitFor.isNone && (s.freeSlot? x).isSome &&
    !(x.sheltered && s.launches.any fun p => p.2.sheltered && (p.2.run == 1 || p.2.run == 2)))

/-! ### Admission (R149, R185, R189, R192, R195, R213) -/

/-- Levels and queues as keys of the round robin (R185). -/
def rrKey (prio : Nat) : Nat := prio
/-- The credit of a queue (R185). -/
def State.credit (s : State) (d q : Nat) : Nat := fget (s.die d).rrCredit q (s.queue q).weight
/-- A launch is admitted (R141, R149, R150, R185, R189, R213): its slot and index, its attempt block, and a message to each tile; one
that was switched out goes on. -/
def State.admitLaunch (s : State) (d : Nat) (x : Launch) (l : Nat) : State :=
  let s := s.forget x.tag
  let tell (s : State) (i : Instr) : State :=
    x.tiles.foldl (fun s t => s.send (.mgmt d) (.tile t) 7 1 l i { tile := t, lidx := l }) s
  if x.run == 2 then tell (s.updLaunch l fun y => { y with run := 1 }) .restore
  else
    let s := s.updDie d fun y => { y with rrLast := fset y.rrLast (rrKey x.r.prio) x.queue,
                                          rrCredit := fset y.rrCredit x.queue (s.credit d x.queue - 1) }
    let s := s.freeSlot x
    let (slot, gen, s) := if x.r.txn then
        match s.freeSlot? { x with slot := none } with
        | some k =>
          let (n, s) := s.bumpGen k
          (some k, n, s.updTxn fun t => { t with slots := fset t.slots k l })
        | none => (none, 0, s)
      else (none, 0, s)
    let x := { x with run := 1, slot := slot, gen := gen, att := { x.att with state := 1 }, waitFor := none }
    tell (({ s with launches := fset s.launches l x }.writeAttempt x).stageRebind l) .launchStart

/-! ### Placement (R190, R192) -/

/-- How a placement goes. -/
inductive Placed where
  | no
  | done (s : State)
  /-- Other dies are being asked. -/
  | asking (s : State)
/-- A launch at an origin, with its effective budget (R56). -/
def State.atOrigin (s : State) (x : Launch) (o : Nat × Nat) : Launch :=
  if x.run == 2 then x
  else let y := x.at_ o; { y with budget := min x.r.budget (y.tiles.map s.packetCap).sum }
/-- The tiles of a launch on a die. -/
def Launch.tilesOn (x : Launch) (d : Nat) : List Nat := x.tiles.filter fun t => dieOf t == d
/-- Every tile of a launch on a die can take it. -/
def State.fitsOn (s : State) (x : Launch) (d : Nat) : Bool :=
  (x.tilesOn d).all fun t => s.tileFits x (packetsPer x.budget x.tiles.length) t
/-- A claim sent to a die (R192). -/
def State.claim (s : State) (d i l : Nat) : State :=
  s.send (.mgmt d) (.mgmt i) 7 1 l .tileClaim { die := i, idx := d, lidx := l }
/-- The first origin of a list at which a launch can be placed; `n` is the number of the first one (R190, R192). -/
def State.placeAt (s : State) (d : Nat) (x : Launch) (l : Nat) : List (Nat × Nat) → Nat → Placed
  | [], _ => .no
  | o :: os, n =>
    let y := s.atOrigin x o
    if s.originOk x o && s.fitsOn y d then
      let s := s.reserveOn y l (y.tilesOn d)
      match [0, 1, 2, 3].filter fun i => i != d && !(y.tilesOn i).isEmpty with
      | [] => .done (s.admitLaunch d y l)
      | i :: rest =>
        .asking ({ s with placing := fset s.placing d { launch := y, lidx := l, ask := i :: rest, next := n + 1 } }.claim d i l)
    else s.placeAt d x l os (n + 1)

/-! ### Pre-emption (R206, R209) -/

/-- Mesh cycles from a pre-emption request to the end of its tier-1 window and to PREEMPTGRACE (R207). -/
def tier1Ticks : Nat := 98304 * meshTicks
/-- PREEMPTGRACE (R207). -/
def graceTicks : Nat := 1572864 * meshTicks
/-- An origin may be freed for a record: no tile of it is held or missing, and all its occupants have a lower priority (R206). -/
def State.yields (s : State) (x : Launch) (o : Nat × Nat) : Bool :=
  let ts := (x.at_ o).tiles
  let who := s.occupants ts
  s.originOk x o && ts.all (fun t => s.dieUp (dieOf t) && !s.holds.any fun h => h.tag != x.tag && h.has t) && !who.isEmpty &&
    who.all fun l => (s.launch l).r.prio < x.r.prio
/-- A pre-emption started for a candidate that has failed placement, if an origin can be freed for it (R206): the rectangle is held and
its occupants are asked to yield. -/
def State.startPreempt (s : State) (x : Launch) : State :=
  if s.preempts.any fun p => p.tag == x.tag && !p.victims.isEmpty then s
  else
    match x.origins.find? fun o => s.yields x o with
    | none => s
    | some o =>
      let vs := s.occupants (x.at_ o).tiles
      let s := { s with holds := s.holds.filter (fun (h : Hold) => h.tag != x.tag) ++ [(⟨x.tag, x.r.prio, o.1, o.2, x.r.w, x.r.h⟩ : Hold)],
                        preempts := s.preempts.filter (fun (p : Preempt) => p.tag != x.tag) ++ [(⟨x.tag, vs, s.now⟩ : Preempt)] }
      let s := vs.foldl (fun s l =>
        (s.updLaunch l fun y => { y with tier := max y.tier (if y.r.persist then 2 else 1) }).pend .switchOut { lidx := l }) s
      (s.after tier1Ticks .tier1WindowClose { val := x.tag, off := s.now }).after graceTicks .preemptgrace
        { val := x.tag, off := s.now }
/-- Mesh cycles of failed placement after which a rectangle is held (R194). -/
def starveTicks : Nat := 2 ^ 20 * meshTicks
/-- A candidate has failed placement (R194, R206). -/
def State.failedPlacement (s : State) (x : Launch) : State :=
  let s := if (s.queue x.queue).failT.any fun f => f.1 == x.tag then s
    else (s.updQueue x.queue fun y => { y with failT := some (x.tag, s.now) }).after starveTicks .placementHold
      { q := x.queue, val := s.now, off := x.tag }
  s.startPreempt x
/-- PLACEMENT_HOLD (R194): the candidate at the highest level of its die that has failed placement for 2^20 mesh cycles holds the
rectangle at its own origin, once no other record holds a tile of it and it has no hold of R206 in force. -/
def execPlacementHold (s : State) : Out :=
  let q := s.arg.q
  let a := s.arg
  .next (if (s.queue q).failT != some (a.off, a.val) then s
    else
      let (cs, s) := s.candidates (queueDie q)
      let top := (cs.map fun c => c.1.r.prio).foldl max 0
      let later := s.after (1024 * meshTicks) .placementHold a
      match cs.find? fun c => c.1.tag == a.off with
      | none => later
      | some (x, _) =>
        let r := x.r
        let mine := s.holds.any fun h => h.tag == x.tag
        let other := x.tiles.any fun t => s.holds.any fun h => h.tag != x.tag && h.has t
        if mine || r.prio != top || other then later
        else { s with holds := s.holds ++ [⟨x.tag, r.prio, r.x0, r.y0, r.w, r.h⟩] })

/-! ### Decisions (R185 to R187) -/

/-- A candidate tried: whether a decision has been made. -/
def State.tryCand (s : State) (d : Nat) (c : Cand) : Bool × State :=
  let x := c.1
  let s := if x.r.txn && x.run != 2 && (s.zone 0).2 != 0 then s.readTca d else s
  if !s.placeable x then (false, s)
  else
    match (c.2.or s.freeLidx) with
    | none => (false, s)
    | some l =>
      match s.placeAt d x l x.origins 0 with
      | .done s => (true, s)
      | .asking s => (true, s)
      | .no => (false, s.failedPlacement x)
/-- The candidates of a level in the order in which they are visited (R185, R208). -/
def State.visit (s : State) (d p : Nat) (cs : List Cand) : List Cand × State :=
  let l := cs.filter fun c => c.1.r.prio == p
  let away := l.filter fun c => c.2.isSome
  let rest := l.filter fun c => c.2.isNone
  let last := fget (s.die d).rrLast (rrKey p) (d * 32768 + 32767)
  let order := rest.filter (fun c => last < c.1.queue) ++ rest.filter fun c => c.1.queue ≤ last
  if !order.isEmpty && order.all fun c => s.credit d c.1.queue == 0 then
    (away ++ order, order.foldl (fun s c => s.updDie d fun y => { y with rrCredit := fdel y.rrCredit c.1.queue }) s)
  else (away ++ order.filter fun c => s.credit d c.1.queue != 0, s)
/-- One decision (R185): the highest level with a candidate that can be placed. -/
def State.decideOnce (s : State) (d : Nat) : Bool × State :=
  let (cs, s) := s.candidates d
  [7, 6, 5, 4, 3, 2, 1, 0].foldl (fun (r : Bool × State) p =>
    if r.1 then r
    else
      let (l, s) := r.2.visit d p cs
      l.foldl (fun (r : Bool × State) c => if r.1 then r else r.2.tryCand d c) (false, s)) (false, s)
/-- Mesh cycles between two decisions of a dispatcher (R187). -/
def decisionTicks : Nat := 32 * meshTicks
/-- ADMISSION_DECISION (R183 to R187, R190 to R195). -/
def execAdmissionDecision (s : State) : Out :=
  let d := s.arg.die
  let y := s.die d
  .next (if !s.dieHost d || y.stopped || (fget? s.placing d).isSome then s
    else if y.decided != 0 && s.now < y.decided + decisionTicks then
      if s.timers.any fun e => e.2.what == .admissionDecision && e.2.arg.die == d then s
      else s.after (y.decided + decisionTicks - s.now) .admissionDecision { die := d }
    else
      let (made, s) := s.decideOnce d
      if made then
        (s.updDie d fun y => { y with decided := s.now }).after decisionTicks .admissionDecision { die := d }
      else s)
/-- A placement in hand goes on at its next origins (R192). -/
def State.placeOn (s : State) (d : Nat) (p : Placing) : State :=
  let s := { s with placing := fdel s.placing d }
  match s.placeAt d p.launch p.lidx (p.launch.origins.drop p.next) p.next with
  | .done s => s
  | .asking s => s
  | .no => (s.failedPlacement p.launch).pend .admissionDecision { die := d }
/-- A record whose tiles have all been granted may still be admitted: its queue admits records, and no die of it has stopped (R29, R136,
R137). -/
def State.mayAdmit (s : State) (d : Nat) (x : Launch) : Bool :=
  let q := s.queue x.queue
  s.dieHost d && !(s.die d).stopped && q.qstate == 1 && (!q.disabling || x.run == 2 || (fget? s.requeued x.tag).isSome) &&
  x.tiles.all fun t => s.dieUp (dieOf t) && !(s.die (dieOf t)).stopped
/-- The claim that a dispatcher answers next (R192, R210): the first to have arrived, and among those of one mesh cycle that of the lowest
die. -/
def nextClaim : List (Nat × Nat × Nat) → Option (Nat × Nat × Nat)
  | [] => none
  | c :: cs =>
    match nextClaim cs with
    | none => some c
    | some b => if b.1 < c.1 || (b.1 == c.1 && b.2.1 < c.2.1) then some b else some c
/-- A dispatcher answers one claim (R192): all of its part, or nothing. -/
def State.answerClaim (s : State) (i : Nat) : State :=
  match nextClaim ((s.die i).claims.filter fun c => c.1 < s.now / meshTicks) with
  | none => s
  | some c =>
    let s := s.updDie i fun x => { x with claims := x.claims.erase c }
    match fget? s.placing c.2.1 with
    | none => s
    | some p =>
      let yes := p.lidx == c.2.2 && s.dieUp i && !(s.die i).stopped && s.fitsOn p.launch i
      let s := if yes then s.reserveOn p.launch p.lidx (p.launch.tilesOn i) else s
      s.send (.mgmt i) (.mgmt c.2.1) 7 1 c.2.2 .tileClaim { die := c.2.1, req := i, lidx := c.2.2, ok := true, last := yes }
/-- TILE_CLAIM (R192, R210): a claim arrives at a die, which answers it once the mesh cycle has passed (unit 1); with ok, the answer at
the dispatcher that asked. -/
def execTileClaim (s : State) : Out :=
  let a := s.arg
  .next (if a.ok then
      match fget? s.placing a.die with
      | none => s
      | some p =>
        if p.lidx != a.lidx then s
        else
          let there := p.launch.tiles.filter fun t => dieOf t == a.die || !p.ask.contains (dieOf t)
          if !a.last then (s.unreserveOn p.launch p.lidx there).placeOn a.die p
          else
            match p.ask.tail with
            | i :: rest => { s with placing := fset s.placing a.die { p with ask := i :: rest } }.claim a.die i p.lidx
            | [] =>
              let whole := p.launch.tiles.all fun t => ((s.tile t).share? p.lidx).isSome
              if whole && s.mayAdmit a.die p.launch && s.placeable p.launch then
                { s with placing := fdel s.placing a.die }.admitLaunch a.die p.launch p.lidx
              else
                ({ s with placing := fdel s.placing a.die }.unreserveOn p.launch p.lidx p.launch.tiles).pend .admissionDecision
                  { die := a.die }
    else if a.unit == 1 then s.answerClaim a.die
    else
      (s.updDie a.die fun x => { x with claims := x.claims ++ [(s.now / meshTicks, a.idx, a.lidx)] }).after meshTicks .tileClaim
        { die := a.die, unit := 1 })

/-! ### LAUNCH (R188, R481) -/

/-- A record written into its ring, if the place can be written (R481). -/
def State.writeRecord (s : State) (q i v : Nat) : Option State :=
  let x := s.queue q
  let d := queueDie q
  match s.translate d x.asid (x.recVa i) 1 false true with
  | .ok (l, p) =>
    let dead := match p with
      | .dev k _ => (s.die (lineDie (lineOf k))).deadChans.contains (k / chanSpan)
      | _ => false
    if l.cls == 3 || dead || s.placeDead p then none
    else
      some ((List.range 4).foldl (fun s j =>
        let w := v / 2 ^ (512 * j) % 2 ^ 512
        match p with
        | .dev k a => s.agentLater d (.dev (k + 64 * j) (a + 64 * j)) 64 w
        | .host port a => s.agentLater d (.host port (a + 64 * j)) 64 w
        | _ => s) s)
  | .error _ => none
/-- LAUNCH_MESSAGE (R188, R481): the record enters the ring with its attempt block cleared, and the issuer is answered with a status and
the launch tag; with ok, the answer at the issuer. -/
def execLaunchMessage (s : State) : Out :=
  let a := s.arg
  let q := a.q
  let x := s.queue q
  let d := queueDie q
  let say (s : State) (st tag : Nat) : State :=
    s.send (.mgmt d) (.tile a.tile) 7 1 a.lidx .launchMessage
      { tile := a.tile, ctx := a.ctx, lidx := a.lidx, ok := true, words := [BitVec.ofNat 32 st, BitVec.ofNat 32 tag] }
  .next (if a.ok then
      let k := s.ctx a.tile (a.ctx % 256)
      if k.status == .idle || k.lidx != a.lidx then s else s.answer a.tile a.ctx a.words
    else if x.qstate != 1 || !x.feed || !s.dieHost d then say s 1 0
    else if 2 ^ x.ringlog ≤ (x.writeIdx + 2 ^ 32 - x.readIdx) % 2 ^ 32 then say s 2 0
    else if x.asid != a.asid then say s 3 0
    else
      let v := wordsNat a.words % 2 ^ 1792
      match s.writeRecord q x.writeIdx v with
      | none => say (s.qerrHard q 9) 4 0
      | some s =>
        let s := { s with copies := fset s.copies (tagOf q x.writeIdx) v }
        let s := s.updQueue q fun y => { y with writeIdx := (y.writeIdx + 1) % 2 ^ 32 }
        (say s 0 (tagOf q x.writeIdx)).pend .admissionDecision { die := d })

/-! ### The start of waves (R189, R246, R327) -/

/-- RNGSEED at wave start (R327). -/
def rngStart (seed : Word) (t w : Nat) : Word :=
  let v := seed ^^^ BitVec.ofNat 32 (t * 2 ^ 20) ^^^ BitVec.ofNat 32 (w * 2 ^ 8)
  if v = 0#32 then 1#32 else v
/-- A wave at its start (R246). -/
def Ctx.start (k : Ctx) (x : Launch) (t now : Nat) : Ctx :=
  let regs := { Regs.init with pc := BitVec.ofNat 48 x.r.entry, q := 8 * x.r.waveGrans, blocks := k.regs.blocks }
  { Ctx.init with status := .ready, lidx := k.lidx, windex := k.windex, age := now, regs := regs,
                  ctl := { Ctl.init with rngseed := rngStart x.r.lodseed t k.windex } }.wrx 0 (BitVec.ofNat 64 x.r.args)
/-- LAUNCH_START (R189, R197, R215, R246): registers for every wave, and then all waves start at ENTRY. -/
def execLaunchStart (s : State) : Out :=
  let t := s.arg.tile
  let l := s.arg.lidx
  let x := s.launch l
  .next (match (s.tile t).share? l with
    | none => s
    | some h =>
      if h.started || h.guest || x.run != 1 || !s.indexLive l then s
      else
        let waves := ((s.tile t).ctxs.filter fun p => !isPath p.1 && p.2.lidx == l).map (·.1)
        let (ok, s) := s.giveRegs t l (waves.map fun c => (c, [x.r.waveGrans]))
        if !ok then s.after (2 * tileTicks) .launchStart s.arg
        else
          let s := s.updTile t fun y =>
            { y with ctxs := y.ctxs.map fun (p : Nat × Ctx) => if waves.contains p.1 then (p.1, p.2.start x t s.now) else p }.updShare l fun h =>
              { h with started := true }
          s.pend .classTableRead { tile := t, lidx := l })

end Sys2Proof.Machine
end

