-- ==== Sys2Proof/Machine/Preempt.lean ====
section
/-! DEFINITION. How launches yield: the tiers of a pre-emption, switch-out and restore, and urgent waves (R201, R204, R206 to R210, R309 to
R313, R485). -/
namespace Sys2Proof.Machine

/-! ### Tiers (R207, R209, R210) -/

/-- Every wave of a launch has stopped at PREPT or ended, on every tile of its set, and its waves have all been started (R207). -/
def State.allStopped (s : State) (l : Nat) : Bool :=
  ((s.launch l).tiles.all fun t => match (s.tile t).share? l with | some h => h.started | none => false) &&
  s.tiles.all fun p => p.2.ctxs.all fun c => c.2.lidx != l || isPath c.1 || c.2.status == .stopped || c.2.status == .idle
/-- The pre-emption that a timed event belongs to. -/
def State.preemptOf (s : State) (a : Arg) : Option Preempt := s.preempts.find? fun p => p.tag == a.val && p.t == a.off
/-- TIER1_WINDOW_CLOSE (R207, R210). -/
def execTier1WindowClose (s : State) : Out :=
  .next (match s.preemptOf s.arg with
    | none => s
    | some p =>
      p.victims.foldl (fun s l =>
        let x := s.launch l
        if x.run != 1 || x.tier != 1 || s.allStopped l then s
        else (s.updLaunch l fun x => { x with tier := 2 }).goOn l fun _ => true) s)
/-- The request of a pre-emption withdrawn from all its victims, which have outlasted it, and its hold ended (R209). -/
def State.withdraw (s : State) (p : Preempt) : State :=
  let vs := p.victims.filter fun l => (s.launch l).run == 1
  let s := { s with preempts := s.preempts.filter (· != p), holds := s.holds.filter fun h => h.tag != p.tag,
                    outlast := s.outlast ++ vs.map fun l => (p.tag, (s.launch l).tag) }
  (s.letGo vs).redispatch
/-- PREEMPTGRACE (R207, R209, R210): transactional victims are killed; one with TXN = 0 makes the request fall. -/
def execPreemptgrace (s : State) : Out :=
  .next (match s.preemptOf s.arg with
    | none => s
    | some p =>
      let left := p.victims.filter fun l => (s.launch l).run == 1 && !(s.launch l).r.persist
      if left.any fun l => !(s.launch l).r.txn then s.withdraw p
      else
        left.foldl (fun s l =>
          let x := s.launch l
          if x.commit == 4 then s.updLaunch l fun x => { x with tier := 2 } else s.abortLaunch l 5 0 false x.firstTile) s)

/-! ### Switch-out (R207, R267, R309 to R312) -/

/-- The parked waits of a launch's own threads on a tile (R267, R311). -/
def State.localParks (s : State) (l t : Nat) : List Park :=
  (s.tile t).sync.park.filter fun p => match s.op? p.op with | some o => o.lidx == l && o.tile == t | none => false
/-- A path thread can be saved (R309): its own operations have returned but for the waits parked on its tile. -/
def State.threadQuiet (s : State) (t c : Nat) : Bool :=
  let k := s.ctx t c
  let parked := (s.localParks k.lidx t).map (·.op)
  (k.status == .ready || k.status == .waiting) && (k.flight.all fun f => f.back || parked.contains f.id) &&
  (k.status == .ready || !k.flight.isEmpty || (s.tile t).sync.waiters.any fun w => w.2 == c) && k.deferred.isEmpty
/-- A launch whose waves have stopped can leave its tiles (R270, R309): its threads are quiet, its copies are done, and nothing of it is
on its way. -/
def State.canLeave (s : State) (l : Nat) : Bool :=
  (s.tiles.all fun p =>
    (p.2.ctxs.all fun c => c.2.lidx != l || !isPath c.1 || c.2.status == .idle || s.threadQuiet p.1 c.1) &&
    !p.2.un.mb.any (fun c => c.2.lidx == l) && !p.2.un.susp.any (fun c => c.lidx == l) &&
    (p.2.share? l).all fun h => h.creditQ.isEmpty) &&
  (s.ops.all fun o => o.2.lidx != l || (s.localParks l o.2.tile).any fun p => p.op == o.1)
/-- What a tile saves of a launch (R309, R311). -/
def State.saveTile (s : State) (x : Launch) (l t : Nat) : Saved :=
  let y := s.tile t
  let h := (y.share? l)
  let cs := y.ctxs.filter fun c => c.2.lidx == l && (!isPath c.1 || c.2.status != .idle)
  let gs := y.mx.gangs.filter fun g => g.2.lidx == l
  let owned := y.mx.accOwner.filter fun a => gs.any fun g => g.1 == a.2
  let mask := cs.foldl (fun m c => if c.2.status == .stopped then Nat.lor m c.2.liveAcc else m) 0
  let parks := s.localParks l t
  let waits := fun (c : Nat) => y.sync.waiters.any (fun w => w.2 == c && w.1 < 128) || y.sync.mbWait.any fun w => w.1 == c
  let base := (h.map (·.lbase)).getD 0
  let size := (h.map (·.lsize)).getD 0
  let lo := scrKey t base
  let inside := fun (k : Nat) => lo / 4 ≤ k && decide (k < (lo + size) / 4)
  { tile := t,
    ctxs := cs.map fun c =>
      (c.1, if isPath c.1 then (if waits c.1 then { c.2 with waitOn := [], status := .ready } else c.2)
        else { c.2 with regs := { c.2.regs with v := c.2.regs.v.filter fun r => r.1 < c.2.live } }),
    gangs := gs, owners := owned, acc := y.mx.acc.filter fun a => bitB mask (a.1 / 2048) && (fget? owned (a.1 / 2048)).isSome,
    array := y.mx.owner.bind fun g => if gs.any fun p => p.1 == g then some g else none, ahead := y.mx.macq,
    bars := y.sync.bar.filter fun b => b.2.opened && b.2.lidx == l, parks := parks,
    ops := s.ops.filter fun o => parks.any fun p => p.op == o.1, lbase := base, lsize := size, accs := x.r.acc, pslots := x.r.pslots,
    bytes := s.mem.scr.filter fun c => lo ≤ c.1 && c.1 < lo + size,
    full := (s.mem.full.filter fun p => inside p.1).map (·.1), spois := (s.mem.spois.filter fun p => inside p.1).map (·.1),
    blocks := [], boot := s.boots, nth := x.swouts + 1 }
/-- The mask of the accumulator tiles that an image holds (R311). -/
def Saved.mask (y : Saved) : Nat := y.ctxs.foldl (fun m c => if c.2.status == .stopped then Nat.lor m c.2.liveAcc else m) 0
/-- A tile left by a launch that is switched out (R195, R204, R207, R208, R258): its share keeps the packets and credits. -/
def Tile.leaveFor (x : Tile) (l : Nat) (ops : List Nat) : Tile :=
  let cs := (x.ctxs.filter fun c => c.2.lidx == l).map (·.1)
  let gs := x.mx.gangsOf l
  let dying := (x.shares.filter fun h => h.lidx == l && !h.ended && h.lsize != 0).map fun h =>
    { h with ended := true, acc := 0, pslots := 0, packets := 0, credits := 0, creditQ := [], waves := 0, grans := 0 }
  { x with ctxs := x.ctxs.filter fun c => !cs.contains c.1, sync := x.sync.drop l cs ops, mx := (x.mx.dissolve gs).unqueue cs,
           un := { x.un with gran := x.un.gran.filter fun g => !(cs.contains g.2.2 || gs.any fun n => g.2.2 == gangHolder n) },
           shares := (x.shares.map fun h =>
             if h.lidx == l && !h.ended && !h.guest then
               { h with lsize := 0, acc := 0, pslots := 0, waves := 0, grans := 0, away := true, started := false }
             else h) ++ dying }
/-- A launch leaves its tiles, with its image kept (R207, R208). -/
def State.leaveTiles (s : State) (l : Nat) : State :=
  let ops := (s.ops.filter fun o => o.2.lidx == l).map (·.1)
  let gone := fun (e : Event) => (s.tiles.any fun p => e.forCtx p.1 (p.2.ctxsOf l)) || (e.what == .syncTimeout && s.tiles.any fun p =>
    p.1 == e.arg.tile && p.2.sync.park.any fun k => k.id == e.arg.id && ops.contains k.op)
  let grants := s.tiles.filter fun p => match p.2.mx.owner with | some g => (p.2.mx.gangsOf l).contains g | none => false
  let mutexes := s.tiles.flatMap fun p =>
    (p.2.sync.mutex.filter fun m => (p.2.ctxsOf l).contains m.2).map fun m => (p.1, m.1)
  let blocks := s.tiles.filter fun p => p.2.shares.any fun h => h.lidx == l && h.lsize != 0
  let s := { s with tiles := s.tiles.map fun (p : Nat × Tile) => (p.1, p.2.leaveFor l ops), ops := s.ops.filter fun o => o.2.lidx != l,
                    pending := s.pending.filter fun e => !gone e, timers := s.timers.filter fun e => !gone e.2 }
  let s := grants.foldl (fun s (p : Nat × Tile) => s.pend .arrayGrant { tile := p.1 }) s
  let s := mutexes.foldl (fun s (p : Nat × Nat) => s.pend .mutexGrant { tile := p.1, id := p.2 }) s
  blocks.foldl (fun s (p : Nat × Tile) => s.pend .localBlockZero { tile := p.1, lidx := l }) s
/-- Pages shared out among images: each takes as many as its blocks need, and those that find too few are told apart. -/
def sharePages : List Nat → List (Saved × List Byte) → List (Saved × List Byte) × List Nat
  | _, [] => ([], [])
  | ps, (y, bs) :: rest =>
    let n := blocksOf bs.length
    let need := (n + 15) / 16
    if ps.length < need then
      let r := sharePages ps rest
      (r.1, y.tile :: r.2)
    else
      let r := sharePages (ps.drop need) rest
      (({ y with blocks := (List.range n).map fun i => ps.getD (i / 16) 0 + i % 16 * 4096 }, bs) :: r.1, r.2)
/-- SWITCH_OUT (R207 to R210, R309 to R312): once every wave has stopped or ended and its threads are quiet, the launch's tiles are saved
to free pages of its detour area and released; a tile that finds too few lets its waves go on. -/
def execSwitchOut (s : State) : Out :=
  let l := s.arg.lidx
  let x := s.launch l
  .next (if !s.indexLive l || x.run != 1 || x.tier != 1 || x.commit != 0 || !s.allStopped l then s
    else if !s.canLeave l then
      if s.timers.any fun e => e.2.what == .switchOut && e.2.arg.lidx == l then s
      else s.after (16 * tileTicks) .switchOut { lidx := l }
    else
      let d := x.shadowDie
      let asid := s.asidOf l
      let all := x.tiles.map fun t => let y := s.saveTile x l t; (y, y.stream l y.nth y.mask)
      let pages := (s.freeDetour x).filter fun a => s.detourWritable d asid a
      match sharePages pages all with
      | (images, []) =>
        let s := images.foldl (fun s (p : Saved × List Byte) => s.putImage d asid s.boots l p.1.nth p.1 p.2) s
        let s := s.leaveTiles l
        let s := s.updLaunch l fun x =>
          { x with run := 2, tier := 0, swouts := x.swouts + 1, saved := images.map (·.1),
                   imgPages := x.imgPages ++ (images.flatMap fun p => p.1.blocks.map (· / 65536)).eraseDups }
        let s := { s with preempts := s.preempts.map fun (p : Preempt) => { p with victims := p.victims.filter (· != l) } }
        s.redispatch
      | (_, short) => s.goOn l fun t => short.contains t)

/-! ### Restore (R204, R208, R310 to R313, R451) -/

/-- A vector register that a pool gives back after a switch-out, whose contents the image does not hold. -/
def freeVReg (n : Nat) : VReg :=
  { lanes := Vector.ofFn fun (i : Fin 32) => Config.freeWord (n + i.val), poison := Config.freeWord (n + 32) }
/-- Single granules for a gang's pool, with their free contents. -/
def Tile.givePool (l g n0 : Nat) : Tile → Nat → Tile
  | x, 0 => x
  | x, n + 1 =>
    match x.takeBlock (gangHolder g) 1 with
    | none => x
    | some (b, x) =>
      let vs := (List.range 8).map fun j => freeVReg (n0 + (n * 8 + j) * 33)
      Tile.givePool l g n0 ((x.updGang g fun y => { y with pool := fset y.pool b vs }).updShare l fun h => { h with grans := h.grans - 1 }) n
/-- The pools of a launch's gangs on a tile. -/
def State.givePools (s : State) (t l : Nat) (y : Saved) : State :=
  y.gangs.foldl (fun s (g : Nat × Gang) =>
    let n := g.2.pool.length
    { s with free := s.free + n * 264 }.updTile t fun x => Tile.givePool l g.1 s.free x n) s
/-- A launch's contexts on a tile go on after their image has been checked: accumulators, barriers, block, waits and the array's
request as they were saved (R204, R267, R311, R312). -/
def State.finishRestore (s : State) (t l : Nat) (y : Saved) : State :=
  let lo := scrKey t y.lbase
  let s := s.givePools t l y
  let s := s.updMem fun m =>
    { m with scr := y.bytes.foldl (fun (g : Mem) c => g.write c.1 c.2) (m.scr.clear lo y.lsize),
             full := y.full.foldl (fun (f : FMap Bool) k => fset f k true) m.full, spois := y.spois.foldl (fun (f : FMap Bool) k => fset f k true) m.spois }
  let s := { s with ops := y.ops.foldl (fun (o : FMap Op) (p : Nat × Op) => fset o p.1 p.2) s.ops }
  let s := s.updTile t fun x =>
    let still := x.mx.macq.filter fun q => y.ahead.contains q
    let later := x.mx.macq.filter fun q => !y.ahead.contains q
    let again : List (Nat × Nat) := match y.array with | some g => [(g, noCtx)] | none => []
    let x := { x with mx := { x.mx with acc := y.acc.foldl (fun (m : FMap Nat) (a : Nat × Nat) => fset m a.1 a.2) (x.mx.acc.filter fun (a : Nat × Nat) =>
                                          (fget? y.owners (a.1 / 2048)).isNone),
                                        macq := still ++ again ++ later },
                      sync := { x.sync with park := x.sync.park ++ y.parks } }
    let wake : Nat × Ctx → Nat × Ctx := fun p =>
      match fget? y.ctxs p.1 with
      | some k =>
        if p.2.lidx != l || p.2.status != Status.stopped then p
        else (p.1, { p.2 with status := if isPath p.1 then k.status else .ready, readyT := none })
      | none => p
    { x with ctxs := x.ctxs.map wake }.updShare l fun h => { h with started := true }
  let s := y.parks.foldl (fun s p =>
    s.after (s.fetmo t * tileTicks) .syncTimeout { tile := t, id := p.id }) s
  (s.pend .arrayGrant { tile := t }).pend .slotClaim { tile := t }
/-- RESTORE (R310 to R313): every block's tag is checked before any context of the tile starts; a mismatch or a poisoned block aborts the
launch.  Then the waves get registers again and all contexts go on. -/
def execRestore (s : State) : Out :=
  let t := s.arg.tile
  let l := s.arg.lidx
  let x := s.launch l
  .next (match x.saved.find? fun y => y.tile == t, (s.tile t).share? l with
    | some y, some h =>
      if h.started || h.away || x.run != 1 || !s.indexLive l then s
      else
        match (if s.arg.ok then none else s.checkImage x.shadowDie (s.asidOf l) l y) with
        | some pa => s.abortLaunch l 7 (pa / 64 * 64) true t
        | none =>
          let want := (y.ctxs.filter fun c => !isPath c.1).map fun c => (c.1, c.2.regs.blocks.map (·.2))
          let (ok, s) := s.giveRegs t l want
          if !ok then s.after (2 * tileTicks) .restore { s.arg with ok := true } else s.finishRestore t l y
    | _, _ => s)

/-! ### Urgent waves (R201) -/

/-- Ticks with a ready instruction and without an issue after which a wave is urgent (R201). -/
def urgentTicks : Nat := 64 * tileTicks
/-- A wave has had a ready instruction for so long, and is not yet urgent. -/
def Ctx.overdue (k : Ctx) (now : Nat) : Bool := k.status == .ready && !k.urgent && k.readyT.any fun r => r + urgentTicks ≤ now
/-- WAVE_URGENT (R201). -/
def execWaveUrgent (s : State) : Out :=
  .next (if isPath s.arg.ctx || !(s.ctx s.arg.tile s.arg.ctx).overdue s.now then s
    else s.updCtx s.arg.tile s.arg.ctx fun k => { k with urgent := true })

end Sys2Proof.Machine
end

