-- ==== Sys2Proof/Machine/Boot.lean ====
section
/-! DEFINITION. Start-up, bring-up and its records, resets, quarantine, power and temperature, and attestation (R11, R19 to R41, R63, R64,
R80, R108, R145, R147, R148, R225, R297, R315). -/
namespace Sys2Proof.Machine

/-! ### Verification and recovery (R31, R32, R38) -/

/-- An image passes verification (R31): its signature, and a security version that is not below the rollback counter. -/
def State.imageGood (s : State) (img : List Byte) : Bool := Config.imageSigned img && s.rollback ≤ Config.imageVersion img
/-- A package cold reset (R38): every register at its reset value, memory contents lost; the flash with its BOOTSTEP records, memory
outside the device, and what has been sent out stand. -/
def State.coldReset (s : State) : State :=
  let ds : FMap Die := s.dies.map fun p =>
    (p.1, { Die.init with broken := p.2.broken, bar0 := { Bar0.init with bootstep := p.2.bar0.bootstep } })
  { State.reset with agenda := s.agenda, sched := s.sched, free := s.free, dies := ds,
                     mem := { Mems.init with sys := s.mem.sys, peer := s.mem.peer }, flash := s.flash, rollback := s.rollback,
                     strap := s.strap, boots := s.boots + 1, sent := s.sent, irqs := s.irqs, hostEvents := s.hostEvents, hostRead := s.hostRead }
/-- PACKAGE_COLD_RESET (R38, R40). -/
def execPackageColdReset (s : State) : Out := .next s.coldReset
/-- FIRMWARE_VERIFY (R31, R32): a good image is measured and the dies are released for bring-up; else die 0 enters recovery state.  The
value the event bears is that of the strap pins (R11).  DESIGN CHOICE (log 58): measurement 2 takes the digest and the version as they
are, with no chaining. -/
def execFirmwareVerify (s : State) : Out :=
  .next (if s.recovery || s.verified then s
    else if s.imageGood s.flash then
      let s := { s with verified := true, strap := s.arg.val % 256, meas2 := (Config.sha256 s.flash, Config.imageVersion s.flash) }
      [0, 1, 2, 3].foldl (fun s d =>
        (s.updDie d fun x => { x with booting := true, bar0 := { x.bar0 with pkg := s.strap } }).pend .bringupPass { die := d }) s
    else { s with recovery := true })
/-- RECOVERY_IMAGE (R32): the candidate in the recovery window is verified; a good one goes to flash and the package restarts. -/
def execRecoveryImage (s : State) : Out :=
  .next (if s.recovery && s.imageGood s.window then
      { s with flash := s.window, rollback := Config.imageVersion s.window }.coldReset
    else s)

/-! ### BOOTSTEP records and measures (R33 to R36) -/

/-- A BOOTSTEP record (R34). -/
def bootRecord (d step unit result action fails : Nat) : Word :=
  BitVec.ofNat 32 (fails % 4 * 2 ^ 26 + action % 16 * 2 ^ 22 + result % 16 * 2 ^ 18 + d % 4 * 2 ^ 16 + unit % 1024 * 2 ^ 6 + step % 8)
/-- The units that a pass tests, in the order of their records (R33, R34). -/
def bootUnits (d : Nat) : List (Nat × Nat) :=
  (1, 0) :: (List.range 64).map (fun i => (2, 64 * d + i)) ++ (List.range 16).map (fun i => (3, i)) ++
    (List.range 272).map (fun i => (4, i)) ++ (List.range 272).map (fun i => (5, i)) ++ (List.range 16).map fun i => (6, i)
/-- The units that the records name for a measure (R34, R35): those with a FAIL or with a measure already applied. -/
def Bar0.measured (b : Bar0) : List (Nat × Nat) :=
  (b.bootstep.filter fun p =>
    let w := p.2.toNat
    bits w 2 0 != 0 && (bits w 21 18 == 1 || (bits w 25 22 != 0 && bits w 25 22 != 6))).map fun p =>
      (bits p.2.toNat 2 0, bits p.2.toNat 15 6)
/-- The records say that the die was left out (R36). -/
def Bar0.wasOut (b : Bar0) : Bool := b.bootstep.any fun p => bits p.2.toNat 27 26 == 2 || bits p.2.toNat 25 22 == 6
/-- A unit of step 3 from 16 up stands for a bridge module that is beyond repair (the model's own). -/
def moduleUnit (lane : Nat) : Nat := 16 + lane / 2
/-- The tile that a row's measure quarantines: the first node of the row that the records name (R19, R35). -/
def rowTile (ms : List (Nat × Nat)) (row : Nat) : Option Nat := ((ms.filter fun m => m.1 == 5 && m.2 / 17 == row).map (·.2)).head?
/-- Channels of a die's stack that the measures and the failures of this pass name. -/
def badChans (ms : List (Nat × Nat)) (d st : Nat) : Nat :=
  ((List.range 32).filter fun i => ms.contains (2, 64 * d + 32 * st + i)).length
/-- A die-level failure (R35): of the firmware load, the mesh, a bridge module, a second tile of one row, or both stacks. -/
def dieFails (d : Nat) (ms fails : List (Nat × Nat)) : Bool :=
  let all := (ms ++ fails).eraseDups
  let inRow := fun (r : Nat) (l : List (Nat × Nat)) => (l.filter fun m => m.1 == 5 && m.2 / 17 == r).length
  fails.any (fun f => f.1 == 1 || f.1 == 4 || (f.1 == 3 && 16 ≤ f.2)) ||
  (List.range 16).any (fun r => 2 ≤ inRow r all && 1 ≤ inRow r fails) ||
  (16 < badChans all d 0 && 16 < badChans all d 1)
/-- RESULT and ACTION of a unit's record (R34, R35). -/
def bootResult (d : Nat) (ms fails : List (Nat × Nat)) (u : Nat × Nat) : Nat × Nat :=
  let failed := fails.contains u
  match u.1 with
  | 2 => if 16 < badChans ms d (u.2 % 64 / 32) then (4, 5) else if ms.contains u then (4, 1) else (failed.toNat, 0)
  | 3 => if fails.contains (3, moduleUnit u.2) then (1, 0) else if ms.contains u then (2, 3) else (failed.toNat, 0)
  | 5 => if rowTile ms (u.2 / 17) == some u.2 then (4, 2) else (failed.toNat, 0)
  | 6 => if ms.contains u then (4, 4) else (failed.toNat, 0)
  | _ => (failed.toNat, 0)
/-- The records of a pass written to its half, zeros in the rest of it (R34). -/
def Bar0.record (b : Bar0) (second : Bool) (rs : List Word) : Bar0 :=
  let base := if second then 1024 else 0
  let keep := b.bootstep.filter fun p => p.1 < base || base + 1024 ≤ p.1
  { b with bootstep := rs.zipIdx.foldl (fun m w => fset m (base + w.2) w.1) keep }
/-- A bring-up pass of a die (R33 to R35): its records, the measures that it applies, and whether any record is a FAIL. -/
def State.bootPass (s : State) (d : Nat) (fails : List (Nat × Nat)) (second : Bool) : Bool × State :=
  let x := s.die d
  let ms := x.bar0.measured
  let fails := (fails ++ x.broken).eraseDups
  let n := x.fails + (dieFails d ms fails).toNat
  let rs := (bootUnits d).map fun u => let r := bootResult d ms fails u; (r.1, bootRecord d u.1 u.2 r.1 r.2 n)
  let any := rs.any fun r => r.1 == 1
  let b := x.bar0.record second (rs.map (·.2))
  let b := if !second && !any then b.record true [] else b
  (any, s.setDie d { x with bar0 := b, fails := n, measures := ms })

/-! ### Quarantine records (R148) -/

/-- An entry of the quarantine log (R148): the node at physical column q of a row, and what moved off it under the row's map before the
quarantine.  Only a spare node of a row with no other quarantine had no tile of its own. -/
def State.logQuarantine (s : State) (d cause row q : Nat) : State :=
  let x := s.die d
  let noMove := q == 16 && (fget? x.rowq row).isNone
  let tile := tileAt d (if noMove then 15 else x.logCol row q) row
  s.updBar0 d fun b =>
    let n := b.qlogidx
    let e := 2 ^ 63 + cause % 4 * 2 ^ 61 + (if noMove then 2 ^ 56 else 0) + q * 2 ^ 51 + row * 2 ^ 47 + tile * 2 ^ 37 + n % 2 ^ 32
    { b with qlog := fset b.qlog (n % 256) (BitVec.ofNat 64 e), qlogidx := (n + 1) % 2 ^ 32 }
/-- The measures that the last pass of a bring-up applied (R19, R35, R80): the row maps, the channels, which a die reset leaves in their
lists, and the absent units. -/
def State.applyMeasures (s : State) (d : Nat) : State :=
  let x := s.die d
  let ms := x.measures
  let rows := (List.range 16).filterMap fun r => (rowTile ms r).map fun u => (r, u % 17)
  let out := (List.range 64).filter fun i => ms.contains (2, 64 * d + i) || 16 < badChans ms d (i / 32)
  let chans := out.map (64 * d + ·)
  let units := (ms.filter fun m => m.1 == 6).map (·.2)
  let fresh := rows.filter fun r => (fget? x.rowq r.1).isNone
  let s := fresh.foldl (fun s r => s.logQuarantine d 2 r.1 r.2) s
  s.updDie d fun x => { x with rowq := rows.foldl (fun m r => fset m r.1 r.2) x.rowq,
                               chans := if x.resetting then x.chans else chans,
                               deadChans := if x.resetting then chans.filter fun c => !x.chans.contains c else [],
                               absent := units.eraseDups }
/-- Once every die has ended its first bring-up, the pool lists are fixed and the dies enter service together (R36, R80); without die 0
the package stays in recovery state. -/
def State.settle (s : State) : State :=
  let ended := [0, 1, 2, 3].all fun d => let x := s.die d; !x.booting && (x.leftOut || x.passes != 0)
  if s.listed || !ended then s
  else
    let s := [0, 1, 2, 3].foldl (fun s d => s.updDie d fun x =>
      { x with unlisted := x.leftOut, inService := !x.leftOut && !s.recovery }) { s with listed := true }
    s.redispatch
/-- A bring-up has ended (R35, R36, R38, R39): the die is left out or goes on to enter service.  Without die 0 no die is in service. -/
def State.endBringup (s : State) (d : Nat) (out : Bool) : State :=
  let s := if out then
      let s := s.updDie d fun x => { x with booting := false, leftOut := true, inService := false }
      if d == 0 then
        [1, 2, 3].foldl (fun s d => s.updDie d fun x => { x with inService := false }) { s with recovery := true }
      else s
    else (s.applyMeasures d).updDie d fun x => { x with booting := false, leftOut := false, bar0 := { x.bar0 with pkg := s.strap } }
  if (s.die d).resetting then s.pend .dieResetEnd { die := d } else s.settle
/-- BRINGUP_PASS (R33 to R36): the first pass of a reset; a die that its records say is left out stays out, with no pass failed. -/
def execBringupPass (s : State) : Out :=
  let d := s.arg.die
  let x := s.die d
  .next (if !x.booting || x.passes != 0 then s
    else if x.bar0.wasOut then
      let rs := (bootUnits d).map fun u => bootRecord d u.1 u.2 3 6 0
      (s.setDie d { x with bar0 := (x.bar0.record false rs).record true [], passes := 1 }).endBringup d true
    else
      let (again, s) := s.bootPass d s.arg.fails false
      let s := s.updDie d fun x => { x with passes := 1 }
      if again then s.pend .secondPass { die := d } else s.endBringup d false)
/-- SECOND_PASS (R35, R36). -/
def execSecondPass (s : State) : Out :=
  let d := s.arg.die
  let x := s.die d
  .next (if !x.booting || x.passes != 1 then s
    else
      let s := ((s.bootPass d s.arg.fails true).2).updDie d fun x => { x with passes := 2 }
      s.endBringup d ((s.die d).fails == 2))

/-! ### Directories and tiles of a die that goes (R23, R39, R225) -/

/-- Directory entries that no longer lie at their home move there (R23, R225, R233). -/
def State.rehome (s : State) : State :=
  let moves := s.tiles.flatMap fun p => (p.2.trav.dir.filter fun e => s.segHome e.1 != p.1).map fun e => (p.1, e)
  let s := moves.foldl (fun s (m : Nat × Nat × DirEntry) => s.freeDir m.1 m.2.1) s
  moves.foldl (fun s (m : Nat × Nat × DirEntry) => s.setDir m.2.1 { m.2.2 with slot := (s.tile (s.segHome m.2.1)).trav.dirSlot }) s
/-- Owners that a test names leave every directory entry (R23, R39, R227, R233).  A replica that was being filled, and is left alone, is filled
as a page-in. -/
def State.dropOwners (s : State) (gone : Nat → Bool) : State :=
  let es := s.tiles.flatMap fun p => p.2.trav.dir.filter fun e => e.2.owners.any gone
  es.foldl (fun s (e : Nat × DirEntry) =>
    let left := e.2.owners.filter fun t => !gone t
    let filling := e.2.state == 3 && (match e.2.owners.getLast? with | some t => !gone t | none => false)
    let st := if e.2.state == 4 || e.2.state == 5 then e.2.state else if left.isEmpty || e.2.state == 1 then 0
      else if !filling then 2 else if left.length == 1 then 1 else 3
    let s := s.broadcast e.1 { e.2 with owners := left, state := st }
    if st == 1 then s.after (fillTicks e.2.size) .pageInDone { seg := e.1, tile := left.headD 0 } else s) s
/-- The tiles of a die. -/
def dieTiles (d : Nat) : List Nat := (List.range 1024).filter fun t => dieOf t == d
/-- Tiles as they come up empty: scratch zero and EMPTY, nothing on its way from them. -/
def State.emptyTiles (s : State) (ts : List Nat) : State :=
  let out := fun (t : Nat) => !ts.contains t
  let s := s.updMem fun m =>
    { m with scr := m.scr.filter fun c => out (c.1 / 2 ^ 19), full := m.full.filter fun (p : Nat × Bool) => out (p.1 / 2 ^ 17),
             spois := m.spois.filter fun (p : Nat × Bool) => out (p.1 / 2 ^ 17) }
  let s := { s with ops := s.ops.filter (fun (p : Nat × Op) => out p.2.tile), lent := s.lent.filter fun l => out l.2 }
  ts.foldl (fun s t => s.setTile t Tile.init) s
/-- The packets that a tile holds, in its inbox, its lay-by, or by MSTONE. -/
def Travel.packets (v : Travel) : List Packet := v.inbox ++ v.layby ++ v.heldPk
/-- Packets and threads of launches that stay, which go with some tiles, are dropped (R62). -/
def State.dropGuests (s : State) (ts : List Nat) : State :=
  let here := s.tiles.filter fun p => ts.contains p.1
  let threads := here.flatMap fun p => (p.2.threads.map fun c => c.2.lidx)
  let packets := here.flatMap fun p => p.2.trav.packets.map (·.lidx)
  (threads ++ packets).foldl (fun s l => s.dropPacket { Packet.init with lidx := l }) s
/-- The launches with a context, packet, local area or reservation on some tiles (R23); without away, one that is switched out counts only
where it has packets (R208). -/
def State.launchesOn (s : State) (ts : List Nat) (away : Bool) : List Nat :=
  ((s.tiles.filter fun p => ts.contains p.1).flatMap fun p =>
    (p.2.shares.filter fun h => !h.ended && (away || !h.away)).map (·.lidx) ++
      (p.2.ctxs.filter fun q => q.2.status != .idle && q.1 != sysCtx).map (·.2.lidx) ++ p.2.trav.packets.map (·.lidx)).eraseDups
/-- Placements in hand that a die decides or takes part in are given up. -/
def State.dropPlacings (s : State) (d : Nat) : State :=
  let gone := s.placing.filter fun p => p.1 == d || p.2.launch.tiles.any fun t => dieOf t == d
  gone.foldl (fun s (p : Nat × Placing) =>
    let ts := p.2.launch.tiles.filter fun t => !p.2.ask.contains (dieOf t)
    ({ s with placing := fdel s.placing p.1 }.unreserveOn p.2.launch p.2.lidx ts).pend .admissionDecision { die := p.1 }) s
/-- Persistent requests of a die leave the arbiters; one that is active is deactivated (R111). -/
def State.dropRequests (s : State) (d : Nat) : State :=
  s.arbs.foldl (fun s (p : Nat × Arbiter) =>
    let a := p.2
    match a.table with
    | (r, line) :: rest =>
      let keep := r != d || a.phase == 1 || a.phase == 2
      let table := (if keep then [(r, line)] else []) ++ rest.filter fun e => e.1 != d
      let s := { s with arbs := fset s.arbs p.1 { a with table := table, phase := if keep then a.phase else 0 } }
      if r == d && a.phase == 1 then s.pend .deactivation { die := d, line := line } else s
    | [] => s) s

/-! ### Die resets (R38 to R41) -/

/-- Queues aborted (R39 step 4, R136): their launches end without a completion or an interrupt, READIDX moves to WRITEIDX, and they
are DISABLED.  A launch in steps 4 to 7 of its final commit completes. -/
def State.abortQueues (s : State) (mine : Nat → Bool) : State :=
  let ls := (s.launches.filter fun p => mine p.2.queue).map (·.1)
  let changed := (s.queues.filter fun p => mine p.1 && (p.2.qstate != 0 || p.2.readIdx != p.2.writeIdx)).map (·.1)
  let stop := fun (p : Nat × Queue) =>
    if mine p.1 then
      (p.1, { p.2 with qstate := 0, readIdx := p.2.writeIdx, disabling := false, ended := [], pending := [], failT := none })
    else p
  let s := { s with queues := s.queues.map stop }
  let s := ls.foldl (fun s l => s.abortWith l 5 0 false (s.launch l).firstTile 0 true none) s
  let again := s.requeued.filter fun p => mine p.2.queue
  let s := again.foldl (fun s (p : Nat × Launch) => ((s.forget p.1).stageUnbind p.2).freeSlot p.2) s
  let held := ((s.holds.filter fun h => mine (h.tag / 2 ^ 15)).map (·.tag)).eraseDups
  let s := held.foldl (fun s t => s.forget t) s
  let s := { s with copies := s.copies.filter fun (p : Nat × Nat) => !mine (p.1 / 2 ^ 15) }
  changed.foldl (fun s q => s.pend .queueEntryWriteback { q := q }) s
/-- The queues of a function emptied and disabled, their launches dropped (R39 step 4). -/
def State.dropQueues (s : State) (d : Nat) : State := s.abortQueues fun q => queueDie q == d
/-- Steps 1 to 4 of a die reset (R39, R41); directory entries and owners leave the die before it evacuates (R233).  DESIGN CHOICE (log 59):
a thermal stop of the die ends with it. -/
def State.beginReset (s : State) (d : Nat) : State :=
  let s := s.updDie d fun x => { x with resetting := true, evacuating := true, tdi := 3, ideX := none, ideLink := none, ideSel := [],
                                        stopped := false, cool := none, passes := 0, fails := 0 }
  let s := s.rehome.dropOwners fun t => dieOf t == d
  let s := s.dropPlacings d
  let others := (s.launches.filter fun p => queueDie p.2.queue != d && p.2.tiles.any fun t => dieOf t == d).map (·.1)
  let s := others.foldl (fun s l => s.abortLaunch l 5 0 false (s.launch l).firstTile) s
  (s.dropQueues d).pend .functionLevelReset { die := d, ok := true }
/-- A die reset asked for (R38 to R40): resets run one at a time; one that comes during a cold reset is ignored, and one of the die
whose bring-up is under way restarts the bring-up with its pass count.  DESIGN CHOICE (log 59): in recovery state it is ignored too. -/
def State.askReset (s : State) (d : Nat) : State :=
  let x := s.die d
  if s.recovery || !s.listed then s
  else if s.resets.head? == some d && x.booting then
    s.pend (if x.passes == 0 then .bringupPass else .secondPass) { die := d }
  else if s.resets.contains d then s
  else
    let s' := { s with resets := s.resets ++ [d] }
    if s.resets.isEmpty then s'.beginReset d else s'
/-- A die evacuates (R39 step 5, R108): while it still holds tokens the bound of R108 runs. -/
def State.leave (s : State) (d : Nat) : State :=
  let s := s.evacuate d
  if (s.heldLines d).isEmpty then s.updDie d fun x => { x with evacT := none }
  else (s.updDie d fun x => { x with evacT := some s.now }).after (2 ^ 20 * meshTicks) .evacuationTimeout { die := d, ok := true, val := s.now }
/-- Steps 5 to 7 of a die reset (R39, R41, R108): once no granted commit is under way the die evacuates, its tiles come up empty, its
registers at their reset values, and its bring-up begins. -/
def State.midReset (s : State) (d : Nat) : State :=
  if !s.txn.committing.isEmpty then s.after againTicks .functionLevelReset { die := d, ok := true }
  else
    let s := s.dropQueues d
    let s := (s.dropRequests d).leave d
    let s := s.dropGuests (dieTiles d)
    let s := s.emptyTiles (dieTiles d)
    let s := (List.range 16).foldl (fun s u => s.unlockStreams (16 * d + u)) { s with svc := s.svc.filter fun r => r.die != d }
    let s := s.updDie d fun x =>
      { x with evacuating := false, booting := true, l2tlb := [], walkers := [], walkQ := [], ingress := [],
               arbUsed := [], arbWait := [], claims := [], sigs := [], cycle0 := s.now,
               bar0 := { Bar0.init with bootstep := x.bar0.bootstep, qlogidx := x.bar0.qlogidx, qlog := x.bar0.qlog } }
    let s := { s with queues := s.queues.filter fun (p : Nat × Queue) => queueDie p.1 != d }
    (s.pend .bringupPass { die := d }).pokeCommits
/-- FUNCTION_LEVEL_RESET (R38 to R41); with ok, its steps 5 to 7. -/
def execFunctionLevelReset (s : State) : Out :=
  let d := s.arg.die
  .next (if s.arg.ok then (if s.resets.head? == some d && (s.die d).evacuating then s.midReset d else s) else s.askReset d)
/-- DIE_PERST (R38). -/
def execDiePerst (s : State) : Out := .next (s.askReset s.arg.die)
/-- DIE_RESET_END (R39 step 8, R40, R225): the function accepts accesses again, and the next reset begins. -/
def execDieResetEnd (s : State) : Out :=
  let d := s.arg.die
  let x := s.die d
  .next (if s.resets.head? != some d || x.booting || !x.resetting then s
    else
      let s := s.setDie d { x with resetting := false, inService := !x.leftOut && !s.recovery, tdi := 0 }
      let s := { s with resets := s.resets.tail }.rehome
      match s.resets with
      | [] => s.redispatch
      | n :: _ => s.beginReset n)
/-- SUPERVISOR_TIMEOUT (R297): a trap of the system slot, or one that no supervisor has taken in time, resets the die. -/
def execSupervisorTimeout (s : State) : Out :=
  let a := s.arg
  .next (if a.ok || (s.ctx a.tile a.ctx).trapT == some a.val then s.askReset (dieOf a.tile) else s)
/-! ### Quarantine (R19 to R23, R40, R148, R315) -/

/-- A die goes out of service (R23). -/
def State.outOfService (s : State) (d t row q : Nat) : State :=
  let ls := s.launchesOn (dieTiles d) true
  let s := s.dropPlacings d
  let s := ls.foldl (fun s l => s.abortLaunch l 4 0 false t) s
  let s := s.logQuarantine d 0 row q
  let qs := (s.queues.filter fun p => queueDie p.1 == d && p.2.qstate == 1).map (·.1)
  let s := qs.foldl (fun s q => s.qerrHard q 7) s
  let s := (s.dropRequests d).leave d
  let s := s.updDie d fun x => { x with inService := false, broken := x.broken ++ [(5, row * 17 + q)] }
  let s := (s.rehome.dropOwners fun t => dieOf t == d).emptyTiles (dieTiles d)
  { s with placing := fdel s.placing d }.redispatch
/-- The lines whose slices a quarantine moves, on a die: those of the row from a logical column on (R20, R22). -/
def State.rowLines (s : State) (d row lx : Nat) : List Nat :=
  (s.heldLines d).filter fun line =>
    let t := sliceTile d (s.keyAddr line)
    locY t == row && lx ≤ locX t
/-- TILE_QUARANTINE (R19 to R22, R40, R208, R314): the tile is stopped and its launches abort; the slices behind it write back; contexts
move by one column, and the entries of their segment copies are broadcast (R233); its logical column comes up empty.  DESIGN CHOICE (log 60):
the slice of the failed node itself writes back too.  A second tile of a row takes the die out of service (R23); an error on a die being
reset is left to its next pass. -/
def execTileQuarantine (s : State) : Out :=
  let t := s.arg.tile
  let e := s.exchanged t
  let d := dieOf e
  let x := s.die d
  let row := locY e
  let q := x.physCol row (locX e)
  .next (if x.resetting then s.updDie d fun x => { x with broken := x.broken ++ [(5, row * 17 + q)] }
    else if !x.inService then s
    else if (fget? x.rowq row).isSome then
      if s.arg.unit == 1 then s else s.outOfService d t row q
    else
      let s := s.updTile t fun y => { y with stopped := true }
      let ls := s.launchesOn [t] false
      let s := ls.foldl (fun s l => s.abortLaunch l 4 0 false t) s
      let s := (s.rowLines d row (locX e)).foldl (fun s line => s.giveUp d line (s.persistentFor line) true) s
      let s := (List.range 16).foldl (fun s lx => if locX e ≤ lx then s.coldTile (tileAt d lx row) else s) s
      let saved := (s.tile t).shares.filter (·.away)
      let s := (((s.dropGuests [t]).dropOwners fun o => o == t).emptyTiles [t]).updTile t fun x => { x with shares := saved }
      let s := s.logQuarantine d s.arg.unit row q
      let moved := (List.range 16).flatMap fun lx =>
        if locX e < lx then (s.tile (tileAt d lx row)).trav.segs.map (·.seg) else []
      let s := moved.foldl (fun s n => s.pend .ownerBroadcast { tile := s.segHome n, seg := n, last := true }) s
      (s.updDie d fun x => { x with rowq := fset x.rowq row q,
                                    broken := if s.arg.unit == 0 then x.broken ++ [(5, row * 17 + q)] else x.broken }).redispatch)
/-- PREDICTIVE_QUARANTINE (R234, R315): corrected errors counted, in a new interval with last; past 64 the tile's context moves to a
free tile, and the vacated node is quarantined with CAUSE 1; while there is no free tile it waits. -/
def execPredictiveQuarantine (s : State) : Out :=
  let t := s.arg.tile
  let n := s.arg.val + if s.arg.last then 0 else (s.tile t).corrected
  let again := { s.arg with val := 0, last := false }
  let d := dieOf t
  .next (let s := s.updTile t fun x => { x with corrected := n }
    if n ≤ 64 || !s.dieUp d then s
    else
      if s.exch.any fun p => p.1 == t || p.2 == t then
        if (s.exch.any fun p => p.1 == t) && s.arg.ok then
          (s.updTile t fun x => { x with corrected := 0 }).pend .tileQuarantine { tile := s.arg.req, unit := 1 }
        else s
      else
        match (List.range 1024).find? fun b =>
            b != t && s.dieUp (dieOf b) && (s.tile b).isFree && !s.exch.any fun p => p.1 == b || p.2 == b with
        | none => s.after againTicks .predictiveQuarantine again
        | some b =>
          (s.pend .liveMigration { tile := t, val := b }).after againTicks .predictiveQuarantine { again with ok := true, req := b })

/-! ### Power and temperature (R28 to R30, R147) -/

/-- THROTTLE_STEP (R28, R29, R147): the value is the hottest junction in °C, the offset the measured power in watts. -/
def execThrottleStep (s : State) : Out :=
  let d := s.arg.die
  let tj := s.arg.val
  let hotw := decide ((s.die d).bar0.powercap < s.arg.off)
  .next (let s := s.updDie d fun x =>
           let k := x.bar0.level
           let k := if 95 < tj || hotw then min 8 (k + 1) else if tj < 92 then k - 1 else k
           { x with bar0 := { x.bar0 with level := k, tj := min 255 tj, capped := hotw },
                    cool := if x.stopped && tj < 92 then (match x.cool with | some t => some t | none => some s.now) else none }
         if 120 ≤ tj then s.pend .thermalPowerOff { die := d }
         else if 110 ≤ tj && !(s.die d).stopped then s.pend .thermalStop { die := d }
         else if (s.die d).stopped && (match (s.die d).cool with | some t => decide (t + 10 * msTicks ≤ s.now) | none => false) then
           s.pend .thermalResume { die := d }
         else s)
/-- THERMAL_STOP (R29, R147): placements in hand are given up.  DESIGN CHOICE (log 59): the launches killed are those whose tile set
includes the die. -/
def execThermalStop (s : State) : Out :=
  let d := s.arg.die
  .next (if (s.die d).stopped then s
    else
      let s := s.updDie d fun x => { x with stopped := true, cool := none, bar0 := { x.bar0 with hot := true, hotT := some s.now } }
      let s := s.dropPlacings d
      let s := { s with hostEvents := s.hostEvents ++ [(d, 1)] }
      let ls := (s.launches.filter fun p => p.2.tiles.any fun t => dieOf t == d).map (·.1)
      ls.foldl (fun s l => s.abortLaunch l 5 0 false (s.launch l).firstTile) s)
/-- THERMAL_POWER_OFF (R29). -/
def execThermalPowerOff (s : State) : Out := .next { s with power := false }
/-- THERMAL_RESUME (R30): after 10 ms with every sensor below 92 °C. -/
def execThermalResume (s : State) : Out :=
  let d := s.arg.die
  let x := s.die d
  let due := match x.cool with | some t => decide (t + 10 * msTicks ≤ s.now) | none => false
  .next (if x.stopped && due then
      let s := s.setDie d { x with stopped := false, cool := none, bar0 := { x.bar0 with level := 8 } }
      { s with hostEvents := s.hostEvents ++ [(d, 2)] }.redispatch
    else s)

/-! ### Attestation (R37) and TDISP (R145) -/

/-- The bytes of a die's BOOTSTEP records of the current reset, for measurement 3 (R37). -/
def Bar0.bootBytes (b : Bar0) : List Byte := (List.range 2048).flatMap fun i => leBytes 4 (fget b.bootstep i 0#32).toNat
/-- The in-service map, for measurement 4 (R37): for each die whether it is in service, its quarantine map and its mapped-out channels.
DESIGN CHOICE (log 58): this order of the bytes. -/
def State.serviceMap (s : State) : List Byte :=
  [0, 1, 2, 3].flatMap fun d =>
    let x := s.die d
    [BitVec.ofNat 8 x.inService.toNat] ++ (x.rowq.flatMap fun p => [BitVec.ofNat 8 p.1, BitVec.ofNat 8 p.2]) ++
      ((x.chans ++ x.deadChans).map fun c => BitVec.ofNat 8 c)
/-- The measurements of a die (R37): the boot ROM's digest, the image's digest and security version, that of the records, and that of the
map.  The ROM's bytes are not given (log 58). -/
def State.measurements (s : State) (d : Nat) : List Nat :=
  [Config.sha256 Config.bootRom, s.meas2.1, s.meas2.2, Config.sha256 (s.die d).bar0.bootBytes, Config.sha256 s.serviceMap]
/-- A function that enumerates answers an SPDM request with a response code and the fields of its body, one of which may bind a nonce
(R36, R37). -/
def State.spdmReply (s : State) (code : Nat) (body : List Nat) : State :=
  if s.enumerated s.arg.die then
    { s.updDie s.arg.die fun x => { x with spdm := some (code, body) } with free := s.free + 1 }
  else s
/-- The part of a response's body that the spec does not lay out. -/
def State.spdmBody (s : State) (code x : Nat) : Nat := Config.spdm s.arg.die code (s.free + x * 2 ^ 64)
/-- SPDM 1.3 and the algorithms that are offered, ECDSA P-256 and SHA-256, as SPDM codes them (R37; PRESUMED, log 58). -/
def spdmVersion : Nat := 0x13
def spdmEcdsaP256 : Nat := 0x10
def spdmSha256 : Nat := 0x01
/-- GET_VERSION (R37). -/
def execGetVersion (s : State) : Out := .next (s.spdmReply 0x04 [spdmVersion])
/-- GET_CAPABILITIES (R37). -/
def execGetCapabilities (s : State) : Out := .next (s.spdmReply 0x61 [spdmVersion, s.spdmBody 0xE1 0])
/-- NEGOTIATE_ALGORITHMS (R37): ECDSA P-256 and SHA-256 alone. -/
def execNegotiateAlgorithms (s : State) : Out := .next (s.spdmReply 0x63 [spdmEcdsaP256, spdmSha256])
/-- GET_DIGESTS (R37). -/
def execGetDigests (s : State) : Out := .next (s.spdmReply 0x01 [s.spdmBody 0x81 0])
/-- GET_CERTIFICATE (R37). -/
def execGetCertificate (s : State) : Out := .next (s.spdmReply 0x02 [s.spdmBody 0x82 0])
/-- CHALLENGE (R37): signed with the die's key. -/
def execChallenge (s : State) : Out := .next (s.spdmReply 0x03 [s.spdmBody 0x83 s.arg.val])
/-- GET_MEASUREMENTS (R37): measurements 1 to 4. -/
def execGetMeasurements (s : State) : Out := .next (s.spdmReply 0x60 (s.measurements s.arg.die))
/-- KEY_EXCHANGE (R37, R145): a key exchange begins, numbered afresh. -/
def execKeyExchange (s : State) : Out :=
  .next (if s.enumerated s.arg.die then
      (s.spdmReply 0x64 [s.spdmBody 0xE4 s.arg.val]).updDie s.arg.die fun x => { x with ideX := some s.free }
    else s)
/-- FINISH (R37, R145): completes a key exchange and sets the key of the link (index 0) or of a selective stream (1 to 4); an exchange
that is not under way, or another index, sets none. -/
def execFinish (s : State) : Out :=
  let d := s.arg.die
  .next (match (s.die d).ideX with
    | some n =>
      let key := Config.ideKey (d + 4 * n)
      (s.spdmReply 0x65 [s.spdmBody 0xE5 s.arg.val]).updDie d fun x =>
        { x with ideX := none, ideLink := if s.arg.idx == 0 then some key else x.ideLink,
                 ideSel := if 1 ≤ s.arg.idx && s.arg.idx ≤ 4 then fset x.ideSel (s.arg.idx - 1) key else x.ideSel }
    | none => s.spdmReply 0x7F [4])
/-- UNSUPPORTED_REQUEST (R37): the error UnsupportedRequest. -/
def execUnsupportedRequest (s : State) : Out := .next (s.spdmReply 0x7F [7])
/-- TDISP_ERROR_EVENT (R145); a function that does not enumerate has no interface (R36). -/
def execTdispErrorEvent (s : State) : Out :=
  .next (if s.enumerated s.arg.die then s.updDie s.arg.die fun x => { x with tdi := 3 } else s)
/-- TDISP_REQUEST (R145): lock (1), start (2) and stop (3) of the interface; ERROR is left only through a die reset. -/
def execTdispRequest (s : State) : Out :=
  .next (if !s.enumerated s.arg.die then s
    else s.updDie s.arg.die fun x =>
      { x with tdi := match x.tdi, s.arg.val with
          | 0, 1 => 1
          | 1, 2 => 2
          | 1, 3 | 2, 3 => 0
          | n, _ => n })

end Sys2Proof.Machine
end

