-- ==== Sys2Proof/Machine/HostIf.lean ====
section
/-! DEFINITION. What the host does: reads and writes of BAR 0, its commands, the doorbell pages, and the window onto device memory (R5, R6,
R11, R28, R34, R36, R59, R60, R67, R73, R78, R84, R115, R116, R130 to R148, R528). -/
namespace Sys2Proof.Machine

/-! ### Reading BAR 0 (R6, R11, R131, R147, R148) -/

/-- The low half of a 64-bit register at its even word, and the high half at its odd one. -/
def half (v : Dword) (off : Nat) : Nat := v.toNat / 2 ^ (if off % 8 == 4 then 32 else 0) % 2 ^ 32
/-- A 32-bit location of a die's BAR 0 (R131). -/
def State.reg32 (s : State) (d off : Nat) : Nat :=
  let b := (s.die d).bar0
  if off == 0x0 then b.pkg % 256 * 16 + d % 4 * 5
  else if off / 8 == 1 then half b.qtbase off
  else if off == 0x20 then s.zonecfg.toNat
  else if off / 8 == 5 then half b.tlbBase off
  else if off / 8 == 6 then half b.tlbSize off
  else if off == 0x38 then b.tlbBusy.toNat * 2 ^ 31 + b.tlbCmd % 512
  else if off / 8 == 8 then half b.bar2cfg off
  else if off == 0x10 then 0
  else if off == 0x14 then b.qcmdBusy.toNat * 2 ^ 31
  else if off == 0x50 then b.powercap
  else if off == 0x58 then b.capped.toNat * 2 ^ 17 + b.hot.toNat * 2 ^ 16 + b.tj % 256 * 2 ^ 8 + b.level % 16
  else if off == 0x60 then b.badreg % 256 * 2 ^ 24 + b.baddoor % 256 * 2 ^ 16 + b.bar2flt % 256 * 2 ^ 8 + b.tdisprej % 256
  else if off == 0x68 then b.recreate % 2 ^ 16 * 2 ^ 16 + b.poisoned % 256 * 2 ^ 8 + b.atomerr % 256
  else if off == 0x6C then b.persist % 2 ^ 16
  else if off / 8 == 14 then half b.cohlog off
  else if off == 0x78 then b.qlogidx % 2 ^ 32
  else if 0x1000 ≤ off && off < 0x1800 then half (fget b.asroot (off / 8 - 0x200) 0#64) off
  else if 0x2000 ≤ off && off < 0x2080 then (fget b.portmap (off / 4 - 0x800) 0#32).toNat
  else if 0x4000 ≤ off && off < 0x4800 then half (fget b.qlog (off / 8 - 0x800) 0#64) off
  else if 0x5000 ≤ off && off < 0x5080 then half (fget b.svccnt (off / 8 - 0xA00) 0#64) off
  else if 0x6000 ≤ off && off < 0x8000 then (fget b.bootstep (off / 4 - 0x1800) 0#32).toNat
  else if 0x10000 ≤ off && off < 0x11000 then
    (fget b.layby (off / 16 - 0x1000) 0xF0000000000000000#128).toNat / 2 ^ (off % 16 * 8) % 2 ^ 32
  else if 0x20000 ≤ off && off < 0x21100 then
    let n := off / 16 - 0x2000
    if off % 16 == 0 then (fget b.errcnt n 0#32).toNat else if off % 16 == 4 then (fget b.errlog n 0#32).toNat else 0
  else 0
/-- The RC fields of a 32-bit location cleared by its read (R6, R131). -/
def State.clear32 (s : State) (d off : Nat) : State :=
  s.updBar0 d fun b =>
    if off == 0x60 then { b with badreg := 0, baddoor := 0, bar2flt := 0, tdisprej := 0 }
    else if off == 0x68 then { b with recreate := 0, poisoned := 0, atomerr := 0 }
    else if off == 0x6C then { b with persist := 0 }
    else if 0x5000 ≤ off && off < 0x5080 then
      let u := off / 8 - 0xA00
      let w := fget b.svccnt u 0#64
      { b with svccnt := fset b.svccnt u (if off % 8 == 4 then w &&& 0xFFFFFFFF#64 else w &&& ~~~0xFFFFFFFF#64) }
    else if 0x20000 ≤ off && off < 0x21100 && off % 16 == 0 then { b with errcnt := fdel b.errcnt (off / 16 - 0x2000) }
    else b
/-- A refused write or access counted (R131, R147). -/
def State.badReg (s : State) (d : Nat) : State := s.updBar0 d fun b => { b with badreg := sat 0xFF (b.badreg + 1) }
/-- A write that the TDISP state refuses (R145). -/
def State.tdispRej (s : State) (d : Nat) : State := s.updBar0 d fun b => { b with tdisprej := sat 0xFF (b.tdisprej + 1) }
/-- Sizes of BAR 0 and BAR 4 (R130). -/
def bar0Size : Nat := 2 ^ 25
def bar4Size : Nat := 2 ^ 27
/-- An access of a BAR lies in it and reaches the function (R36, R130). -/
def State.reaches (s : State) (d off n size : Nat) : Bool := s.enumerated d && off + n ≤ size
/-- The bytes of an access as a number of that width, all ones. -/
def allOnes (width : Nat) : Nat := 2 ^ (8 * width) - 1
/-- An access aligned to its size, of 32 or 64 bits. -/
def okAccess (off width : Nat) : Bool := (width == 4 || width == 8) && off % width == 0
/-- What recovery state shows at a 32-bit location (R132). -/
def State.recovery32 (s : State) (off : Nat) : Nat :=
  if off == 0x0 || (0x6000 ≤ off && off < 0x8000) then s.reg32 0 off
  else if 0x1000000 ≤ off && off < 0x2000000 then leNat ((s.window.drop (off - 0x1000000)).take 4)
  else 0
/-- A doorbell page's location (R137). -/
def State.door32 (s : State) (d off : Nat) : Nat :=
  let x := s.queue (d * 32768 + off / 4096)
  match off % 4096 with
  | 0x000 => x.writeIdx
  | 0x008 => x.readIdx
  | 0x010 => x.fqWrite
  | 0x018 => x.fqRead
  | 0x020 => x.qerr % 256 * 256 + x.qstate % 256
  | _ => 0
/-- What the host's read returns. -/
def State.reply (s : State) (v : Option Nat) : State := { s with hostRead := s.hostRead ++ [v] }
/-- READ_CLEAR (R6, R59, R115, R131, R132, R137, R145, R147, R148): a read of BAR 0, or with unit 4 of BAR 4, which clears the RC fields
that it returns. -/
def execReadClear (s : State) : Out :=
  let a := s.arg
  let d := a.die
  let two (f : Nat → Nat) : Nat := f a.off + if a.width == 8 then f (a.off + 4) * 2 ^ 32 else 0
  .next (if !s.reaches d a.off a.width (if a.unit == 4 then bar4Size else bar0Size) then s
    else if s.recovery then s.reply (some (if a.unit == 4 || !okAccess a.off a.width then 0 else two s.recovery32))
    else if (s.die d).tdi == 3 then s.reply (some (allOnes a.width))
    else if !okAccess a.off a.width then (s.reply (some 0)).badReg d
    else if a.unit == 4 then s.reply (some (two (s.door32 d)))
    else
      let t := (s.reply (some (two (s.reg32 d)))).clear32 d a.off
      if a.width == 8 then t.clear32 d (a.off + 4) else t)

/-! ### Queue entries and commands (R134 to R137, R528) -/

/-- The channel key of a die-local queue's entry, if QTBASE gives it a place (R131, R134). -/
def State.entryKey (s : State) (d n : Nat) : Option Nat :=
  let b := (s.die d).bar0.qtbase.toNat
  if bitB b 0 then s.poolKey (bits b 8 7) (bits b 11 9) (bits b 55 16 * 4096 + 64 * n) else none
/-- The reserved fields of a queue entry (R134). -/
def entryReserved : List (Nat × Nat) :=
  [(511, 304), (287, 256), (223, 219), (207, 203), (191, 187), (127, 120), (87, 84), (63, 59)]
/-- An entry that LOAD refuses (R135). -/
def entryBad (v : Nat) : Bool :=
  entryReserved.any (fun f => bits v f.1 f.2 != 0) || bits v 175 172 < 4 || 12 < bits v 175 172 || bits v 83 80 == 0 ||
    bits v 79 72 == 0 || bits v 52 48 < 4 || 14 < bits v 52 48 || bits v 7 0 != 0 || 2 < bits v 295 288 || 10 < bits v 303 296
/-- The fields that LOAD re-reads for an ENABLED queue (R136). -/
def Queue.rescan (x : Queue) (v : Nat) : Queue :=
  { x with prioceil := bits v 58 56, weight := bits v 79 72, attlim := bits v 83 80, detcap := bits v 119 88,
           cvec := bits v 186 176, evec := bits v 202 192, fvec := bits v 218 208 }
/-- A queue as LOAD enables it (R136). -/
def Queue.loaded (x : Queue) (v : Nat) : Queue :=
  let i := bits v 255 224
  { x.rescan v with qstate := 1, qerr := 0, readIdx := i, writeIdx := i, disabling := false, failT := none,
                    ended := if i == x.readIdx then x.ended else [], ringbase := bits v 47 0, ringlog := bits v 52 48,
                    feed := bitB v 53, order := bitB v 54, deleg := bitB v 55, asid := bits v 71 64,
                    fqbase := bits v 171 128 * 16, fqlog := bits v 175 172 }
/-- QCMD LOAD (R23, R135, R136). -/
def State.cmdLoad (s : State) (d n : Nat) : State :=
  let q := d * 32768 + n
  let x := s.queue q
  match s.entryKey d n with
  | none => s.badReg d
  | some k =>
    let v := s.devRead k 64
    if s.linePoison (lineOf k) || entryBad v then s.badReg d
    else if x.qstate == 1 then (s.updQueue q fun x => x.rescan v).redispatch
    else if x.qstate == 2 && !(s.die d).inService then s
    else
      let kept := fun (p : Nat × Nat) => p.1 / 2 ^ 15 != q || s.requeued.any fun r => r.1 == p.1
      ({ s with copies := s.copies.filter kept }.updQueue q fun x => x.loaded v).pend .queueEntryWriteback { q := q }
/-- QCMD DISABLE (R136). -/
def State.cmdDisable (s : State) (q : Nat) : State :=
  if (s.queue q).qstate == 0 then s
  else
    let s := s.updQueue q fun x => { x with disabling := true }
    if s.queueBusy q then s else s.pend .queueDisabled { q := q }
/-- QCMD ABORT (R136). -/
def State.cmdAbort (s : State) (q : Nat) : State := s.abortQueues fun n => n == q
/-- QUEUE_DISABLED (R136). -/
def execQueueDisabled (s : State) : Out :=
  let q := s.arg.q
  .next (if (s.queue q).disabling && !s.queueBusy q then
      { s with copies := s.copies.filter fun (p : Nat × Nat) => p.1 / 2 ^ 15 != q }.updQueue q
        (fun x => { x with qstate := 0, disabling := false, failT := none }) |>.pend .queueEntryWriteback { q := q }
    else s)
/-- QUEUE_ENTRY_WRITEBACK (R134, R528): READIDX, QSTATE and QERR written to the entry; one that fails puts the queue in ERROR. -/
def execQueueEntryWriteback (s : State) : Out :=
  let q := s.arg.q
  let x := s.queue q
  .next (match s.entryKey (queueDie q) (q % 32768) with
    | some k =>
      if s.linePoison (lineOf k) then
        (s.updQueue q fun x => { x with qstate := 2, qerr := 8 }).irq (queueDie q) x.evec
      else
        let d := queueDie q
        let a := s.lineAddr (lineOf k) + k % 64
        (s.agentLater d (.dev (k + 28) (a + 28)) 4 x.readIdx).agentLater d (.dev (k + 36) (a + 36)) 2 (x.qerr % 256 * 256 + x.qstate % 256)
    | none => (s.updQueue q fun x => { x with qstate := 2, qerr := 8 }).irq (queueDie q) x.evec)
/-- A write of WRITEIDX on a doorbell page (R137). -/
def State.ringDoorbell (s : State) (q w : Nat) : State :=
  let d := queueDie q
  let x := s.queue q
  let dist := fun (i : Nat) => (i + 2 ^ 32 - x.readIdx) % 2 ^ 32
  let bad (s : State) : State := s.updBar0 d fun b => { b with baddoor := sat 0xFF (b.baddoor + 1) }
  if x.feed then (bad s).qerrSoft q 5
  else if x.qstate != 1 then bad s
  else if w == x.writeIdx then s
  else if 2 ^ x.ringlog < dist w then s.qerrHard q 1
  else if dist w < dist x.writeIdx then (bad s).qerrSoft q 6
  else (s.updQueue q fun x => { x with writeIdx := w }).pend .admissionDecision { die := d }
/-- FAULTRESP (R86, R140). -/
def State.faultResp (s : State) (d q i : Nat) (retry : Bool) : State :=
  match (s.queue q).pending.find? fun p => p.1 == i with
  | some (_, f) => if (s.queue q).deleg then s.badReg d else s.answerRecord q i f retry
  | none => s.badReg d

/-! ### Package settings and commands (R28, R36, R55, R78, R84, R138, R153) -/

/-- ZONECFG (R78, R153). -/
def State.setZones (s : State) (d v : Nat) : State :=
  if 24 < bits v 4 0 + bits v 12 8 || !s.launches.isEmpty then s.badReg d
  else
    ({ s with zonecfg := BitVec.ofNat 32 (bits v 12 8 * 256 + bits v 4 0) }.updTxn fun t => { t with tcacfg := none }).redispatch
/-- POWERCAP (R28, R131).  DEDUCED (log 61): each die has its own, since R131 calls ZONECFG alone package-wide. -/
def State.setPowercap (s : State) (d v : Nat) : State :=
  s.updBar0 d fun b => { b with powercap := max 1200 (min 2000 (bits v 11 0)) }
/-- Hardware set a W1C bit in this mesh cycle, so that a write of 1 leaves it set (R6). -/
def State.setNow (s : State) (t : Option Nat) : Bool := t.any fun t => t / meshTicks == s.now / meshTicks
/-- A command of TLBINVCMD (R84): its range and address space. -/
def Bar0.tlbRange (b : Bar0) : Option Nat × Nat × Nat :=
  (if bitB b.tlbCmd 8 then none else some (b.tlbCmd % 256), b.tlbBase.toNat % 2 ^ 48, b.tlbSize.toNat)
/-- TLBINVCMD (R84, R131): the entries go at once, and the command ends when the accesses that used them are performed. -/
def State.startInv (s : State) (d v : Nat) : State :=
  if (s.die d).bar0.tlbBusy then s.badReg d
  else
    let s := s.updBar0 d fun b => { b with tlbBusy := true, tlbCmd := v % 512 }
    let r := (s.die d).bar0.tlbRange
    (s.tlbDrop r.1 r.2.1 r.2.2).pend .tlbinvDone { die := d, id := s.nextId }
/-- An operation that began before a command, and has yet to perform an access that was translated by an entry which the command dropped
(R84); one that its launch has left behind bears no address space, and is waited for. -/
def State.invPending (s : State) (r : Option Nat × Nat × Nat) (before : Nat) : Bool :=
  s.ops.any fun p =>
    p.1 < before && (r.1.isNone || p.2.lidx == orphanLaunch || r.1 == some (s.asidOf p.2.lidx)) &&
      p.2.elems.any fun e =>
        let page := e.va / e.page * e.page
        !e.done && e.loc.isSome && (r.2.2 == 0 || (page < r.2.1 + r.2.2 && r.2.1 < page + e.page))
/-- TLBINV_DONE (R84). -/
def execTlbinvDone (s : State) : Out :=
  let d := s.arg.die
  .next (if s.invPending (s.die d).bar0.tlbRange s.arg.id then s.after againTicks .tlbinvDone s.arg
    else s.updBar0 d fun b => { b with tlbBusy := false })
/-- MGMTCMD (R36, R131). -/
def State.mgmtCmd (s : State) (d v : Nat) : State :=
  if bits v 7 0 == 1 then s.updBar0 (bits v 9 8) fun b => { b with bootstep := [] } else s.badReg d
/-- The RW bits of a lay-by entry (R138). -/
def laybyMask : BitVec 128 := 0x1FF000FFFFFFFFF0000#128
/-- A write of half a lay-by entry (R138). -/
def State.setLayby (s : State) (d i hi v : Nat) : State :=
  let t := tileAt d (i % 16) (i / 16)
  if (s.tile t).shares.any fun h => !h.ended && !h.guest then s.badReg d
  else
    s.updBar0 d fun b =>
      let e := fget b.layby i 0xF0000000000000000#128
      let new := BitVec.ofNat 128 (v % 2 ^ 64 * 2 ^ (64 * hi))
      let part : BitVec 128 := if hi == 0 then 0xFFFFFFFFFFFFFFFF#128 else ~~~0xFFFFFFFFFFFFFFFF#128
      { b with layby := fset b.layby i ((e &&& ~~~part ||| new &&& part) &&& laybyMask) }

/-! ### Writing BAR 0 (R5, R6, R131, R132, R145) -/

/-- A write that CONFIG_LOCKED and RUN refuse (R145). -/
def lockedOff (off : Nat) : Bool :=
  off / 8 == 1 || off == 0x20 || off / 8 == 8 || (0x1000 ≤ off && off < 0x1800) || (0x2000 ≤ off && off < 0x2080) ||
    (0x10000 ≤ off && off < 0x11000)
/-- A 64-bit register that takes 64-bit writes only (R131). -/
def wideOff (off : Nat) : Bool :=
  [1, 2, 3, 5, 6, 8, 13, 14].contains (off / 8) || (0x1000 ≤ off && off < 0x1800) || (0x4000 ≤ off && off < 0x4800) ||
    (0x5000 ≤ off && off < 0x5080) || (0x10000 ≤ off && off < 0x11000)
/-- Bits that an ASROOT or QTBASE holds: all but the reserved ones (R5, R73). -/
def rootMask : Dword := ~~~0xE000#64
/-- Bits that BAR2CFG holds (R5, R143). -/
def bar2Mask : Dword := 0xFFFFC00001FF#64
/-- A write to a 32-bit register. -/
def State.put32 (s : State) (d off v : Nat) : State :=
  if off == 0x20 then s.setZones d v
  else if off == 0x38 then s.startInv d v
  else if off == 0x48 then s.mgmtCmd d v
  else if off == 0x50 then s.setPowercap d v
  else if off == 0x58 then s.updBar0 d fun b => { b with hot := b.hot && (!bitB v 16 || s.setNow b.hotT) }
  else if 0x2000 ≤ off && off < 0x2080 then
    s.updBar0 d fun b => { b with portmap := fset b.portmap (off / 4 - 0x800) (BitVec.ofNat 32 v) }
  else if 0x20000 ≤ off && off < 0x21100 && off % 16 == 4 then
    let n := off / 16 - 0x2000
    s.updBar0 d fun b => if bitB v 31 && !s.setNow (fget? b.errT n) then
      { b with errlog := fset b.errlog n (fget b.errlog n 0#32 &&& 0x7FFFFFFF#32) } else b
  else s.badReg d
/-- A write to a 64-bit register. -/
def State.put64 (s : State) (d off v : Nat) : State :=
  let w := BitVec.ofNat 64 v
  match off with
  | 0x08 => s.updBar0 d fun b => { b with qtbase := w &&& rootMask }
  | 0x10 =>
    let run (s : State) : State := (s.updBar0 d fun b => { b with qcmdBusy := true }).pend .load { die := d, ok := true }
    if (s.die d).bar0.qcmdBusy then s.badReg d
    else
      match bits v 17 15 with
      | 1 => run (s.cmdLoad d (v % 2 ^ 15))
      | 2 => run (s.cmdDisable (d * 32768 + v % 2 ^ 15))
      | 3 => run (s.cmdAbort (d * 32768 + v % 2 ^ 15))
      | _ => s.badReg d
  | 0x18 => s.faultResp d (d * 32768 + v % 2 ^ 15) (bits v 63 32) (!bitB v 17)
  | 0x28 => s.updBar0 d fun b => { b with tlbBase := w }
  | 0x30 => s.updBar0 d fun b => { b with tlbSize := w }
  | 0x40 => s.updBar0 d fun b => { b with bar2cfg := w &&& bar2Mask }
  | 0x70 => s.updBar0 d fun b => if bitB v 63 && !s.setNow b.cohT then { b with cohlog := b.cohlog &&& ~~~0x8000000000000000#64 } else b
  | _ =>
    if 0x1000 ≤ off && off < 0x1800 then
      s.updBar0 d fun b => { b with asroot := fset b.asroot (off / 8 - 0x200) (w &&& rootMask) }
    else if 0x10000 ≤ off && off < 0x11000 then s.setLayby d (off / 16 - 0x1000) (off / 8 % 2) v
    else s.badReg d
/-- A host write to BAR 0 (R131, R132, R145): dropped in ERROR, refused by the TDISP state, or performed on the register or the two
registers that it names. -/
def State.barWrite (s : State) (d off width v : Nat) : State :=
  let put (s : State) (o w : Nat) : State :=
    if (s.die d).tdi != 0 && lockedOff o then s.tdispRej d else if wideOff o then s.badReg d else s.put32 d o w
  if !s.reaches d off width bar0Size then s
  else if s.recovery then
    if okAccess off width && 0x1000000 ≤ off && off < 0x2000000 then
      let o := off - 0x1000000
      let old := s.window ++ List.replicate (o - s.window.length) 0#8
      { s with window := patchBytes old o (leBytes width v) }
    else s
  else if (s.die d).tdi == 3 then s
  else if !okAccess off width then s.badReg d
  else if width == 4 then put s off (v % 2 ^ 32)
  else if wideOff off then if (s.die d).tdi != 0 && lockedOff off then s.tdispRej d else s.put64 d off v
  else put (put s off (v % 2 ^ 32)) (off + 4) (v / 2 ^ 32 % 2 ^ 32)
/-- A posted write of a port waits: a BAR 2 write for locked lines, or a doorbell behind one; one that itself waits bears its number, and
only those before it count. -/
def State.postedAhead (s : State) (d id : Nat) : Bool :=
  let ahead := fun (e : Event) =>
    (e.what == .bar2Write || e.what == .doorbellWrite) && e.arg.die == d && e.arg.id != 0 && (id == 0 || e.arg.id < id)
  (s.timers.any fun e => ahead e.2) ||
    s.dies.any fun p => p.2.slice.any fun y => (match y.2.kept with | some e => ahead e | none => false) ||
      y.2.linked.any fun l => match l with | .unit _ e => ahead e | .op _ => false
/-- A posted write waits for its turn. -/
def State.postLater (s : State) (i : Instr) (a : Arg) : State :=
  let (n, s) := s.fresh
  s.after againTicks i { a with id := if a.id == 0 then n else a.id }
/-- A host write to BAR 4 (R137): the doorbell, which takes its turn behind the port's earlier posted writes, FQREAD, or an ignored one. -/
def State.doorWrite (s : State) (d off v id : Nat) : State :=
  if !s.reaches d off 4 bar4Size || s.recovery || (s.die d).tdi == 3 then s
  else
    let q := d * 32768 + off / 4096
    match off % 4096 with
    | 0x000 =>
      if s.postedAhead d id then s.postLater .doorbellWrite { die := d, q := q, val := v % 2 ^ 32, id := id }
      else s.ringDoorbell q (v % 2 ^ 32)
    | 0x018 => s.updQueue q fun x => { x with fqRead := v % 2 ^ 32 }
    | _ => s

/-- The size of BAR 2 set in the function's PCIe configuration (R130): 2^v GiB. -/
def State.sizeBar2 (s : State) (d v : Nat) : State :=
  if s.enumerated d && v ≤ 9 then s.updBar0 d fun b => { b with bar2Log := 30 + v } else s
/-- REGISTER_WRITE (R130, R131): any write of BAR 0, with unit 4 of BAR 4, or with unit 2 of the size of BAR 2. -/
def execRegisterWrite (s : State) : Out :=
  let a := s.arg
  .next (if a.unit == 4 then (if okAccess a.off a.width then s.doorWrite a.die a.off a.val 0 else s)
    else if a.unit == 2 then s.sizeBar2 a.die a.val
    else s.barWrite a.die a.off a.width a.val)
/-- WRITE_ONE_CLEAR (R6): of COHLOG, THERMSTAT or an ERRLOG. -/
def execWriteOneClear (s : State) : Out :=
  let a := s.arg
  .next (s.barWrite a.die a.off (if wideOff a.off then 8 else 4) a.val)
/-- ZONECFG_WRITE (R78). -/
def execZonecfgWrite (s : State) : Out := .next (s.barWrite s.arg.die 0x20 4 s.arg.val)
/-- POWERCAP_WRITE (R28, R131). -/
def execPowercapWrite (s : State) : Out := .next (s.barWrite s.arg.die 0x50 4 s.arg.val)
/-- LAYBY_ENTRY_WRITE (R55, R138): half a lay-by entry; the offset is 8 for the upper one. -/
def execLaybyEntryWrite (s : State) : Out :=
  let a := s.arg
  .next (s.barWrite a.die (0x10000 + 16 * (a.idx % 256) + (if a.off == 8 then 8 else 0)) 8 a.val)
/-- QCMD with an operation and a die-local queue (R136). -/
def qcmd (op q : Nat) : Nat := op * 2 ^ 15 + q % 2 ^ 15
/-- LOAD (R136); with ok, the end of the command that BUSY shows. -/
def execLoad (s : State) : Out :=
  .next (if s.arg.ok then s.updBar0 s.arg.die fun b => { b with qcmdBusy := false }
    else s.barWrite s.arg.die 0x10 8 (qcmd 1 s.arg.q))
/-- DISABLE (R136). -/
def execDisable (s : State) : Out := .next (s.barWrite s.arg.die 0x10 8 (qcmd 2 s.arg.q))
/-- ABORT (R136). -/
def execAbort (s : State) : Out := .next (s.barWrite s.arg.die 0x10 8 (qcmd 3 s.arg.q))
/-- FAULTRESP for a record (R140). -/
def faultrespWord (idx act q : Nat) : Nat := idx % 2 ^ 32 * 2 ^ 32 + act * 2 ^ 17 + q % 2 ^ 15
/-- RETRY (R86, R140). -/
def execRetry (s : State) : Out := .next (s.barWrite s.arg.die 0x18 8 (faultrespWord s.arg.idx 0 s.arg.q))
/-- FAIL (R86, R140). -/
def execFail (s : State) : Out := .next (s.barWrite s.arg.die 0x18 8 (faultrespWord s.arg.idx 1 s.arg.q))
/-- TLBINV (R84). -/
def execTlbinv (s : State) : Out := .next (s.barWrite s.arg.die 0x38 4 s.arg.val)
/-- CLEAR_BOOTSTEP (R36, R131). -/
def execClearBootstep (s : State) : Out := .next (s.barWrite s.arg.die 0x48 4 s.arg.val)
/-- DOORBELL_WRITE (R137). -/
def execDoorbellWrite (s : State) : Out :=
  .next (s.doorWrite (queueDie s.arg.q) (s.arg.q % 32768 * 4096) s.arg.val s.arg.id)
/-- FQREAD_WRITE (R137, R140). -/
def execFqreadWrite (s : State) : Out := .next (s.doorWrite (queueDie s.arg.q) (s.arg.q % 32768 * 4096 + 0x18) s.arg.val 0)

/-! ### BAR 2 (R143, R144, R162) -/

/-- A refused access of BAR 2 counted (R143). -/
def State.bar2Bad (s : State) (d : Nat) : State := s.updBar0 d fun b => { b with bar2flt := sat 0xFF (b.bar2flt + 1) }
/-- The pieces of an access, cut at lines: offset in the access, and length. -/
def linePieces (va : Nat) : Nat → Nat → Nat → List (Nat × Nat)
  | 0, _, _ => []
  | f + 1, o, n =>
    if n == 0 then [] else
      let m := min n (64 - (va + o) % 64)
      (o, m) :: linePieces va f (o + m) (n - m)
/-- Where BAR 2 sends each piece of an access (R143): device places only. -/
def State.bar2Places (s : State) (d off n acc : Nat) : Option (List (Nat × Nat × Nat × Nat)) :=
  let b := (s.die d).bar0.bar2cfg.toNat
  let va := bits b 47 30 * 2 ^ 30 + off
  if !bitB b 8 || !globalVa (va + n - 1) then none
  else
    (linePieces va (n / 64 + 2) 0 n).foldr (fun (p : Nat × Nat) r =>
      match r, s.translate d (bits b 7 0) (va + p.1) acc false true with
      | some l, .ok (f, .dev k a) => if f.cls < 2 then some ((p.1, p.2, k, a) :: l) else none
      | _, _ => none) (some [])
/-- BAR2_WRITE (R143, R162): DIRECT-class stores in their order of arrival, through the slices of the port's die (R90, R165). -/
def execBar2Write (s : State) : Out :=
  let a := s.arg
  let d := a.die
  let len := a.data.length
  .next (if !s.reaches d a.off len (2 ^ (s.die d).bar0.bar2Log) || s.recovery || (s.die d).tdi == 3 || len == 0 then s
    else
      match s.bar2Places d a.off len 1 with
      | none => s.bar2Bad d
      | some ps =>
        let (n, s) := s.fresh
        let a := if a.id == 0 then { a with id := n } else a
        if s.postedAhead d a.id then s.postLater .bar2Write a
        else
          match s.linesFor d ((ps.flatMap fun p => placeLines (.dev p.2.2.1 p.2.2.2) p.2.1 true).eraseDups) ⟨.bar2Write, a⟩ with
          | (false, s) => s
          | (true, s) =>
            ps.foldl (fun s (p : Nat × Nat × Nat × Nat) =>
              s.agentStore d (.dev p.2.2.1 p.2.2.2) p.2.1 (leNat ((a.data.drop p.1).take p.2.1)) false) s)
/-- BAR2_READ (R143, R144): coherent loads, or Completer Abort; the bytes of a poisoned line are free values. -/
def execBar2Read (s : State) : Out :=
  let a := s.arg
  let d := a.die
  .next (if !s.reaches d a.off a.width (2 ^ (s.die d).bar0.bar2Log) then s
    else if s.recovery then s
    else if (s.die d).tdi == 3 then s.reply (some (allOnes a.width))
    else
      match s.bar2Places d a.off a.width 0 with
      | none => (s.reply none).bar2Bad d
      | some ps =>
        let (n, s) := s.fresh
        let a := if a.id == 0 then { a with id := n } else a
        if s.postedAhead d a.id then s.postLater .bar2Read a
        else
        match s.linesFor d ((ps.flatMap fun p => placeLines (.dev p.2.2.1 p.2.2.2) p.2.1 false).eraseDups) ⟨.bar2Read, a⟩ with
        | (false, s) => s
        | (true, s) =>
        let r := ps.foldl (fun (r : Nat × State) (p : Nat × Nat × Nat × Nat) =>
          let bytes := if r.2.linePoison (lineOf p.2.2.1) then
              (List.range p.2.1).foldl (fun (w : Nat × State) i =>
                let (v, t) := w.2.freeW
                (w.1 + v.toNat % 256 * 2 ^ (8 * i), t)) (0, r.2)
            else (r.2.devRead p.2.2.1 p.2.1, r.2)
          (r.1 + bytes.1 * 2 ^ (8 * p.1), bytes.2)) (0, s)
        r.2.reply (some r.1))

end Sys2Proof.Machine
end

