-- ==== Sys2Proof/Machine/Mesh.lean ====
section
/-! DEFINITION. The mesh: routers and their arbitration, links and their credits, damaged flits, die bridges, and the ports to other packages
(R15, R16, R19, R21, R42 to R53, R58 to R68, R235, R529). -/
namespace Sys2Proof.Machine

/-! ### The routing header (R43) -/

/-- The unit code of a place (R43). -/
def unitCode : Place → Nat
  | .tile _ => 0
  | .slice _ => 1
  | .memctl .. => 2
  | .service .. => 3
  | .pcie _ => 4
  | .port _ => 5
  | .mgmt _ => 6
/-- The source of a message as its header names it (R43): package, unit and the logical position of its node; for one that came in through a
port, what its frame named. -/
def State.sourceOf (s : State) (m : Msg) : Nat × Nat × Nat :=
  match m.src with
  | .port _ => (m.payload.arg.idx, 0, if m.payload.arg.req == 1 then m.payload.arg.who.1 % 1024 else s.nodeTile m.from_)
  | p => (s.pkgOf (nodeDie m.from_), unitCode p, s.nodeTile m.from_)
/-- An end of a message in a header: package, die, physical row and column, and unit (R43). -/
def headerEnd (pkg node unit : Nat) : BitVec 23 :=
  BitVec.ofNat 23 (pkg % 256 * 2 ^ 15 + nodeDie node % 4 * 2 ^ 13 + nodeRow node * 2 ^ 9 + nodePx node * 2 ^ 4 + unit)
/-- A tile of another package as a header names it.  PRESUMED (log 63): by its node in a package without a quarantine, since the remap of
another package is not known here. -/
def farNode (t : Nat) : Nat := nodeAt (dieOf t) (locX t) (locY t)
/-- The routing header of a message (R43). -/
def State.header (s : State) (m : Msg) : BitVec 72 :=
  let own := s.pkgOf (nodeDie m.from_)
  let dest := match m.pkg with
    | some g => headerEnd g (farNode (m.payload.arg.tile % 1024)) 0
    | none => headerEnd own m.to_ (unitCode m.dst)
  let (pkg, unit, t) := s.sourceOf m
  let src := headerEnd pkg (match m.src with | .port _ => farNode t | _ => m.from_) unit
  let launch := if m.lidx < orphanLaunch then handleOf m.lidx else 0
  dest ++ src ++ BitVec.ofNat 3 m.vc ++ Config.msgType m.payload.what ++ BitVec.ofNat 14 launch ++ BitVec.ofNat 2 (m.flits - 1) ++ 0#1
/-- The sideband of a flit (R43): two copies of the header, each with its code. -/
def State.sideband (s : State) (m : Msg) : BitVec 160 :=
  let h := s.header m
  h ++ Config.secded h ++ (h ++ Config.secded h)

/-! ### Routes (R44 to R46, R529) -/

/-- The next logical position of a route from one to another (R44, R45). -/
def towards (yFirst : Bool) (p t : Nat) : Option Nat :=
  let h := if tileX p < tileX t then some (p + 1) else if tileX t < tileX p then some (p - 1) else none
  let v := if tileY p < tileY t then some (p + 32) else if tileY t < tileY p then some (p - 32) else none
  if yFirst then v.or h else h.or v
/-- Column and row of a logical position of the package in the frame of a die: 0 to 15 are its own (R13). -/
def frameX (d t : Nat) : Nat :=
  match d with
  | 0 => tileX t
  | 1 => tileY t
  | 2 => 31 - tileX t
  | _ => 31 - tileY t
/-- The row in the frame of a die. -/
def frameY (d t : Nat) : Nat :=
  match d with
  | 0 => tileY t
  | 1 => 31 - tileX t
  | 2 => 31 - tileY t
  | _ => tileX t
/-- The next node of a route from one node to another.  In a shifted row a step between logical columns q − 1 and q leads through the node
px q in pass-through (R21); a unit at such a node is reached, and left, as R529 says.  start tells a message that enters the mesh there. -/
def State.hop (s : State) (yFirst start : Bool) (n m : Nat) : Option Nat :=
  let p := s.nodeTile n
  let t := s.nodeTile m
  if n == m then none
  else
    match towards yFirst p t with
    | none => some m
    | some p' =>
      let d := nodeDie n
      let row := nodeRow n
      let n' := s.nodeOf p'
      if s.passes n then
        let q := nodePx n
        if frameY d p' == row then some (nodeAt d (if frameX d p' < q then q - 1 else q + 1) row)
        else if start then some (if p' == t then m else n')
        else some (nodeAt d (q + 1) row)
      else if p' == t && s.passes m then
        let e := nodeDie m
        if frameY e p == nodeRow m && frameX e t < frameX e p then some n' else some m
      else if dieOf p' == d && locY p' == row then
        match fget? (s.die d).rowq row with
        | some q => some (if min (locX p) (locX p') + 1 == q then nodeAt d q row else n')
        | none => some n'
      else some n'
/-- The adapter of a package port, as a node. -/
def portAdapter (p : Nat) : Nat := 1088 + p
/-- Whether a message has come in through a port and is still in its adapter. -/
def Msg.inAdapter (m : Msg) : Bool := 1088 ≤ m.at_
/-- The next node of a message: one for another package goes on from its port's attachment node into the adapter, and one from an adapter to
the attachment node for its tile (R65, R68). -/
def State.step? (s : State) (m : Msg) : Option Nat :=
  if m.inAdapter then (if m.pkg.isSome then none else some (portNode (m.at_ - 1088) m.payload.arg.tile))
  else
    match s.hop (m.cls % 2 == 1) (m.at_ == m.from_) m.at_ m.to_, m.pkg, m.dst with
    | some n, _, _ => some n
    | none, some _, .port p => some (portAdapter p)
    | none, _, _ => none

/-! ### Buffers and credits (R46, R47) -/

/-- A link by its two nodes; from a node to itself it is the node's injection. -/
def linkOf (a b : Nat) : Nat := a * 2048 + b
/-- The buffer of a link, channel and class (R46, R47). -/
def bufKey (link vc cls : Nat) : Nat := (link * 8 + vc) * 4 + cls
/-- Buffer depth of a link in flits (R47): off-package adapters, die bridges, and the mesh. -/
def linkDepth (a b : Nat) : Nat := if 1088 ≤ b then 256 else if 1088 ≤ a || nodeDie a == nodeDie b then 4 else 32
/-- Credits of a buffer in use: its flits, and those on their way back (R47). -/
def State.creditsUsed (s : State) (link vc cls : Nat) : Nat :=
  ((s.msgs.filter fun m => m.via == link + 2 && m.vc == vc && m.cls == cls).map (·.flits)).sum + fget s.links (bufKey link vc cls) 0
/-- A buffer has room for a message (R47). -/
def State.hasCredit (s : State) (a b : Nat) (m : Msg) : Bool := s.creditsUsed (linkOf a b) m.vc m.cls + m.flits ≤ linkDepth a b
/-- Flits leave the buffer they are in, and their credits go back (R47). -/
def State.leaveBuffer (s : State) (m : Msg) : State :=
  if m.via < 2 then s
  else
    let k := bufKey (m.via - 2) m.vc m.cls
    { s with links := fset s.links k (fget s.links k 0 + m.flits) }.after (2 * meshTicks) .creditReturn
      { link := m.via - 2, vc := m.vc, cls := m.cls, val := m.flits }
/-- CREDIT_RETURN (R47). -/
def execCreditReturn (s : State) : Out :=
  let k := bufKey s.arg.link s.arg.vc s.arg.cls
  let n := fget s.links k 0 - s.arg.val
  .next { s with links := if n == 0 then fdel s.links k else fset s.links k n }
/-- A message taken out of the mesh. -/
def State.takeMsg (s : State) (m : Msg) : State := { s.leaveBuffer m with msgs := s.msgs.filter fun o => o.id != m.id }
/-- A message goes on into a place of a node: behind those that came there before it. -/
def State.moveMsg (s : State) (m : Msg) (at_ via hops : Nat) : State :=
  let s := s.leaveBuffer m
  { s with msgs := s.msgs.filter (fun o => o.id != m.id) ++ [{ m with at_ := at_, via := via, hops := hops }] }

/-! ### Ports to other packages: replay (R66) -/

/-- A package port. -/
def State.port (s : State) (p : Nat) : Port := fget s.ports p Port.init
/-- A package port changed. -/
def State.updPort (s : State) (p : Nat) (f : Port → Port) : State := { s with ports := fset s.ports p (f (s.port p)) }
/-- The replay buffer has room for a frame, or the link is down (R66). -/
def State.mayFrame (s : State) (p : Nat) : Bool := (fget? s.portDown p).isSome || (s.port p).replay.length < 256

/-! ### Order and arbitration (R48, R52, R235) -/

/-- An earlier message of the same source, destination and channel is still on its way (R52, R235). -/
def State.pairAhead (s : State) (m : Msg) : Bool :=
  s.msgs.any fun o => o.id < m.id && o.vc == m.vc && o.src == m.src && o.dst == m.dst && o.pkg == m.pkg
/-- The message stands at the head of where it is: of its unit's messages to its node on its channel, or of its buffer. -/
def State.atHead (s : State) (m : Msg) : Bool :=
  if m.via == 0 then !s.msgs.any fun o => o.via == 0 && o.id < m.id && o.vc == m.vc && o.src == m.src && o.at_ == m.at_ && o.to_ == m.to_
  else (s.msgs.find? fun o => o.via == m.via && o.vc == m.vc && o.cls == m.cls).any fun o => o.id == m.id
/-- The destination has room for a message (R50, R96, R117): a slice's ingress queue on VC0, or a service unit's queue; everything else is always
taken. -/
def State.sinks (s : State) (m : Msg) : Bool :=
  match m.dst with
  | .slice t => m.vc != 0 || decide ((fget (s.die (dieOf t)).ingress t []).length < 64)
  | .service d u => m.payload.what != .serviceRequest || decide (s.svcLoad d u < svcDepth u)
  | _ => true
/-- The output that a message asks for, by the nodes that it joins: injection from a node to itself, a link, or ejection, which is named by
the node and 4096.  None while it is held, not at the head, or without a credit. -/
def State.asksFor (s : State) (m : Msg) : Option (Nat × Nat) :=
  if m.via == 1 || !s.atHead m then none
  else if m.via == 0 then if s.hasCredit m.at_ m.at_ m then some (m.at_, m.at_) else none
  else
    match s.step? m with
    | some n => if s.hasCredit m.at_ n m then some (m.at_, n) else none
    | none => if (m.inAdapter && !s.mayFrame (m.at_ - 1088)) || !s.sinks m then none else some (m.at_, 4096)
/-- Lanes of an output (R48): two for injection and for ejection. -/
def outLanes (o : Nat × Nat) : List Nat := if o.1 == o.2 || o.2 == 4096 then [0, 1] else [0]
/-- The cursor of an output's lane. -/
def grantKey (o : Nat × Nat) (lane : Nat) : Nat := ((o.1 * 8192 + o.2) * 2 + lane) * 16
/-- The next of some numbers in round-robin order after the last one granted. -/
def nextAfter (last : Option Nat) (l : List Nat) : Option Nat :=
  let least := fun (l : List Nat) => l.foldl (fun (b : Option Nat) x => match b with | none => some x | some y => some (min x y)) none
  match last with
  | none => least l
  | some n => (least (l.filter (n < ·))).or (least l)
/-- The input through which a message comes to an output: its buffer's link, or for an injection its unit (R48). -/
def Msg.input (m : Msg) : Nat := if m.via == 0 then unitCode m.src else m.via
/-- The message that a lane of an output grants (R48): the channels in round-robin order, and on one channel the inputs. -/
def State.grantOf (s : State) (o : Nat × Nat) (lane : Nat) : Option Msg :=
  let ms := s.msgs.filter fun m => s.asksFor m == some o
  (nextAfter (fget? s.rr (grantKey o lane)) (ms.map (·.vc))).bind fun vc =>
    let ms := ms.filter fun m => m.vc == vc
    (nextAfter (fget? s.rr (grantKey o lane + 1 + vc)) (ms.map (·.input))).bind fun i => ms.find? fun m => m.input == i
/-- The lane of an output that grants a message, if one does (R48). -/
def State.granted (s : State) (m : Msg) : Option ((Nat × Nat) × Nat) :=
  (s.asksFor m).bind fun o => ((outLanes o).find? fun k => (s.grantOf o k).any fun g => g.id == m.id).map fun k => (o, k)
/-- A message may move: an output grants it, or it was held and nothing is ahead of it any more. -/
def State.mayMove (s : State) (m : Msg) : Bool := if m.via == 1 then !s.pairAhead m else (s.granted m).isSome
/-- The round-robin cursors after a grant (R48). -/
def State.noteGrant (s : State) (m : Msg) (o : Nat × Nat) (lane : Nat) : State :=
  { s with rr := fset (fset s.rr (grantKey o lane) m.vc) (grantKey o lane + 1 + m.vc) m.input }
/-- A message lost with all its flits: a thread packet is a drop (R61, R62). -/
def State.losePacket (s : State) (e : Event) : State :=
  if e.what == .threadPacketArrival || e.what == .segmentForward then s.dropPacket e.arg.packet else s
/-- A message lost. -/
def State.loseMsg (s : State) (m : Msg) : State := (s.takeMsg m).losePacket m.payload
/-- The tile that a message is for is on a die that takes no work. -/
def State.destGone (s : State) (m : Msg) : Bool :=
  match m.dst with
  | .tile t => !s.dieUp (dieOf t)
  | _ => false
/-- The message reaches the node that holds its destination: its event happens next.  Else it is lost, meets a signpost, or is held for an
earlier one of its pair (R52, R235). -/
def State.eject (s : State) (m : Msg) : State :=
  if s.destGone m then s.loseMsg m
  else if m.to_ != s.routerOf m.dst then (s.moveMsg m m.at_ 1 m.hops).pend .signpostForward { id := m.id }
  else if s.pairAhead m then s.moveMsg m m.at_ 1 m.hops
  else let t := s.takeMsg m; { t with agenda := .act m.payload :: t.agenda }
/-- A message leaves its port as a frame with the next sequence number, and stays in the replay buffer until it is acknowledged; where the
link is down it is lost (R66). -/
def State.frameOut (s : State) (p g : Nat) (m : Msg) : State :=
  if (fget? s.portDown p).isSome then s.loseMsg m
  else (s.takeMsg m).updPort p fun x => { x with txSeq := x.txSeq + 1, replay := x.replay ++ [(x.txSeq, g, m.payload)] }
/-- FLIT_FORWARD (R42 to R50, R65, R68, R235): a message that an output grants is injected, crosses one link, or is ejected; one in a
port's outgoing adapter is framed, and one held at its node is taken in once nothing is ahead of it. -/
def execFlitForward (s : State) : Out :=
  .next (match s.msgs.find? fun m => m.id == s.arg.id with
    | none => s
    | some m =>
      if m.via == 1 then (if s.pairAhead m then s else s.eject m)
      else
        match s.granted m with
        | none => s
        | some (o, lane) =>
          let s := s.noteGrant m o lane
          if o.2 != 4096 then
            let s := s.moveMsg m o.2 (linkOf o.1 o.2 + 2) (m.hops + if o.1 == o.2 then 0 else 1)
            if m.payload.what == .forwardedRequest && o.2 == m.to_ then s.after (64 * meshTicks) .forwardDiscard { id := m.id } else s
          else
            match m.pkg with
            | some g => s.frameOut (m.at_ - 1088) g m
            | none => s.eject m)
/-- FORWARD_DISCARD (R50): a forwarded transient request that could not be placed at its slice within 64 mesh cycles of its coming to the node is
discarded. -/
def execForwardDiscard (s : State) : Out :=
  .next (match s.msgs.find? fun m => m.id == s.arg.id with
    | some m => if m.payload.what == .forwardedRequest && m.at_ == m.to_ then s.takeMsg m else s
    | none => s)

/-! ### Damaged flits (R58 to R63) -/

/-- The place of a router's counters in BAR 0 (R131): its physical row and column. -/
def routerIdx (n : Nat) : Nat := nodeRow n * 17 + nodePx n
/-- The router at which a message stands: a port adapter belongs to the port's attachment node. -/
def Msg.router (m : Msg) : Nat := if m.inAdapter then portNode (m.at_ - 1088) m.payload.arg.tile else m.at_
/-- A field of a router's ERRCNT counts, saturating (R59). -/
def State.errCount (s : State) (at_ lo width : Nat) : State :=
  let i := routerIdx at_
  s.updBar0 (nodeDie at_) fun b =>
    let w := (fget b.errcnt i 0#32).toNat
    let n := bits w (lo + width - 1) lo
    if n + 1 < 2 ^ width then { b with errcnt := fset b.errcnt i (BitVec.ofNat 32 (w + 2 ^ lo)) } else b
/-- An attributed drop captured in a router's ERRLOG while VALID is clear (R60). -/
def State.errLog (s : State) (at_ vc pkg unit node : Nat) : State :=
  let i := routerIdx at_
  s.updBar0 (nodeDie at_) fun b =>
    if (fget b.errlog i 0#32).getLsbD 31 then b
    else
      let w := 2 ^ 31 + 2 ^ 30 + vc % 8 * 2 ^ 27 + pkg % 256 * 2 ^ 19 + unit % 16 * 2 ^ 15 + tileY node * 2 ^ 5 + tileX node
      { b with errlog := fset b.errlog i (BitVec.ofNat 32 w), errT := fset b.errT i s.now }
/-- FLIT_DAMAGED (R58): 0 a single-bit error and 1 a bad header copy, corrected and counted; 2 a bridge's retry, not counted; 3 an
uncorrectable payload, dropped with its message. -/
def execFlitDamaged (s : State) : Out :=
  .next (match s.msgs.find? fun m => m.id == s.arg.id with
    | none => s
    | some m =>
      match s.arg.unit with
      | 0 => s.errCount m.router 0 12
      | 1 => s.errCount m.router 0 12
      | 2 => s
      | _ =>
        let (pkg, unit, node) := s.sourceOf m
        ((s.errCount m.router 12 12).errLog m.router m.vc pkg unit node).loseMsg m)
/-- UNATTRIBUTED_DROP (R63): both header copies of a flit are uncorrectable. -/
def execUnattributedDrop (s : State) : Out :=
  .next (match s.msgs.find? fun m => m.id == s.arg.id with
    | none => s
    | some m =>
      let d := nodeDie m.router
      let s := (s.errCount m.router 24 4).takeMsg m
      if m.vc != 5 then s
      else
        let ls := (s.launches.filter fun p => p.2.tiles.any fun t => dieOf t == d).map (·.1)
        ls.foldl (fun s l => s.abortLaunch l 4 0 false (s.nodeTile m.router)) s)
/-- The links of a lane of a die's east edge, one in each direction (R15): to the south edge of the next die. -/
def State.laneLinks (s : State) (d j : Nat) : List Nat :=
  let a := s.nodeOf (tileAt d 15 j)
  let b := s.nodeOf (tileAt ((d + 1) % 4) j 15)
  [linkOf a b, linkOf b a]
/-- BRIDGE_MODULE_FAIL (R16, R64): the flits that the module was carrying are lost, and the die is reset whose east edge it is on; its
bring-up then finds the module failed. -/
def execBridgeModuleFail (s : State) : Out :=
  let d := s.arg.die
  let m := s.arg.unit
  let links := s.laneLinks d (2 * m) ++ s.laneLinks d (2 * m + 1)
  let lost := s.msgs.filter fun k => 2 ≤ k.via && links.contains (k.via - 2)
  let s := lost.foldl (fun s k => s.loseMsg k) s
  .next ((s.updDie d fun x => { x with broken := x.broken ++ [(3, moduleUnit (2 * m))] }).askReset d)

/-! ### Ports to other packages (R65 to R68) -/

/-- What a frame carries, by the code that the model gives it: the event at the destination and its channel. -/
def frameEvent (c : Nat) : Instr × Nat :=
  match c with
  | 0 => (.threadPacketArrival, 5)
  | 1 => (.eventMessage, 4)
  | 2 => (.remoteScratchRequest, 3)
  | 3 => (.remoteScratchReply, 4)
  | 4 => (.creditRequest, 7)
  | 5 => (.creditReturnMessage, 7)
  | 6 => (.hitReservation, 7)
  | _ => (.hitRecordArrival, 6)
/-- A port's link goes down: the frames of its replay buffer are lost, and the host is told (R66). -/
def State.linkDown (s : State) (p : Nat) : State :=
  if (fget? s.portDown p).isSome then s
  else
    let lost := (s.port p).replay.map (·.2.2)
    let s := { s with portDown := fset s.portDown p 1, ports := fdel s.ports p, hostEvents := s.hostEvents ++ [(p / 2, 16 + p)] }
    lost.foldl (fun s e => s.losePacket e) s
/-- The frames up to a number have been accepted by the other package (R66). -/
def State.acked (s : State) (p seq : Nat) : State :=
  let done := (s.port p).replay.filter fun f => f.1 ≤ seq
  { s with sent := s.sent ++ done.map fun (f : Nat × Nat × Event) => (p, f.2.1, f.2.2) }.updPort p fun x =>
    { x with replay := x.replay.filter (fun f => seq < f.1), fails := if done.isEmpty then x.fails else 0 }
/-- The other package has refused a frame, and the frames from it on are replayed; the 16th failed replay in a row takes the link down
(R66). -/
def State.refused (s : State) (p : Nat) : State :=
  if 16 ≤ (s.port p).fails + 1 then s.linkDown p else s.updPort p fun x => { x with fails := x.fails + 1 }
/-- The buffer of a port's adapter for frames that have come in. -/
def entryLink (p : Nat) : Nat := linkOf 2047 (portAdapter p)
/-- PORT_FRAME (R46, R47, R66, R68): of unit 8 an acknowledgement and of unit 9 a refusal of frames sent; else a frame from another package.
One whose CRC is wrong, that is out of sequence, or for which the adapter has no room is refused, to be replayed; one for another package is
dropped and counted; else the message goes on from the adapter to its tile. -/
def execPortFrame (s : State) : Out :=
  let a := s.arg
  let p := a.port
  let at_ := portNode p a.tile
  .next (if (fget? s.portDown p).isSome || !s.dieHost (p / 2) then s
    else if a.unit == 8 then s.acked p a.seq
    else if a.unit == 9 then s.refused p
    else if !a.ok || a.seq != (s.port p).rxSeq then s
    else
      let (i, vc) := frameEvent a.unit
      let took (s : State) : State := s.updPort p fun x => { x with rxSeq := x.rxSeq + 1 }
      if a.gen != s.pkgOf (p / 2) then took ((s.errCount at_ 12 12).errLog at_ vc a.idx 0 (a.who.1 % 1024))
      else
        let to_ := s.routerOf (.tile a.tile)
        let cls := (s.yFirst at_ to_).toNat + 2
        if 256 < s.creditsUsed (entryLink p) vc cls + 1 then s
        else
          let arg := { a with req := 1, ok := a.last, port := 0, gen := 0, unit := 0, seq := 0 }
          let (n, s) := s.fresh
          took { s with msgs := s.msgs ++ [{ id := n, src := .port p, dst := .tile a.tile, from_ := at_, to_ := to_, vc := vc, cls := cls,
                                             flits := 1, lidx := a.lidx, at_ := portAdapter p, via := entryLink p + 2, pkg := none, hops := 0,
                                             payload := ⟨i, arg⟩ }] })
/-- PORT_LINK_DOWN (R66): a port-down event goes to the host. -/
def execPortLinkDown (s : State) : Out := .next (s.linkDown s.arg.port)
/-- PORT_LINK_RETRAIN (R66): both ends begin anew. -/
def execPortLinkRetrain (s : State) : Out :=
  .next { s with portDown := fdel s.portDown s.arg.port, ports := fdel s.ports s.arg.port }

end Sys2Proof.Machine
end

