-- ==== Sys2Proof/Machine/Dispatch.lean ====
section
/-! DEFINITION. What each instruction and each hardware event does: one arm for each constructor. -/
namespace Sys2Proof.Machine

def exec (i : Instr) (s : State) : Host.Outcome State Fault Refusal :=
  match i with
  | .add16 r s1 => Sys2Proof.Machine.execAdd16 r s1 s
  | .sub16 r s1 => Sys2Proof.Machine.execSub16 r s1 s
  | .and16 r s1 => Sys2Proof.Machine.execAnd16 r s1 s
  | .or16 r s1 => Sys2Proof.Machine.execOr16 r s1 s
  | .xor16 r s1 => Sys2Proof.Machine.execXor16 r s1 s
  | .shl16 r s1 => Sys2Proof.Machine.execShl16 r s1 s
  | .shr16 r s1 => Sys2Proof.Machine.execShr16 r s1 s
  | .sra16 r s1 => Sys2Proof.Machine.execSra16 r s1 s
  | .mul16 r s1 => Sys2Proof.Machine.execMul16 r s1 s
  | .min16 r s1 => Sys2Proof.Machine.execMin16 r s1 s
  | .max16 r s1 => Sys2Proof.Machine.execMax16 r s1 s
  | .slt16 r s1 => Sys2Proof.Machine.execSlt16 r s1 s
  | .addSz16 r s1 => Sys2Proof.Machine.execAddSz16 r s1 s
  | .addi16 r imm => Sys2Proof.Machine.execAddi16 r imm s
  | .addiSz16 r imm => Sys2Proof.Machine.execAddiSz16 r imm s
  | .andi16 r imm => Sys2Proof.Machine.execAndi16 r imm s
  | .shli16 r imm => Sys2Proof.Machine.execShli16 r imm s
  | .shri16 r imm => Sys2Proof.Machine.execShri16 r imm s
  | .srai16 r imm => Sys2Proof.Machine.execSrai16 r imm s
  | .slti16 r imm => Sys2Proof.Machine.execSlti16 r imm s
  | .kget16 r k => Sys2Proof.Machine.execKget16 r k s
  | .kset16 r k => Sys2Proof.Machine.execKset16 r k s
  | .clz16 r s1 => Sys2Proof.Machine.execClz16 r s1 s
  | .popc16 r s1 => Sys2Proof.Machine.execPopc16 r s1 s
  | .nop16 => Sys2Proof.Machine.execNop16 s
  | .yield16 => Sys2Proof.Machine.execYield16 s
  | .exit16 => Sys2Proof.Machine.execExit16 s
  | .bkpt16 => Sys2Proof.Machine.execBkpt16 s
  | .uiret16 => Sys2Proof.Machine.execUiret16 s
  | .ret16 => Sys2Proof.Machine.execRet16 s
  | .add d a b => Sys2Proof.Machine.execAdd d a b s
  | .sub d a b => Sys2Proof.Machine.execSub d a b s
  | .and d a b => Sys2Proof.Machine.execAnd d a b s
  | .or d a b => Sys2Proof.Machine.execOr d a b s
  | .xor d a b => Sys2Proof.Machine.execXor d a b s
  | .shl d a b => Sys2Proof.Machine.execShl d a b s
  | .shr d a b => Sys2Proof.Machine.execShr d a b s
  | .sra d a b => Sys2Proof.Machine.execSra d a b s
  | .mul d a b => Sys2Proof.Machine.execMul d a b s
  | .mulh d a b => Sys2Proof.Machine.execMulh d a b s
  | .mulhn d a b => Sys2Proof.Machine.execMulhn d a b s
  | .div d a b => Sys2Proof.Machine.execDiv d a b s
  | .divn d a b => Sys2Proof.Machine.execDivn d a b s
  | .rem d a b => Sys2Proof.Machine.execRem d a b s
  | .remn d a b => Sys2Proof.Machine.execRemn d a b s
  | .min d a b => Sys2Proof.Machine.execMin d a b s
  | .max d a b => Sys2Proof.Machine.execMax d a b s
  | .minn d a b => Sys2Proof.Machine.execMinn d a b s
  | .maxn d a b => Sys2Proof.Machine.execMaxn d a b s
  | .slt d a b => Sys2Proof.Machine.execSlt d a b s
  | .sltn d a b => Sys2Proof.Machine.execSltn d a b s
  | .clz d a => Sys2Proof.Machine.execClz d a s
  | .popc d a => Sys2Proof.Machine.execPopc d a s
  | .brev d a => Sys2Proof.Machine.execBrev d a s
  | .add64 d a b => Sys2Proof.Machine.execAdd64 d a b s
  | .sub64 d a b => Sys2Proof.Machine.execSub64 d a b s
  | .shl64 d a b => Sys2Proof.Machine.execShl64 d a b s
  | .lea d a b scale => Sys2Proof.Machine.execLea d a b scale s
  | .sel d c a b => Sys2Proof.Machine.execSel d c a b s
  | .mad64 d a b c => Sys2Proof.Machine.execMad64 d a b c s
  | .bfx d a pos width => Sys2Proof.Machine.execBfx d a pos width s
  | .bfi d a pos width => Sys2Proof.Machine.execBfi d a pos width s
  | .cmp c d a b => Sys2Proof.Machine.execCmp c d a b s
  | .pand d a b => Sys2Proof.Machine.execPand d a b s
  | .por d a b => Sys2Proof.Machine.execPor d a b s
  | .pnot d a => Sys2Proof.Machine.execPnot d a s
  | .addi d a imm => Sys2Proof.Machine.execAddi d a imm s
  | .andi d a imm => Sys2Proof.Machine.execAndi d a imm s
  | .ori d a imm => Sys2Proof.Machine.execOri d a imm s
  | .xori d a imm => Sys2Proof.Machine.execXori d a imm s
  | .slti d a imm => Sys2Proof.Machine.execSlti d a imm s
  | .shli d a n => Sys2Proof.Machine.execShli d a n s
  | .shri d a n => Sys2Proof.Machine.execShri d a n s
  | .srai d a n => Sys2Proof.Machine.execSrai d a n s
  | .addi64 d a imm => Sys2Proof.Machine.execAddi64 d a imm s
  | .lui d imm => Sys2Proof.Machine.execLui d imm s
  | .br c a off => Sys2Proof.Machine.execBr c a off s
  | .brp f a off => Sys2Proof.Machine.execBrp f a off s
  | .brm c a off => Sys2Proof.Machine.execBrm c a off s
  | .vbr f u a off => Sys2Proof.Machine.execVbr f u a off s
  | .jmp off => Sys2Proof.Machine.execJmp off s
  | .call off => Sys2Proof.Machine.execCall off s
  | .kget d k => Sys2Proof.Machine.execKget d k s
  | .kset k a => Sys2Proof.Machine.execKset k a s
  | .ctlr d n => Sys2Proof.Machine.execCtlr d n s
  | .ctlw n a => Sys2Proof.Machine.execCtlw n a s
  | .ctls n a => Sys2Proof.Machine.execCtls n a s
  | .ctlc n a => Sys2Proof.Machine.execCtlc n a s
  | .trap code => Sys2Proof.Machine.execTrap code s
  | .svc fn => Sys2Proof.Machine.execSvc fn s
  | .qgive d j => Sys2Proof.Machine.execQgive d j s
  | .qtake d j => Sys2Proof.Machine.execQtake d j s
  | .gjoin d n => Sys2Proof.Machine.execGjoin d n s
  | .gleave d => Sys2Proof.Machine.execGleave d s
  | .nop => Sys2Proof.Machine.execNop s
  | .yield => Sys2Proof.Machine.execYield s
  | .exit => Sys2Proof.Machine.execExit s
  | .bkpt => Sys2Proof.Machine.execBkpt s
  | .uiret => Sys2Proof.Machine.execUiret s
  | .ret => Sys2Proof.Machine.execRet s
  | .jr a => Sys2Proof.Machine.execJr a s
  | .vreconv => Sys2Proof.Machine.execVreconv s
  | .resume => Sys2Proof.Machine.execResume s
  | .li d imm => Sys2Proof.Machine.execLi d imm s
  | .vadd t rm k d a b => Sys2Proof.Machine.execVadd t rm k d a b s
  | .vsub t rm k d a b => Sys2Proof.Machine.execVsub t rm k d a b s
  | .vmul t rm k d a b => Sys2Proof.Machine.execVmul t rm k d a b s
  | .vmin t k d a b => Sys2Proof.Machine.execVmin t k d a b s
  | .vfma t rm k d a b c => Sys2Proof.Machine.execVfma t rm k d a b c s
  | .vmax t k d a b => Sys2Proof.Machine.execVmax t k d a b s
  | .vabs t k d a => Sys2Proof.Machine.execVabs t k d a s
  | .vneg t k d a => Sys2Proof.Machine.execVneg t k d a s
  | .vrcp rm k d a => Sys2Proof.Machine.execVrcp rm k d a s
  | .vrsq rm k d a => Sys2Proof.Machine.execVrsq rm k d a s
  | .vsqrt rm k d a => Sys2Proof.Machine.execVsqrt rm k d a s
  | .vexp2 rm k d a => Sys2Proof.Machine.execVexp2 rm k d a s
  | .vlog2 rm k d a => Sys2Proof.Machine.execVlog2 rm k d a s
  | .viadd sat t k d a b => Sys2Proof.Machine.execViadd sat t k d a b s
  | .visub sat t k d a b => Sys2Proof.Machine.execVisub sat t k d a b s
  | .vimul hi t k d a b => Sys2Proof.Machine.execVimul hi t k d a b s
  | .vimad t k d a b c => Sys2Proof.Machine.execVimad t k d a b c s
  | .vimin t k d a b => Sys2Proof.Machine.execVimin t k d a b s
  | .vimax t k d a b => Sys2Proof.Machine.execVimax t k d a b s
  | .vand k d a b => Sys2Proof.Machine.execVand k d a b s
  | .vor k d a b => Sys2Proof.Machine.execVor k d a b s
  | .vxor k d a b => Sys2Proof.Machine.execVxor k d a b s
  | .vnot k d a => Sys2Proof.Machine.execVnot k d a s
  | .vshl k d a n => Sys2Proof.Machine.execVshl k d a n s
  | .vshr k d a n => Sys2Proof.Machine.execVshr k d a n s
  | .vsra k d a n => Sys2Proof.Machine.execVsra k d a n s
  | .vcmp c t k d a b => Sys2Proof.Machine.execVcmp c t k d a b s
  | .vfcmp c k d a b => Sys2Proof.Machine.execVfcmp c k d a b s
  | .vsel k d a b c => Sys2Proof.Machine.execVsel k d a b c s
  | .vmov k d a => Sys2Proof.Machine.execVmov k d a s
  | .vbcast k d a => Sys2Proof.Machine.execVbcast k d a s
  | .vred op t k d a => Sys2Proof.Machine.execVred op t k d a s
  | .vshuf m k d a => Sys2Proof.Machine.execVshuf m k d a s
  | .vscan op excl t k d a => Sys2Proof.Machine.execVscan op excl t k d a s
  | .vballot k d a => Sys2Proof.Machine.execVballot k d a s
  | .vlane f => Sys2Proof.Machine.execVlane f s
  | .vcvt dt st rm k d a => Sys2Proof.Machine.execVcvt dt st rm k d a s
  | .vpack dt st rm k d a => Sys2Proof.Machine.execVpack dt st rm k d a s
  | .vunpack dt st k d a => Sys2Proof.Machine.execVunpack dt st k d a s
  | .vdot t blk se5m2 ts k d a b c => Sys2Proof.Machine.execVdot t blk se5m2 ts k d a b c s
  | .vunif d a => Sys2Proof.Machine.execVunif d a s
  | .vmorton two t k d a b c => Sys2Proof.Machine.execVmorton two t k d a b c s
  | .vhash n k d a b => Sys2Proof.Machine.execVhash n k d a b s
  | .mand d a b => Sys2Proof.Machine.execMand d a b s
  | .mor d a b => Sys2Proof.Machine.execMor d a b s
  | .mxor d a b => Sys2Proof.Machine.execMxor d a b s
  | .mnot d a => Sys2Proof.Machine.execMnot d a s
  | .mpop d a => Sys2Proof.Machine.execMpop d a s
  | .mfirst d a => Sys2Proof.Machine.execMfirst d a s
  | .ld t w64 o d a off => Sys2Proof.Machine.execLd t w64 o d a off s
  | .st t w64 o d a off => Sys2Proof.Machine.execSt t w64 o d a off s
  | .vld t w64 o k d a off => Sys2Proof.Machine.execVld t w64 o k d a off s
  | .vst t w64 o k d a off => Sys2Proof.Machine.execVst t w64 o k d a off s
  | .vgather nf t w64 scale o k d a b => Sys2Proof.Machine.execVgather nf t w64 scale o k d a b s
  | .vscatter t w64 scale o k d a b => Sys2Proof.Machine.execVscatter t w64 scale o k d a b s
  | .sld t w64 o m d a => Sys2Proof.Machine.execSld t w64 o m d a s
  | .sst t w64 o m d a => Sys2Proof.Machine.execSst t w64 o m d a s
  | .sldM t w64 m d a => Sys2Proof.Machine.execSldM t w64 m d a s
  | .sstM t w64 m d a => Sys2Proof.Machine.execSstM t w64 m d a s
  | .syncld take t m d a => Sys2Proof.Machine.execSyncld take t m d a s
  | .syncst t m d a => Sys2Proof.Machine.execSyncst t m d a s
  | .feset full m a => Sys2Proof.Machine.execFeset full m a s
  | .atom op nr t w64 o d a b c => Sys2Proof.Machine.execAtom op nr t w64 o d a b c s
  | .red op t w64 o a b => Sys2Proof.Machine.execRed op t w64 o a b s
  | .vatom op nr t scale o k d a b c => Sys2Proof.Machine.execVatom op nr t scale o k d a b c s
  | .vredm op t scale o k a b c => Sys2Proof.Machine.execVredm op t scale o k a b c s
  | .fence kind scope => Sys2Proof.Machine.execFence kind scope s
  | .bar n a => Sys2Proof.Machine.execBar n a s
  | .bara n a => Sys2Proof.Machine.execBara n a s
  | .barw n => Sys2Proof.Machine.execBarw n s
  | .mbar => Sys2Proof.Machine.execMbar s
  | .evsig e a => Sys2Proof.Machine.execEvsig e a s
  | .evmsg e a b => Sys2Proof.Machine.execEvmsg e a b s
  | .waitc c a => Sys2Proof.Machine.execWaitc c a s
  | .mbw n a => Sys2Proof.Machine.execMbw n a s
  | .mbstat d => Sys2Proof.Machine.execMbstat d s
  | .qpush d a b => Sys2Proof.Machine.execQpush d a b s
  | .qpop d a b => Sys2Proof.Machine.execQpop d a b s
  | .qstat d b => Sys2Proof.Machine.execQstat d b s
  | .cinv a off => Sys2Proof.Machine.execCinv a off s
  | .cflush a off => Sys2Proof.Machine.execCflush a off s
  | .pref a off => Sys2Proof.Machine.execPref a off s
  | .macq d => Sys2Proof.Machine.execMacq d s
  | .mrel d => Sys2Proof.Machine.execMrel d s
  | .accalloc d n => Sys2Proof.Machine.execAccalloc d n s
  | .accfree a => Sys2Proof.Machine.execAccfree a s
  | .acczero d => Sys2Proof.Machine.execAcczero d s
  | .tmld d a off => Sys2Proof.Machine.execTmld d a off s
  | .stset d a b c => Sys2Proof.Machine.execStset d a b c s
  | .stadv d a => Sys2Proof.Machine.execStadv d a s
  | .rep a len => Sys2Proof.Machine.execRep a len s
  | .mlds blk se5m2 bm d a b c => Sys2Proof.Machine.execMlds blk se5m2 bm d a b c s
  | .mflip => Sys2Proof.Machine.execMflip s
  | .mstream t d a row0 c n => Sys2Proof.Machine.execMstream t d a row0 c n s
  | .mstreamSp t d a row0 c n => Sys2Proof.Machine.execMstreamSp t d a row0 c n s
  | .mdrain ts z d a b c => Sys2Proof.Machine.execMdrain ts z d a b c s
  | .mdrainAdd ts z d a b c => Sys2Proof.Machine.execMdrainAdd ts z d a b c s
  | .mstep d => Sys2Proof.Machine.execMstep d s
  | .send seg cls d a b c => Sys2Proof.Machine.execSend seg cls d a b c s
  | .migrate seg b => Sys2Proof.Machine.execMigrate seg b s
  | .seglook d a b => Sys2Proof.Machine.execSeglook d a b s
  | .hitpush a => Sys2Proof.Machine.execHitpush a s
  | .hitpop d a => Sys2Proof.Machine.execHitpop d a s
  | .boxt d a b c => Sys2Proof.Machine.execBoxt d a b c s
  | .trit two d a b => Sys2Proof.Machine.execTrit two d a b s
  | .svreq q a => Sys2Proof.Machine.execSvreq q a s
  | .svpop q d => Sys2Proof.Machine.execSvpop q d s
  | .launch d a b => Sys2Proof.Machine.execLaunch d a b s
  | .mstone => Sys2Proof.Machine.execMstone s
  | .tabort a => Sys2Proof.Machine.execTabort a s
  | .tstat d => Sys2Proof.Machine.execTstat d s
  | .prept a l8 => Sys2Proof.Machine.execPrept a l8 s
  | .packageColdReset => Sys2Proof.Machine.execPackageColdReset s
  | .functionLevelReset => Sys2Proof.Machine.execFunctionLevelReset s
  | .diePerst => Sys2Proof.Machine.execDiePerst s
  | .firmwareVerify => Sys2Proof.Machine.execFirmwareVerify s
  | .recoveryImage => Sys2Proof.Machine.execRecoveryImage s
  | .bringupPass => Sys2Proof.Machine.execBringupPass s
  | .secondPass => Sys2Proof.Machine.execSecondPass s
  | .dieResetEnd => Sys2Proof.Machine.execDieResetEnd s
  | .tileQuarantine => Sys2Proof.Machine.execTileQuarantine s
  | .predictiveQuarantine => Sys2Proof.Machine.execPredictiveQuarantine s
  | .throttleStep => Sys2Proof.Machine.execThrottleStep s
  | .thermalStop => Sys2Proof.Machine.execThermalStop s
  | .thermalPowerOff => Sys2Proof.Machine.execThermalPowerOff s
  | .thermalResume => Sys2Proof.Machine.execThermalResume s
  | .supervisorTimeout => Sys2Proof.Machine.execSupervisorTimeout s
  | .getVersion => Sys2Proof.Machine.execGetVersion s
  | .getCapabilities => Sys2Proof.Machine.execGetCapabilities s
  | .negotiateAlgorithms => Sys2Proof.Machine.execNegotiateAlgorithms s
  | .getDigests => Sys2Proof.Machine.execGetDigests s
  | .getCertificate => Sys2Proof.Machine.execGetCertificate s
  | .challenge => Sys2Proof.Machine.execChallenge s
  | .getMeasurements => Sys2Proof.Machine.execGetMeasurements s
  | .keyExchange => Sys2Proof.Machine.execKeyExchange s
  | .finish => Sys2Proof.Machine.execFinish s
  | .unsupportedRequest => Sys2Proof.Machine.execUnsupportedRequest s
  | .tdispErrorEvent => Sys2Proof.Machine.execTdispErrorEvent s
  | .tdispRequest => Sys2Proof.Machine.execTdispRequest s
  | .registerWrite => Sys2Proof.Machine.execRegisterWrite s
  | .readClear => Sys2Proof.Machine.execReadClear s
  | .writeOneClear => Sys2Proof.Machine.execWriteOneClear s
  | .zonecfgWrite => Sys2Proof.Machine.execZonecfgWrite s
  | .powercapWrite => Sys2Proof.Machine.execPowercapWrite s
  | .laybyEntryWrite => Sys2Proof.Machine.execLaybyEntryWrite s
  | .load => Sys2Proof.Machine.execLoad s
  | .disable => Sys2Proof.Machine.execDisable s
  | .abort => Sys2Proof.Machine.execAbort s
  | .queueDisabled => Sys2Proof.Machine.execQueueDisabled s
  | .retry => Sys2Proof.Machine.execRetry s
  | .fail => Sys2Proof.Machine.execFail s
  | .tlbinv => Sys2Proof.Machine.execTlbinv s
  | .tlbinvDone => Sys2Proof.Machine.execTlbinvDone s
  | .clearBootstep => Sys2Proof.Machine.execClearBootstep s
  | .doorbellWrite => Sys2Proof.Machine.execDoorbellWrite s
  | .fqreadWrite => Sys2Proof.Machine.execFqreadWrite s
  | .queueEntryWriteback => Sys2Proof.Machine.execQueueEntryWriteback s
  | .bar2Write => Sys2Proof.Machine.execBar2Write s
  | .bar2Read => Sys2Proof.Machine.execBar2Read s
  | .flitForward => Sys2Proof.Machine.execFlitForward s
  | .creditReturn => Sys2Proof.Machine.execCreditReturn s
  | .flitDamaged => Sys2Proof.Machine.execFlitDamaged s
  | .unattributedDrop => Sys2Proof.Machine.execUnattributedDrop s
  | .forwardDiscard => Sys2Proof.Machine.execForwardDiscard s
  | .bridgeModuleFail => Sys2Proof.Machine.execBridgeModuleFail s
  | .portFrame => Sys2Proof.Machine.execPortFrame s
  | .portLinkDown => Sys2Proof.Machine.execPortLinkDown s
  | .portLinkRetrain => Sys2Proof.Machine.execPortLinkRetrain s
  | .responseTimeout => Sys2Proof.Machine.execResponseTimeout s
  | .threadPacketArrival => Sys2Proof.Machine.execThreadPacketArrival s
  | .inboxRefill => Sys2Proof.Machine.execInboxRefill s
  | .slotClaim => Sys2Proof.Machine.execSlotClaim s
  | .extentClaim => Sys2Proof.Machine.execExtentClaim s
  | .extentReturn => Sys2Proof.Machine.execExtentReturn s
  | .classTableRead => Sys2Proof.Machine.execClassTableRead s
  | .transientRequest => Sys2Proof.Machine.execTransientRequest s
  | .forwardedRequest => Sys2Proof.Machine.execForwardedRequest s
  | .tokenArrival => Sys2Proof.Machine.execTokenArrival s
  | .transientRetry => Sys2Proof.Machine.execTransientRetry s
  | .persistentEscalate => Sys2Proof.Machine.execPersistentEscalate s
  | .persistentRequest => Sys2Proof.Machine.execPersistentRequest s
  | .activation => Sys2Proof.Machine.execActivation s
  | .deactivation => Sys2Proof.Machine.execDeactivation s
  | .activationTimeout => Sys2Proof.Machine.execActivationTimeout s
  | .recreation => Sys2Proof.Machine.execRecreation s
  | .evacuationTimeout => Sys2Proof.Machine.execEvacuationTimeout s
  | .sliceEviction => Sys2Proof.Machine.execSliceEviction s
  | .tokenReturn => Sys2Proof.Machine.execTokenReturn s
  | .l1Recall => Sys2Proof.Machine.execL1Recall s
  | .l1Invalidate => Sys2Proof.Machine.execL1Invalidate s
  | .l1ShareRequest => Sys2Proof.Machine.execL1ShareRequest s
  | .l1Eviction => Sys2Proof.Machine.execL1Eviction s
  | .sliceRequest => Sys2Proof.Machine.execSliceRequest s
  | .memoryRead => Sys2Proof.Machine.execMemoryRead s
  | .memoryWrite => Sys2Proof.Machine.execMemoryWrite s
  | .farAtomic => Sys2Proof.Machine.execFarAtomic s
  | .reductionMessage => Sys2Proof.Machine.execReductionMessage s
  | .l1TlbMiss => Sys2Proof.Machine.execL1TlbMiss s
  | .l2TlbLookup => Sys2Proof.Machine.execL2TlbLookup s
  | .pageWalk => Sys2Proof.Machine.execPageWalk s
  | .delegatedFault => Sys2Proof.Machine.execDelegatedFault s
  | .serviceRequest => Sys2Proof.Machine.execServiceRequest s
  | .decode => Sys2Proof.Machine.execDecode s
  | .emitPicture => Sys2Proof.Machine.execEmitPicture s
  | .clearContext => Sys2Proof.Machine.execClearContext s
  | .resize => Sys2Proof.Machine.execResize s
  | .textureSample => Sys2Proof.Machine.execTextureSample s
  | .rasterise => Sys2Proof.Machine.execRasterise s
  | .rasterOverflow => Sys2Proof.Machine.execRasterOverflow s
  | .serviceReply => Sys2Proof.Machine.execServiceReply s
  | .serviceTimeout => Sys2Proof.Machine.execServiceTimeout s
  | .admissionDecision => Sys2Proof.Machine.execAdmissionDecision s
  | .launchMessage => Sys2Proof.Machine.execLaunchMessage s
  | .tileClaim => Sys2Proof.Machine.execTileClaim s
  | .launchStart => Sys2Proof.Machine.execLaunchStart s
  | .placementHold => Sys2Proof.Machine.execPlacementHold s
  | .tier1WindowClose => Sys2Proof.Machine.execTier1WindowClose s
  | .preemptgrace => Sys2Proof.Machine.execPreemptgrace s
  | .switchOut => Sys2Proof.Machine.execSwitchOut s
  | .restore => Sys2Proof.Machine.execRestore s
  | .compactorMove => Sys2Proof.Machine.execCompactorMove s
  | .waveUrgent => Sys2Proof.Machine.execWaveUrgent s
  | .commitRequest => Sys2Proof.Machine.execCommitRequest s
  | .commitGrant => Sys2Proof.Machine.execCommitGrant s
  | .commitEnd => Sys2Proof.Machine.execCommitEnd s
  | .sweep => Sys2Proof.Machine.execSweep s
  | .shadowMove => Sys2Proof.Machine.execShadowMove s
  | .readNote => Sys2Proof.Machine.execReadNote s
  | .segdef => Sys2Proof.Machine.execSegdef s
  | .segdrop => Sys2Proof.Machine.execSegdrop s
  | .scrset => Sys2Proof.Machine.execScrset s
  | .nofunc => Sys2Proof.Machine.execNofunc s
  | .scrsetApply => Sys2Proof.Machine.execScrsetApply s
  | .routeCacheMiss => Sys2Proof.Machine.execRouteCacheMiss s
  | .segmentForward => Sys2Proof.Machine.execSegmentForward s
  | .pageIn => Sys2Proof.Machine.execPageIn s
  | .pageInDone => Sys2Proof.Machine.execPageInDone s
  | .pageInRetry => Sys2Proof.Machine.execPageInRetry s
  | .pressureSample => Sys2Proof.Machine.execPressureSample s
  | .pressureInterval => Sys2Proof.Machine.execPressureInterval s
  | .replicaDone => Sys2Proof.Machine.execReplicaDone s
  | .segmentEvict => Sys2Proof.Machine.execSegmentEvict s
  | .ownerBroadcast => Sys2Proof.Machine.execOwnerBroadcast s
  | .dropComplete => Sys2Proof.Machine.execDropComplete s
  | .creditRequest => Sys2Proof.Machine.execCreditRequest s
  | .creditReturnMessage => Sys2Proof.Machine.execCreditReturnMessage s
  | .liveMigration => Sys2Proof.Machine.execLiveMigration s
  | .signpostForward => Sys2Proof.Machine.execSignpostForward s
  | .signpostRetire => Sys2Proof.Machine.execSignpostRetire s
  | .hitReservation => Sys2Proof.Machine.execHitReservation s
  | .hitRecordArrival => Sys2Proof.Machine.execHitRecordArrival s
  | .remoteScratchRequest => Sys2Proof.Machine.execRemoteScratchRequest s
  | .remoteScratchReply => Sys2Proof.Machine.execRemoteScratchReply s
  | .parkPass => Sys2Proof.Machine.execParkPass s
  | .parkRetryResend => Sys2Proof.Machine.execParkRetryResend s
  | .syncTimeout => Sys2Proof.Machine.execSyncTimeout s
  | .localBlockZero => Sys2Proof.Machine.execLocalBlockZero s
  | .copyAdvance => Sys2Proof.Machine.execCopyAdvance s
  | .copyDone => Sys2Proof.Machine.execCopyDone s
  | .copySuspend => Sys2Proof.Machine.execCopySuspend s
  | .copyReplay => Sys2Proof.Machine.execCopyReplay s
  | .userInterrupt => Sys2Proof.Machine.execUserInterrupt s
  | .barrierPhaseComplete => Sys2Proof.Machine.execBarrierPhaseComplete s
  | .meshBarrierRelease => Sys2Proof.Machine.execMeshBarrierRelease s
  | .meshbarTimeout => Sys2Proof.Machine.execMeshbarTimeout s
  | .eventMessage => Sys2Proof.Machine.execEventMessage s
  | .mutexGrant => Sys2Proof.Machine.execMutexGrant s
  | .accwaitTimeout => Sys2Proof.Machine.execAccwaitTimeout s
  | .arrayGrant => Sys2Proof.Machine.execArrayGrant s
  | .lateFault => Sys2Proof.Machine.execLateFault s
  | .trapHandling => Sys2Proof.Machine.execTrapHandling s
  | .loadReply => Sys2Proof.Machine.execLoadReply s
  | .storeAck => Sys2Proof.Machine.execStoreAck s
  | .attachedComplete => Sys2Proof.Machine.execAttachedComplete s
  | .stageQueueTransfer => Sys2Proof.Machine.execStageQueueTransfer s
  | .indexConfirmation => Sys2Proof.Machine.execIndexConfirmation s

end Sys2Proof.Machine
end

