-- ==== Sys2Proof/Machine/Issue.lean ====
section
/-! DEFINITION. Which instructions issue in a tile cycle: the ports of the wave pipeline, the rotation of the path pipeline, the test unit,
throttling, and how time passes (R28, R199 to R204, R387). -/
namespace Sys2Proof.Machine

/-! ### One instruction -/

/-- Whether a scratch form is a .v form (R431). -/
def SMem.isVec : SMem → Bool
  | .disp _ => false
  | .vec _ _ _ => true
/-- Instructions of the vector port (R199): vector, vector-memory and matrix instructions, the .v forms of the scratch instructions (R431),
HITPOP and PREPT (R469). -/
def vectorPort : Instr → Bool
  | .vadd .. | .vsub .. | .vmul .. | .vmin .. | .vfma .. | .vmax .. | .vabs .. | .vneg .. | .vrcp .. | .vrsq .. | .vsqrt .. | .vexp2 ..
  | .vlog2 .. | .viadd .. | .visub .. | .vimul .. | .vimad .. | .vimin .. | .vimax .. | .vand .. | .vor .. | .vxor .. | .vnot ..
  | .vshl .. | .vshr .. | .vsra .. | .vcmp .. | .vfcmp .. | .vsel .. | .vmov .. | .vbcast .. | .vred .. | .vshuf .. | .vscan ..
  | .vballot .. | .vlane .. | .vcvt .. | .vpack .. | .vunpack .. | .vdot .. | .vunif .. | .vmorton .. | .vhash .. => true
  | .mand .. | .mor .. | .mxor .. | .mnot .. | .mpop .. | .mfirst .. => true
  | .vld .. | .vst .. | .vgather .. | .vscatter .. | .vatom .. | .vredm .. => true
  | .sld _ _ _ m _ _ | .sst _ _ _ m _ _ | .sldM _ _ m _ _ | .sstM _ _ m _ _ | .syncld _ _ m _ _ | .syncst _ m _ _ | .feset _ m _ =>
    SMem.isVec m
  | .macq .. | .mrel .. | .accalloc .. | .accfree .. | .acczero .. | .tmld .. | .stset .. | .stadv .. | .rep .. | .mlds .. | .mflip
  | .mstream .. | .mstreamSp .. | .mdrain .. | .mdrainAdd .. | .mstep .. => true
  | .hitpop .. | .prept .. => true
  | _ => false
/-- Requests of the test unit (R204). -/
def testRequest : Instr → Bool
  | .boxt .. | .trit .. => true
  | _ => false
/-- Instructions that may lead back to themselves, and so leave every register as it was though they issue (R383 to R385, R387). -/
def transfers : Instr → Bool
  | .br .. | .brp .. | .brm .. | .vbr .. | .jmp .. | .call .. | .jr .. | .ret | .ret16 => true
  | _ => false
/-- The instruction that a context comes to issue next, where its fetch gives one. -/
def State.nextInstr (s : State) (t c : Nat) : Option Instr :=
  match s.fetch t c with
  | .word w => decodeNat w
  | _ => none
/-- The machine as a context comes to issue: it is no longer urgent, and its port, its slot and the test unit are taken for the cycle (R199
to R202, R204). -/
def State.turn (s : State) (t c : Nat) : State :=
  let i := s.nextInstr t c
  let n := s.tileCycle + 1
  ({ s with cur := (t, c) }.updCtx t c fun k => { k with urgent := false, yielded := false, issuedAt := n, readyT := none }).updIssue t fun p =>
    let p := if i.any testRequest then { p with testAt := n } else p
    if isPath c then { p with pathAt := n }
    else if i.any vectorPort then { p with vectorAt := n, vectorW := c } else { p with scalarAt := n, scalarW := c }
/-- A context issues its next instruction (R199, R202, R340, R341, R352): fetch, decode, and the instruction's meaning. -/
def State.issue (s : State) (t c : Nat) : Host.Outcome State Fault Refusal :=
  let s := s.turn t c
  match s.fetch t c with
  | .odd => .next s.illegal
  | .outside va => .next (s.raise causeAccess 4 0xF va)
  | .miss va => .next (s.askWalk t c va 4)
  | .cold va p l => .next (s.fetchLine t (s.ctx t c).lidx va p l)
  | .fault f => .next (s.memFault f)
  | .word w =>
    match decodeNat w with
    | none => .next s.illegal
    | some i => exec i s
/-- Whether a context's next instruction is ready (R199, R202): its launch runs, and the instruction has its operands and its unit and waits
for nothing, so that its issue does something. -/
def State.isReady (s : State) (t c : Nat) : Bool :=
  (s.ctx t c).status == .ready && (s.launch (s.ctx t c).lidx).run == 1 &&
  match s.issue t c with
  | .next u => (s.nextInstr t c).any transfers || u != s.turn t c
  | _ => true

/-! ### Tiles, throttling and system work -/

/-- Whether a tile's contexts may issue: its die takes work and is not thermally stopped (R22, R29). -/
def State.awake (s : State) (t : Nat) : Bool :=
  !(s.tile t).stopped && s.dieUp (dieOf t) && !(s.die (dieOf t)).stopped
/-- Whether a die suppresses issue in the current tile cycle: the last LEVEL of every 16 (R28; DESIGN CHOICE, log 69). -/
def State.suppressed (s : State) (d : Nat) : Bool := decide (16 - (s.die d).bar0.level ≤ s.tileCycle % 16)
/-- System work is pending on a tile (R202): the system slot runs or has been asked to, or a copy replays (R273). -/
def State.systemWork (s : State) (t : Nat) : Bool :=
  (s.tile t).hand.isSome || (s.tile t).scrset.isSome || (s.tile t).un.susp.any (fun c => c.state == 3) ||
  s.pending.any fun e => e.what == .trapHandling && e.arg.tile == t
/-- The context number of a slot (R246). -/
def slotContext (n : Nat) : Nat := 192 + n
/-- The slots that a rotation beginning now consists of (R202). -/
def State.members (s : State) (t : Nat) : List Nat :=
  ((List.range 30).filter fun n => s.isReady t (slotContext n)) ++ (if s.systemWork t then [30] else []) ++
  if (s.tile t).un.mb.isEmpty then [] else [31]
/-- The slot of the path pipeline's current cycle, while it is unused (R202). -/
def State.slotNow (s : State) (t : Nat) : Option Nat :=
  let p := (s.tile t).issue
  if !s.awake t || s.suppressed (dieOf t) || p.pathAt == s.tileCycle + 1 then none else p.rot[p.rotI]?

/-! ### The choice of each port -/

/-- The wave that was admitted first, the lower number on a tie (R200). -/
def State.oldest (s : State) (t : Nat) (ws : List Nat) : Option Nat :=
  ws.find? fun c => ws.all fun e => decide ((s.ctx t c).age / tileTicks < (s.ctx t e).age / tileTicks) ||
    ((s.ctx t c).age / tileTicks == (s.ctx t e).age / tileTicks && decide (c ≤ e))
/-- Waves with a ready instruction that have not issued in this cycle; YIELD keeps its wave out of the next one (R199, R387). -/
def State.readyWaves (s : State) (t : Nat) : List Nat :=
  ((s.tile t).ctxs.map (·.1)).filter fun c =>
    let k := s.ctx t c
    !isPath c && decide (k.issuedAt ≤ s.tileCycle) && !(k.yielded && k.issuedAt == s.tileCycle) && s.isReady t c
/-- The path thread of the current slot, if it can issue (R202). -/
def State.slotThread (s : State) (t : Nat) : Option Nat :=
  (s.slotNow t).bind fun n => if n < 30 && s.isReady t (slotContext n) then some (slotContext n) else none
/-- Whether a context's next instruction is a request of the test unit. -/
def State.asksTest (s : State) (t c : Nat) : Bool := (s.nextInstr t c).any testRequest
/-- A wave's request has waited 16 tile cycles (R204). -/
def State.testLate (s : State) (t c : Nat) : Bool := (s.ctx t c).readyT.any fun r => r + 16 * tileTicks ≤ s.now
/-- The one context whose request the test unit accepts in this cycle (R204): a path thread wins a tie, unless the oldest wave's request has
waited 16 tile cycles. -/
def State.testWinner (s : State) (t : Nat) : Option Nat :=
  if (s.tile t).issue.testAt == s.tileCycle + 1 then none
  else
    let wave := s.oldest t ((s.readyWaves t).filter (s.asksTest t))
    match (s.slotThread t).filter (s.asksTest t), wave with
    | some p, some w => some (if s.testLate t w then w else p)
    | some p, none => some p
    | none, w => w
/-- The wave that a port chooses (R200); a wave issues on at most one port in a cycle (DESIGN CHOICE, log 69). -/
def State.portChoice (s : State) (t : Nat) (vector : Bool) : Option Nat :=
  let p := (s.tile t).issue
  let (last, who) := if vector then (p.vectorAt, p.vectorW) else (p.scalarAt, p.scalarW)
  if !s.awake t || s.suppressed (dieOf t) || last == s.tileCycle + 1 then none
  else
    let ws := (s.readyWaves t).filter fun c =>
      (s.nextInstr t c).any vectorPort == vector && (!s.asksTest t c || s.testWinner t == some c)
    match s.oldest t (ws.filter fun c => (s.ctx t c).urgent) with
    | some c => some c
    | none => if last == s.tileCycle && ws.contains who then some who else s.oldest t ws
/-- The contexts that may issue now (R199 to R204). -/
def State.issuers (s : State) : List (Nat × Nat) :=
  s.tiles.flatMap fun p =>
    let t := p.1
    let path := (s.slotThread t).filter fun c => !s.asksTest t c || s.testWinner t == some c
    ((s.portChoice t false).toList ++ (s.portChoice t true).toList ++ path.toList).map fun c => (t, c)
/-- Waves that are to become urgent (R201). -/
def State.overdues (s : State) : List (Nat × Nat) :=
  s.tiles.flatMap fun p => (p.2.ctxs.filter fun q => !isPath q.1 && q.2.overdue s.now).map fun q => (p.1, q.1)

/-! ### The slots of the copy unit (R204, R270, R273) -/

/-- The slot whose issue cycle an event is: a copy advances in slot 31 and replays in slot 30, while the tile has one to move. -/
def State.slotOf (s : State) (e : Event) : Option Nat :=
  let x := s.tile e.arg.tile
  if e.arg.ok then none
  else if e.what == .copyAdvance && !x.un.mb.isEmpty then some 31
  else if e.what == .copyReplay && x.un.susp.any (fun c => c.state == 3) then some 30
  else none
/-- A remote scratch request at a tile's port is the one that came first (R430). -/
def State.firstAtPort (s : State) (e : Event) : Bool :=
  (s.timers.find? fun p => p.2.what == .remoteScratchRequest && p.2.arg.tile == e.arg.tile).all fun p => p.2 == e
/-- Whether an event may happen now: one that takes an issue cycle waits for its slot, and a scratch request for the earlier ones. -/
def State.mayRun (s : State) (e : Event) : Bool :=
  match s.slotOf e with
  | some n => s.slotNow e.arg.tile == some n
  | none => e.what != .remoteScratchRequest || s.firstAtPort e
/-- The issue cycle that an event takes. -/
def State.takeSlot (s : State) (e : Event) : State :=
  if (s.slotOf e).isSome then s.updIssue e.arg.tile fun p => { p with pathAt := s.tileCycle + 1 } else s

/-! ### Time -/

/-- Whether a tile has something to issue in a coming cycle. -/
def State.busy (s : State) (t : Nat) : Bool :=
  s.awake t && (!(s.tile t).issue.rot.isEmpty || !(s.members t).isEmpty ||
    ((s.tile t).ctxs.any fun q => !isPath q.1 && s.isReady t q.1))
/-- The rotation n tile cycles on: a suppressed cycle does not count, and one that has run max(8, members) cycles makes way for the next,
whose members are those of that moment (R28, R202; DESIGN CHOICE, log 69). -/
def State.rotated (s : State) (t n : Nat) (held : Bool) : Issue :=
  let p := (s.tile t).issue
  if held then p
  else if p.rotI + n < max 8 p.rot.length then { p with rotI := p.rotI + n }
  else { p with rot := s.members t, rotI := if p.rot.isEmpty then (p.rotI + n) % 8 else 0 }
/-- A tile n tile cycles on: since when its waves have a ready instruction (R201), and its rotation. -/
def State.ticked (s : State) (t n : Nat) (held : Bool) (x : Tile) : Tile :=
  { x with
    issue := s.rotated t n held
    ctxs := x.ctxs.map fun (q : Nat × Ctx) =>
      if isPath q.1 then q else (q.1, { q.2 with readyT := if s.isReady t q.1 then some (q.2.readyT.getD s.now) else none }) }
/-- Time passes when nothing else can happen: to the next timed event, or, while a tile has something to issue, to the next tile cycle if
that comes first; with neither, one mesh cycle. -/
def State.idle (s : State) : State :=
  let due := (s.timers.map (·.1)).filter fun t => s.now < t
  let edge := (s.tileCycle + 1) * tileTicks
  let due := if s.tiles.any fun p => s.busy p.1 then edge :: due else due
  let now := match due with | [] => s.now + meshTicks | t :: ts => ts.foldl min t
  let n := now / tileTicks - s.tileCycle
  let u := { s with now := now }
  if n == 0 then u
  else
    { u with tiles := s.tiles.map fun (p : Nat × Tile) =>
        (p.1, if u.awake p.1 then u.ticked p.1 n (n == 1 && s.suppressed (dieOf p.1)) p.2 else p.2) }

end Sys2Proof.Machine
end

