-- ==== Sys2Proof/Machine/Step.lean ====
section
/-! DEFINITION. One step of the machine: the move that happens next, and the instruction or event it runs. -/
namespace Sys2Proof.Machine

/-- What can happen next when nothing is forced. -/
inductive Move where
  /-- The i-th event that is ready. -/
  | event (i : Nat)
  /-- The i-th timed event, which is due. -/
  | timer (i : Nat)
  /-- A message moves one link (R43, R44). -/
  | msg (id : Nat)
  /-- A wave that has waited to issue for too long becomes urgent (R201). -/
  | urgent (t c : Nat)
  /-- A context issues (R199, R202). -/
  | issue (t c : Nat)
  /-- A posted HOST store reaches system memory (R289). -/
  | posted (i : Nat)
  deriving DecidableEq, Repr

/-- Messages that may move: those that an output grants (R47, R48, R52). -/
def State.movable (s : State) : List Move := (s.msgs.filter s.mayMove).map fun m => .msg m.id
/-- Every move that can happen next; the first is taken unless `sched` says otherwise. -/
def State.moves (s : State) : List Move :=
  ((List.range s.pending.length).filter fun i => (s.pending[i]?).any s.mayRun).map .event ++
    ((List.range s.timers.length).filter fun i => (s.timers[i]?).any fun e => decide (e.1 ≤ s.now) && s.mayRun e.2).map .timer ++
    s.movable ++ s.overdues.map (fun p => .urgent p.1 p.2) ++ s.issuers.map (fun p => .issue p.1 p.2) ++
    ((List.range s.mem.posted.length).filter s.mayLand).map .posted

/-- A hardware event runs with what it concerns. -/
def State.runEvent (s : State) (e : Event) : Host.Outcome State Fault Refusal := exec e.what { s with arg := e.arg }

/-- A forced move. -/
def State.act (s : State) : Actor → Host.Outcome State Fault Refusal
  | .posted i => .next (s.land i)
  | .act e => s.runEvent e
  | .issue t c => s.issue t c
  | .fw t i => exec i { s with cur := (t, sysCtx) }
  | .pass n => .next { s with now := s.now + n }

/-- One of the moves. -/
def State.move (s : State) : Move → Host.Outcome State Fault Refusal
  | .event i =>
    match s.pending[i]? with
    | none => .next s
    | some e => ({ s with pending := s.pending.eraseIdx i }.takeSlot e).runEvent e
  | .timer i =>
    match s.timers[i]? with
    | none => .next s
    | some e => ({ s with timers := s.timers.eraseIdx i }.takeSlot e.2).runEvent e.2
  | .msg id => s.runEvent ⟨.flitForward, { id := id }⟩
  | .urgent t c => s.runEvent ⟨.waveUrgent, { tile := t, ctx := c }⟩
  | .issue t c => s.issue t c
  | .posted i => .next (s.land i)

/-- Whether a forced move may happen without power: only a package cold reset (R29, R38). -/
def Actor.wakes : Actor → Bool
  | .act e => e.what == .packageColdReset
  | _ => false

/-- One step: the forced move at the head of the agenda, or else the move that `sched` picks among those that can happen, or
else time passes.  Without power nothing happens but a package cold reset (R29). -/
def step (s : State) : Host.Outcome State Fault Refusal :=
  match s.agenda with
  | a :: rest => if !s.power && !a.wakes then .fault .powerOff else { s with agenda := rest }.act a
  | [] =>
    if !s.power then .fault .powerOff
    else
      let ms := s.moves
      let i := s.sched.headD 0 % ms.length
      match ms[i]? with
      | none => .next s.idle
      | some m => { s with sched := s.sched.tail }.move m

/-- The address at which `withFetchWord` places its instruction, and the leaf of its page: GLOBAL, pinned to stack 0, frame
0. -/
def bootVa : Nat := 0x1000
/-- The leaf that maps it. -/
def bootLeaf : Leaf :=
  { cls := 0, home := 2, hsel := 0, frame := 0, x := true, w := true, r := true, size := 4096 }
/-- The context that runs it: wave 0 of launch 0, at its first instruction (R246). -/
def bootCtx : Ctx := { Ctx.init with status := .ready, regs := { Regs.init with pc := BitVec.ofNat 48 bootVa } }
/-- s with one instruction placed where the next step fetches: die 0 in service, a launch with TXN = 0 running on tile 0, its
wave 0 ready with the instruction at its PC, the page in the tile's L1 TLB, and its line in the instruction cache.  This stands for what
bring-up, a queue and an admission do (log 5). -/
def State.withFetchWord (s : State) (_nbits w : Nat) : State :=
  let s := s.setDie 0 { s.die 0 with inService := true, leftOut := false, resetting := false, stopped := false, chans := [], unlisted := false }
  let s := { s with launches := fset s.launches 0 { Launch.init with run := 1 } }
  let ds : FMap Die := s.dies.map fun p => (p.1, { p.2 with chans := [], leftOut := false, unlisted := false })
  let s := { s with power := true, agenda := [.issue 0 0], dies := ds, ops := s.ops.filter fun (p : Nat × Op) => p.2.kind != OpKind.fetch }
  let k := match s.locOf bootLeaf 0 bootVa with | some (.dev k _) => k | _ => 0
  let t := s.tile 0
  let t := { t.setCtx 0 bootCtx with stopped := false }
  let t := { t with un := { t.un with tlb := fset t.un.tlb (tlbKey (s.queue 0).asid bootVa 4096) bootLeaf, xfault := [], ic := [k / 64] } }
  (s.setTile 0 t).updMem fun m => { m with hbm := m.hbm.writeN k 8 (w % 2 ^ 64), home := fdel m.home (k / 64) }

end Sys2Proof.Machine
end

