-- ==== Sys2Proof/Safety.lean ====
section
/-! DEFINITION. The notions in which the statements are made: when an instruction of a thread runs to its effect, what the completion of
one leaves, what taking a trap leaves, and what an instruction may not change. -/
namespace Sys2Proof.Machine

/-! ### Running to the effect -/

/-- A scalar instruction runs to its effect (R305, R347 to R349): its class and the scalars it names are allowed in the issuing context,
none of them waits for an earlier operation, and none that it uses holds poison. -/
def State.fits (s : State) (c : Class) (named : List Nat) (uses : List (List Nat)) : Prop :=
  c.allows s.cur.2 = true ∧ scalarsOk s.cur.2 named = true ∧ s.me.busySAny named = false ∧ ∀ u ∈ uses, s.me.psnAny u = false
/-- An attached instruction dispatches (R298, R347 to R349, R401): a wave issues it, its registers exist and are free, its SEQRING entry is
free, and no poison is used. -/
def State.attaches (s : State) (n : Named) (uses : Nat) : Prop :=
  isPath s.cur.2 = false ∧ s.namesOk n = true ∧ s.me.busyAny n = false ∧ s.me.ringBusy = false ∧ uses = 0
/-- The issuing context has changed and its instruction of len bytes is complete; nothing else has changed. -/
def State.done (s : State) (len : Nat) (f : Ctx → Ctx) : State := s.setMe ((f s.me).retire len)
/-- An instruction of len bytes completes, and all it does is to change its context by f and go on. -/
def State.gives (s : State) (i : Instr) (len : Nat) (f : Ctx → Ctx) : Prop := exec i s = .next (s.done len f)
/-- An instruction of len bytes completes with one scalar written, poison 0. -/
def State.writes (s : State) (i : Instr) (len d : Nat) (v : Word) : Prop := s.gives i len fun k => k.wr d v
/-- An instruction of len bytes completes with one pair written, poison 0 in both halves. -/
def State.writesx (s : State) (i : Instr) (len d : Nat) (v : Dword) : Prop := s.gives i len fun k => k.wrx d v
/-- An instruction completes, and all it does is to change its context by f and go to an address. -/
def State.goesTo (s : State) (i : Instr) (pc : BitVec 48) (f : Ctx → Ctx) : Prop := exec i s = .next (s.setMe ((f s.me).jump pc))
/-- The address a signed number of halfwords from the PC (R343). -/
def State.pcPlus (s : State) {n : Nat} (off : BitVec n) : BitVec 48 := s.me.regs.pc + BitVec.ofInt 48 (2 * off.toInt)
/-- An attached instruction of UNIT 0 has been dispatched with its results in its entry (R298, R300): its registers are marked, the next
sequence number is taken, and its completion is to follow. -/
def State.dispatched (s : State) (e : Eff) : State :=
  let k := (s.me.markWrites (attKey s.me.dseq) e.ws).putEntry 0 (.regs e.ws e.flags) 0
  let k := match e.rng with
    | some w => { k with ctl := { k.ctl with rngseed := w } }
    | none => k
  (s.setMe (k.retire 8)).pend .attachedComplete { tile := s.cur.1, ctx := s.cur.2, seq := s.me.dseq }

/-- A lane-wise instruction of the vector port dispatches (R401): the registers it names exist and are free, and no active lane of its
sources holds poison. -/
def State.laneFits (s : State) (o : MaskOp) (d : Nat) (srcs : List Nat) : Prop :=
  s.attaches { v := d :: srcs, m := [o.k] } (s.me.vecUses srcs (s.me.active o))
/-- Each flag is set exactly when some active lane sets it (R337, R402). -/
def flagsOf (act : Word) (fl : Flags) (g : Nat → Flags) : Prop :=
  ∀ b, b < 6 → (fl.getLsbD b = true ↔ ∃ l, l < 32 ∧ act.getLsbD l = true ∧ (g l).getLsbD b = true)
/-- A vector register y holds the value and poison that g gives in each active lane, and what x holds in the others (R400). -/
def VReg.onLanes (y x : VReg) (act : Word) (g : Nat → Word × Bool) : Prop :=
  ∀ l, l < 32 → (act.getLsbD l = true → (y.lane l, y.bad l) = g l) ∧
    (act.getLsbD l = false → y.lane l = x.lane l ∧ y.bad l = x.bad l)
/-- A lane-wise instruction dispatches (R300, R400, R402) with one result, the vector register d: in each active lane the value and poison
that g gives, every other lane as it was, and the flags that the active lanes set; the generator moves to rng, if that is given. -/
def State.lanes (s : State) (i : Instr) (o : MaskOp) (d : Nat) (g : Nat → Word × Bool × Flags) (rng : Option Word := none) : Prop :=
  ∃ (y : VReg) (fl : Flags), exec i s = .next (s.dispatched { ws := [.v d y], flags := fl, rng := rng }) ∧
    y.onLanes (s.me.vreg d) (s.me.active o) (fun l => ((g l).1, (g l).2.1)) ∧ flagsOf (s.me.active o) fl fun l => (g l).2.2
/-- A lane-wise instruction whose results carry no poison and set no flag. -/
def State.lanesW (s : State) (i : Instr) (o : MaskOp) (d : Nat) (g : Nat → Word) : Prop :=
  s.lanes i o d fun l => (g l, false, noFlags)
/-- A lane-wise instruction of packed elements of type t (R319, R403, R405): g gives element j of a lane from the elements j of the
sources. -/
def State.lanesE (s : State) (i : Instr) (t : Ty) (o : MaskOp) (d : Nat) (g : Nat → Nat → Nat × Flags) : Prop :=
  s.lanes i o d fun l => ((elemwise t.width (g l)).1, false, (elemwise t.width (g l)).2)
/-- Element j of a lane of a vector register (R319). -/
def Ctx.el (k : Ctx) (t : Ty) (r l j : Nat) : Nat := elem t.width j ((k.vreg r).lane l)
/-- The active lanes of a vector register from lane lo up to hi, in lane order. -/
def Ctx.activeVals (k : Ctx) (o : MaskOp) (r hi : Nat) : List Word :=
  ((List.range hi).filter (k.active o).getLsbD).map (k.vreg r).lane

/-! ### Accesses -/

/-- A scalar access of n bytes at va goes ahead with the one lane e: it is aligned, a global access takes the address, it is translated,
and neither an acquire, a release, an earlier access of the line nor its counter holds it (R70, R83, R263, R280, R423). -/
def State.goesAhead (s : State) (o : Op) (acc n va : Nat) (e : Elem) : Prop :=
  va % n = 0 ∧ globalVa va = true ∧ s.acqHeld = false ∧ s.myTile.un.stalled = false ∧
  (∃ lf p, s.tileTranslate s.cur.1 s.cur.2 s.me.regs.pc.toNat va acc o.form = .ok lf p ∧ e.loc = some p ∧ e.cls = lf.cls ∧
    e.page = lf.size) ∧ e.lane = 0 ∧ e.va = va ∧ e.n = n ∧ e.done = false ∧ e.back = false ∧ e.res = 0 ∧ e.rpois = 0 ∧ s.held o.ord [e] = false ∧ s.ctrFull o.kind = false
/-- An instruction of 8 bytes completes by issuing an operation, which goes to its place. -/
def State.issuesOne (s : State) (i : Instr) (o : Op) : Prop :=
  exec i s = .next ((s.issueOp o 8).2.launchOp (s.issueOp o 8).1)
/-- A vector memory instruction may dispatch: as an attached one, no acquire of its wave is outstanding, and the tile's translation port is
not held by a missing access (R83). -/
def State.attachesMem (s : State) (n : Named) (uses : Nat) : Prop := s.attaches n uses ∧ s.acqHeld = false ∧ s.myTile.un.stalled = false
/-- The elements of the active lanes, in lane order, by address and by data, poison and compare value. -/
def State.elems (_ : State) (act : Word) (va : Nat → Nat) (n : Nat) (g : Nat → Dword × BitVec 2 × Dword) : List Elem :=
  (lanesOf act).map fun l => { mkElem l (va l) n none (g l).1 (g l).2.1 with cmp := (g l).2.2 }
/-- Every active lane of a vector access is aligned and has an address that a global access takes, and nothing holds it. -/
def State.lanesGo (s : State) (o : Op) (act : Word) (va : Nat → Nat) (n : Nat) : Prop :=
  (∀ l ∈ lanesOf act, va l % n = 0 ∧ globalVa (va l) = true) ∧ s.held o.ord o.elems = false ∧ s.ctrFull o.kind = false
/-- A vector memory instruction dispatches an operation, whose lanes are then translated. -/
def State.dispatchesMem (s : State) (i : Instr) (o : Op) : Prop :=
  exec i s = .next ((s.dispatchMem o 1 true).2.translateOp (s.dispatchMem o 1 true).1)

/-- A scalar access of a kind, n bytes at va, may issue: it is aligned, a global access takes the address, which is translated, the counter
has room, and nothing earlier holds it (R70, R83, R263, R280, R423, R427). -/
def State.mayIssue (s : State) (k : OpKind) (ord : MemOrd) (form : Bool) (n va : Nat) : Prop :=
  va % n = 0 ∧ globalVa va = true ∧ s.acqHeld = false ∧ s.myTile.un.stalled = false ∧ s.ctrFull k = false ∧
  ∃ lf p, s.tileTranslate s.cur.1 s.cur.2 s.me.regs.pc.toNat va k.acc form = .ok lf p ∧
    s.held ord [mkElem 0 va n (some p) 0#64 0#2] = false
/-- A vector access may issue: every active lane is aligned at an address that a global access takes, and nothing earlier holds one. -/
def State.mayIssueLanes (s : State) (k : OpKind) (ord : MemOrd) (act : Word) (n : Nat) (va : Nat → Nat) : Prop :=
  (∀ l ∈ lanesOf act, va l % n = 0 ∧ globalVa (va l) = true) ∧ s.ctrFull k = false ∧
  s.held ord ((lanesOf act).map fun l => mkElem l (va l) n none 0#64 0#2) = false
/-- An access of 8 bytes of code has completed as an instruction (R262, R426): control has gone on, its counter is one higher, and its
operation, of which P holds, is in flight. -/
def State.hasIssued (s t : State) (k : OpKind) (dest : Nat) (P : Op → Prop) : Prop :=
  t.cur = s.cur ∧ t.me.regs = (s.me.retire 8).regs ∧ (∀ c, k.ctr = some c → t.me.flight = s.me.flight ++ [⟨c, s.nextId, false⟩]) ∧
  ∃ o, t.op? s.nextId = some o ∧ o.kind = k ∧ o.dest = dest ∧ P o

/-- An instruction that reads a block has it: its words, none of them poisoned (R469). -/
def State.hasBlock (s : State) (a n align cls : Nat) (ws : List Word) : Prop :=
  s.block (s.me.rawx a).toNat n align cls = .ok (ws.map fun w => (w, false), s)

/-- The OTILE of the issuing context is the tile where it runs (R217). -/
def State.homeHere (s : State) : Bool :=
  !isPath s.cur.2 || (s.me.hdr.otile == s.cur.1 && s.me.hdr.opkg == s.pkgOf (dieOf s.cur.1))
/-- A waiting context of a tile has its answer (R217, R238, R473), if it still waits for that request (R61): the number names the context,
the PC of its instruction and the request, or the context alone. -/
def State.hears (s t : State) (tile c : Nat) (ws : List Word) : Prop :=
  let k := s.ctx tile (c % 256)
  let pc := if 256 ≤ c then c / 256 % 2 ^ 48 else k.regs.pc.toNat
  (c < 2 ^ 56 ∨ fget k.waitOn pc 0 = c / 2 ^ 56 → fget? (t.ctx tile (c % 256)).answer pc = some ws) ∧
  (2 ^ 56 ≤ c → fget k.waitOn pc 0 ≠ c / 2 ^ 56 → (t.ctx tile (c % 256)).answer = k.answer)
/-- A message on its way: from a source to a destination, on a channel, with what happens when it arrives (R43). -/
def State.mails (t : State) (src dst : Place) (vc : Nat) (i : Instr) (a : Arg) : Prop :=
  ∃ m ∈ t.msgs, m.src = src ∧ m.dst = dst ∧ m.vc = vc ∧ m.payload = ⟨i, a⟩
/-- An event that is to happen (R9). -/
def State.awaits (t : State) (i : Instr) (a : Arg) : Prop := (⟨i, a⟩ : Event) ∈ t.pending
/-- An event that is to happen after so many ticks. -/
def State.timed (s t : State) (ticks : Nat) (i : Instr) (a : Arg) : Prop := (s.now + ticks, (⟨i, a⟩ : Event)) ∈ t.timers
/-- An event takes place, and its outcome is a next state with a property. -/
def State.runsTo (s : State) (i : Instr) (p : State → Prop) : Prop := ∃ t, exec i s = .next t ∧ p t

/-- A directory entry stands at its home, and in the 16 bytes of its place in the home's directory slice (R226, R241); no other byte of
memory has changed. -/
def State.dirWritten (s t : State) (n : Nat) (e : DirEntry) : Prop :=
  let k := scrKey (s.segHome n) (16 * e.slot)
  t.dirEntry? n = some e ∧ t.mem = { s.mem with scr := t.mem.scr } ∧
  (s.mem.scr.wf = true → t.mem.scr.readN k 16 = e.word n % 2 ^ 128 ∧
    ∀ i, i < k ∨ k + 16 ≤ i → t.mem.scr.read i = s.mem.scr.read i)
/-- The context of an SVC event stands in its trap with nothing else held for it (R296, R308). -/
def State.svcReady (s : State) : Prop :=
  let k := s.ctx s.arg.tile s.arg.ctx
  k.status = .trapped ∧ k.mst = false ∧ k.deferred = [] ∧ k.rep = none ∧ k.ring = []
/-- The SVC function has returned its status in s0, and its context goes on at the next instruction (R296). -/
def State.svcEnds (s t : State) (n : Nat) : Prop :=
  let k := s.ctx s.arg.tile s.arg.ctx
  let j := t.ctx s.arg.tile s.arg.ctx
  j.status = .ready ∧ j.raw 0 = BitVec.ofNat 32 n ∧ j.psn 0 = false ∧ j.regs.pc = k.regs.pc + 4#48 ∧ (∀ r, r ≠ 0 → j.raw r = k.raw r) ∧
  (t.tile s.arg.tile).hand = none

/-- No request is linked on a line of any slice (R96). -/
def State.noneLinked (s : State) : Prop := ∀ d, d < 4 → ∀ p ∈ (s.die d).slice, p.2.linked = []

/-- Every memory is in its canonical form: addresses strictly rising, and no entry equal to what an unlisted byte reads as (log 2). -/
def Mems.canonical (m : Mems) : Prop := m.hbm.wf = true ∧ m.sys.wf = true ∧ m.peer.wf = true ∧ m.scr.wf = true

/-! ### Traps -/

/-- The issuing context has taken a trap (R294, R295): it is stopped where it was, with the trap registers written, and no register of its
program and no memory has changed. -/
def State.trapped (s t : State) (cause acc kind addr : Nat) : Prop :=
  t.me.status = .trapped ∧ t.me.ctl.trapcause = trapcauseWord cause acc kind ∧ t.me.ctl.trapaddr = BitVec.ofNat 64 (addr % 2 ^ 48) ∧
  t.me.ctl.trapseq = 0 ∧ t.me.regs = s.me.regs ∧ t.mem = s.mem ∧ t.cur = s.cur
/-- ILLEGAL, exact, at the PC (R352). -/
def State.takesIllegal (s t : State) : Prop := s.trapped t causeIllegal 0 0 s.me.regs.pc.toNat

/-! ### Frames -/

/-- What an instruction that writes only scalars of its context leaves unchanged, however it ends: all of memory, every other unit, every
other context, and of its own context every scalar but those listed, and every vector, mask, stream, map and mode register. -/
def State.scalarFrame (s t : State) (ds : List Nat) : Prop :=
  t.mem = s.mem ∧ t.dies = s.dies ∧ t.queues = s.queues ∧ t.ops = s.ops ∧ t.msgs = s.msgs ∧ t.txn = s.txn ∧ t.cur = s.cur ∧
  (∀ u c, (u, c) ≠ s.cur → t.ctx u c = s.ctx u c) ∧
  (∀ r, r ∉ ds → t.me.raw r = s.me.raw r ∧ t.me.psn r = s.me.psn r) ∧
  t.me.regs.v = s.me.regs.v ∧ t.me.regs.m = s.me.regs.m ∧ t.me.regs.exec = s.me.regs.exec ∧ t.me.regs.dstack = s.me.regs.dstack ∧
  t.me.regs.pw = s.me.regs.pw ∧ t.me.regs.st = s.me.regs.st ∧ t.me.regs.tm = s.me.regs.tm ∧ t.me.ctl.fpmode = s.me.ctl.fpmode ∧
  t.me.ctl.fpstat = s.me.ctl.fpstat ∧ t.me.ctl.wavectl = s.me.ctl.wavectl ∧ t.me.ctl.uipc = s.me.ctl.uipc ∧
  t.me.ctl.msc = s.me.ctl.msc ∧ t.me.ctl.rngseed = s.me.ctl.rngseed
/-- The scalars that an instruction of the scalar arithmetic writes (R372 to R379); none for every other instruction. -/
def aluDest : Instr → Option (List Nat)
  | .add16 r _ | .sub16 r _ | .and16 r _ | .or16 r _ | .xor16 r _ | .shl16 r _ | .shr16 r _ | .sra16 r _ | .mul16 r _ | .min16 r _
  | .max16 r _ | .slt16 r _ | .addSz16 r _ | .addi16 r _ | .addiSz16 r _ | .andi16 r _ | .shli16 r _ | .shri16 r _ | .srai16 r _
  | .slti16 r _ | .clz16 r _ | .popc16 r _ => some [r]
  | .add d _ _ | .sub d _ _ | .and d _ _ | .or d _ _ | .xor d _ _ | .shl d _ _ | .shr d _ _ | .sra d _ _ | .mul d _ _ | .mulh d _ _
  | .mulhn d _ _ | .div d _ _ | .divn d _ _ | .rem d _ _ | .remn d _ _ | .min d _ _ | .max d _ _ | .minn d _ _ | .maxn d _ _
  | .slt d _ _ | .sltn d _ _ | .clz d _ | .popc d _ | .brev d _ => some [d]
  | .bfx d _ _ _ | .bfi d _ _ _ | .sel d _ _ _ | .addi d _ _ | .andi d _ _ | .ori d _ _ | .xori d _ _ | .slti d _ _ | .shli d _ _
  | .shri d _ _ | .srai d _ _ | .lui d _ | .li d _ => some [d]
  | .add64 d _ _ | .sub64 d _ _ | .shl64 d _ _ | .lea d _ _ _ | .addi64 d _ _ | .mad64 d _ _ _ => some [d, d + 1]
  | _ => none

end Sys2Proof.Machine
end

