-- ==== Sys2Proof/Certificates/Slice0/Obligations.lean ====
section
/-! DEFINITION. The statements for the provers: what each family of instructions, each event, the decoder and a step do, as the numbered rules of
the spec say.  One whose docstring names a log entry rests there on a choice of the model. -/
section
open Sys2Proof Sys2Proof.Machine

/-- R340, R341, R352: a step at which a context issues runs the instruction that its fetch and the decoder give, in the state in which
that context has come to issue, and bytes that are no instruction raise ILLEGAL. -/
def Obligations.StepRunsDecodedInstruction : Prop :=
  ∀ (s : State) (t c w : Nat) (rest : List Actor), s.power = true → s.agenda = .issue t c :: rest →
    let s1 := { s with agenda := rest }.turn t c
    s1.cur = (t, c) ∧ s1.me.regs = (s.ctx t c).regs ∧ s1.mem = s.mem ∧
    (s1.fetch t c = .word w →
      (∀ i, decodeNat w = some i → step s = exec i s1) ∧
      (decodeNat w = none → ∃ u, step s = .next u ∧ s1.takesIllegal u)) ∧
    ((s.ctx t c).regs.pc.getLsbD 0 = true → ∃ u, step s = .next u ∧ s1.takesIllegal u)

/-- R2, R72, R79, R82, R340, R341: when every halfword of an instruction at the PC has its translation and lies in device memory without
poison, in a line that the instruction cache of the tile holds, the step runs that instruction. -/
def Obligations.StepRunsInstructionInMemory : Prop :=
  ∀ (s : State) (t c w : Nat) (i : Instr) (rest : List Actor), s.power = true → s.agenda = .issue t c :: rest →
    let s1 := { s with agenda := rest }.turn t c
    let pc := (s.ctx t c).regs.pc.toNat
    let n := lengthOf (w % 2 ^ 16)
    pc % 2 = 0 → (s.ctx t c).rep = none → w < 2 ^ (8 * n) → decodeNat w = some i →
    (∀ j, j < n / 2 → ∃ lf k p, globalVa (pc + 2 * j) = true ∧ s1.tileTranslate t c pc (pc + 2 * j) 4 false = .ok lf (.dev k p) ∧
      s1.cached t (.dev k p) = true ∧ s.linePoison (lineOf k) = false ∧ s.devRead k 2 = w / 2 ^ (16 * j) % 2 ^ 16) →
    step s = exec i s1

/-- R7, R9, R29, R199: what a step does with nothing forced: the oldest event that is ready, then a timed event that is due, then a
context that may issue, and else time passes; without power nothing happens. An event that takes an issue cycle of slot 30 or 31 waits for
it, and a scratch request at a port for the earlier ones. The order among moves that are possible at once is the model's choice (log 6).
R28, R29, R199 to R204, R387: a context issues only on a tile that is awake and not throttled in the cycle; a wave on its own port, which
no other takes in the cycle, with an instruction that is ready, once a cycle; a path thread in the cycle of its slot in the rotation,
which is used once; and of two requests of the test unit in one cycle one is accepted. Which cycles throttling suppresses, and that a wave
takes one port a cycle, are the model's (log 69). -/
def Obligations.StepOrder : Prop :=
  (∀ (s : State), s.agenda = [] →
      (s.power = false → step s = .fault .powerOff) ∧
      (s.power = true → s.sched = [] →
        (∀ e rest, s.pending = e :: rest → s.mayRun e = true →
          step s = exec e.what { ({ s with pending := rest }.takeSlot e) with arg := e.arg }) ∧
        (∀ n e rest, s.pending = [] → s.timers = (n, e) :: rest → n ≤ s.now → s.mayRun e = true →
          step s = exec e.what { ({ s with timers := rest }.takeSlot e) with arg := e.arg }) ∧
        (∀ e, s.slotOf e = none → s.takeSlot e = s ∧ (e.what ≠ .remoteScratchRequest → s.mayRun e = true)) ∧
        (∀ t c, s.moves = [.issue t c] → step s = s.issue t c) ∧
        (s.moves = [] → step s = .next s.idle ∧ s.now < s.idle.now ∧ s.idle.mem = s.mem ∧
          ∀ t c, (s.idle.ctx t c).regs = (s.ctx t c).regs ∧ (s.idle.ctx t c).status = (s.ctx t c).status))) ∧
  ((∀ (s : State) (t c : Nat), (t, c) ∈ s.issuers →
      s.awake t = true ∧ s.suppressed (dieOf t) = false ∧ s.isReady t c = true ∧
      (isPath c = true → (s.tile t).issue.pathAt ≠ s.tileCycle + 1 ∧ c < 222 ∧ (s.tile t).issue.rot[(s.tile t).issue.rotI]? = some (c - 192)) ∧
      (isPath c = false → (s.ctx t c).issuedAt ≤ s.tileCycle ∧
        (if (s.nextInstr t c).any vectorPort then (s.tile t).issue.vectorAt else (s.tile t).issue.scalarAt) ≠ s.tileCycle + 1 ∧
        ((s.ctx t c).yielded = true → (s.ctx t c).issuedAt ≠ s.tileCycle)) ∧
      ((s.nextInstr t c).any testRequest = true → s.testWinner t = some c ∧ (s.tile t).issue.testAt ≠ s.tileCycle + 1)) ∧
    (∀ (s : State) (t c : Nat),
      let u := s.turn t c
      (u.ctx t c).issuedAt = s.tileCycle + 1 ∧ (u.ctx t c).urgent = false ∧ u.now = s.now ∧ u.mem = s.mem ∧
      (isPath c = true → (u.tile t).issue.pathAt = s.tileCycle + 1) ∧
      (isPath c = false → (s.nextInstr t c).any vectorPort = true →
        (u.tile t).issue.vectorAt = s.tileCycle + 1 ∧ (u.tile t).issue.vectorW = c ∧ (u.tile t).issue.scalarAt = (s.tile t).issue.scalarAt) ∧
      (isPath c = false → (s.nextInstr t c).any vectorPort = false →
        (u.tile t).issue.scalarAt = s.tileCycle + 1 ∧ (u.tile t).issue.scalarW = c ∧ (u.tile t).issue.vectorAt = (s.tile t).issue.vectorAt) ∧
      ((s.nextInstr t c).any testRequest = true → (u.tile t).issue.testAt = s.tileCycle + 1)) ∧
    (∀ (s : State) (t n : Nat), (s.tile t).issue.rotI + n < max 8 (s.tile t).issue.rot.length →
      (s.rotated t n false).rot = (s.tile t).issue.rot ∧ (s.rotated t n false).rotI = (s.tile t).issue.rotI + n) ∧
    (∀ (s : State) (t n : Nat), max 8 (s.tile t).issue.rot.length ≤ (s.tile t).issue.rotI + n → (s.tile t).issue.rot ≠ [] →
      (s.rotated t n false).rot = s.members t ∧ (s.rotated t n false).rotI = 0) ∧
    (∀ (s : State) (t : Nat), (s.members t).Pairwise (· < ·) ∧ ∀ n, n ∈ s.members t ↔
      (n < 30 ∧ s.isReady t (192 + n) = true) ∨ (n = 30 ∧ s.systemWork t = true) ∨ (n = 31 ∧ (s.tile t).un.mb ≠ [])))

/-- R340 to R345, R362 to R369, R397, R420, R448, R467: words of the spec's examples and words written out from its encoding tables decode
to the instructions they stand for, and a word with a reserved field that is not zero to none. -/
def Obligations.DecodeKnownWords : Prop :=
  decodeNat 0x00204305 = some (.add 3 1 2) ∧ decodeNat 0xE95C = some (.addi16 5 (-3#5)) ∧ decodeNat 0xFFD14521 = some (.addi 5 5 (-3#12)) ∧
  decodeNat 0x003E = some .nop16 ∧ decodeNat 0x0048D159E00013C3 = some (.li 4 0x12345678#32) ∧ decodeNat 0x003100C5 = some (.kset 3 4) ∧
  decodeNat 0x0018126D = some (.vbr true false 1 6#14) ∧ decodeNat 0x006006C9 = some (.ctlr 6 6) ∧
  decodeNat 0x00042C0C08045053 = some (.vfma .f32 1 ⟨3, true⟩ 20 1 2 3) ∧
  decodeNat 0x00000400001820E3 = some (.vred .add .f32 ⟨1, false⟩ 8 6) ∧
  decodeNat 0x0000000000102583 = some (.ld .f32 false ⟨0, 0⟩ 9 4 0#16) ∧
  decodeNat 0x00040000001001FB = some (.waitc .gst 4) ∧ decodeNat 0x00000000002011B7 = some (.syncst .f32 (.disp 0#16) 4 8) ∧
  decodeNat 0x40008000000002AF = some (.mstream .bf16 0 0 0 0 64) ∧ decodeNat 0x020400280C003303 = some (.send true 2 12 0 3 10) ∧
  decodeNat 0x0000002030002B17 = some (.boxt 10 0 12 8) ∧ decodeNat 0x080000000008033B = some (.prept 2 8) ∧
  decodeNat 0x00101969 = none ∧ decodeNat 0x0000 = none ∧ decodeNat 0x083E = none ∧ decodeNat 0x60100005 = none

/-- R340 to R345, R362 to R369: for every well-formed instruction of the set, decoding its encoding gives it back, with every operand. -/
def Obligations.DecodeEncodeAgree : Prop :=
  ∀ i : Instr, i.len ≠ 0 → i.wf = true → decode (encode i) = some i ∧ (encode i).length = i.len

/-- R340, R352: each word has one meaning: encoding the instruction that a word decodes to gives the word back, so that no bit of a word
is ignored, and the instruction is well formed. -/
def Obligations.EncodeDecodeAgree : Prop :=
  ∀ (w : Nat) (i : Instr), decodeNat w = some i → w < 2 ^ (8 * i.len) → i.len ≠ 0 ∧ i.wf = true ∧ encodeNat i = w

/-- R9, R29: no step is refused, and the one that faults is a step of a package without power; every instruction of a context and every
event has a next state. -/
def Obligations.StepTotal : Prop :=
  (∀ (i : Instr) (s : State), ∃ t, exec i s = .next t) ∧
  ∀ s : State, (∃ t, step s = .next t) ∨ (s.power = false ∧ step s = .fault .powerOff)

/-- R7, R38, R78, R88, R131, R149, R225, R242, R245, R250, R254, R257 to R266, R274, R327, R336: the values that package cold reset
leaves, as the spec gives them. That a queue is DISABLED and that unlisted memory reads 0 where the spec names no contents are the model's
(log 2, log 3). -/
def Obligations.ResetValues : Prop :=
  let s := State.reset
  s.now = 0 ∧ s.power = true ∧ s.zonecfg = 0#32 ∧ s.launches = [] ∧ s.msgs = [] ∧ s.ops = [] ∧ s.exch = [] ∧ s.arbs = [] ∧
  (∀ d, (s.die d).inService = false ∧ (s.die d).tdi = 0 ∧ (s.die d).slice = [] ∧ (s.die d).l2tlb = [] ∧ (s.die d).sigs = [] ∧
    (s.die d).bar0.qtbase = 0 ∧ (s.die d).bar0.tlbBusy = false ∧ (s.die d).bar0.level = 0 ∧ (s.die d).bar0.powercap = 2000) ∧
  (∀ t, (s.tile t).inboxU = 1 ∧ (s.tile t).segU = 12 ∧ (s.tile t).sync.fetmo = 0x10000#32 ∧ (s.tile t).sync.mbtmo = 0x100000#32 ∧
    (s.tile t).sync.mbarcfg = 0x100000#32 ∧ (s.tile t).mx.active = Plane.none ∧ (s.tile t).trav.dir = [] ∧ (s.tile t).un.l1 = [] ∧
    (s.tile t).sync.ev = [] ∧ (s.tile t).sync.mutex = [] ∧ (s.tile t).sync.bar = [] ∧ (s.tile t).un.ic = [] ∧ (s.tile t).issue.rot = []) ∧
  (∀ t off, s.scrRead t off 1 = 0 ∧ s.scrFull t off = false ∧ s.scrPois t off = false) ∧
  (∀ q, (s.queue q).qstate = 0) ∧ (∀ a, s.mem.hbm.read a = 0#8) ∧ s.mem.hbm.wf = true ∧ s.mem.scr.wf = true ∧
  Ctl.init.fpmode = 0x10#32 ∧ Ctl.init.rngseed = 1#32 ∧ Regs.init.exec = 0xFFFFFFFF#32

/-- R88, R240, R245 and what an unlisted byte reads as (log 2): every memory keeps its canonical form in every step: its addresses rise,
and no entry holds the value of an unlisted byte. -/
def Obligations.MemoryStaysCanonical : Prop :=
  ∀ s t : State, s.mem.canonical → step s = .next t → t.mem.canonical

/-- R370, R372 to R379: an instruction of the scalar arithmetic changes no memory, no other context and no register but its destination,
whatever it does: complete, wait or trap. -/
def Obligations.ArithmeticFrame : Prop :=
  ∀ (i : Instr) (ds : List Nat) (s t : State), aluDest i = some ds → exec i s = .next t → s.scalarFrame t ds

/-- R372, R373 and their aliases of R362: each three-register operation, in every context and for every operand that holds no poison,
writes the value of the table into s_d with poison 0, changes nothing else, and goes on to the next instruction. R372: CLZ, POPC and BREV
and their aliases, each by what the result says of the bits of s_a. R374 to R376 and their aliases of R362: the immediate forms. -/
def Obligations.ScalarArithmetic : Prop :=
  (∀ (s : State) (d a b : Nat), s.fits .A (sr d ++ sr a ++ sr b) [sr a, sr b] →
      let x := s.me.raw a
      let y := s.me.raw b
      s.writes (.add d a b) 4 d (x + y) ∧ s.writes (.sub d a b) 4 d (x - y) ∧
      s.writes (.and d a b) 4 d (x &&& y) ∧ s.writes (.or d a b) 4 d (x ||| y) ∧ s.writes (.xor d a b) 4 d (x ^^^ y) ∧
      s.writes (.shl d a b) 4 d (if 32 ≤ y.toNat then 0 else x <<< y.toNat) ∧
      s.writes (.shr d a b) 4 d (if 32 ≤ y.toNat then 0 else x >>> y.toNat) ∧
      s.writes (.sra d a b) 4 d (if 32 ≤ y.toNat then (if x.msb then 0xFFFFFFFF#32 else 0) else x.sshiftRight y.toNat) ∧
      s.writes (.mul d a b) 4 d (BitVec.ofNat 32 (x.toNat * y.toNat)) ∧
      s.writes (.mulh d a b) 4 d ((BitVec.ofInt 64 (x.toInt * y.toInt)).extractLsb' 32 32) ∧
      s.writes (.mulhn d a b) 4 d ((BitVec.ofNat 64 (x.toNat * y.toNat)).extractLsb' 32 32) ∧
      s.writes (.div d a b) 4 d (if y = 0 then 0xFFFFFFFF#32 else x.sdiv y) ∧
      s.writes (.rem d a b) 4 d (if y = 0 then x else x.srem y) ∧
      s.writes (.divn d a b) 4 d (if y = 0 then 0xFFFFFFFF#32 else x.udiv y) ∧
      s.writes (.remn d a b) 4 d (if y = 0 then x else x.umod y) ∧
      s.writes (.min d a b) 4 d (if x.slt y then x else y) ∧ s.writes (.max d a b) 4 d (if x.slt y then y else x) ∧
      s.writes (.minn d a b) 4 d (if x.ult y then x else y) ∧ s.writes (.maxn d a b) 4 d (if x.ult y then y else x) ∧
      s.writes (.slt d a b) 4 d (if x.slt y then 1 else 0) ∧ s.writes (.sltn d a b) 4 d (if x.ult y then 1 else 0) ∧
      (d = a → s.writes (.add16 d b) 2 d (x + y) ∧ s.writes (.sub16 d b) 2 d (x - y) ∧
        s.writes (.and16 d b) 2 d (x &&& y) ∧ s.writes (.or16 d b) 2 d (x ||| y) ∧ s.writes (.xor16 d b) 2 d (x ^^^ y) ∧
        s.writes (.shl16 d b) 2 d (if 32 ≤ y.toNat then 0 else x <<< y.toNat) ∧
        s.writes (.shr16 d b) 2 d (if 32 ≤ y.toNat then 0 else x >>> y.toNat) ∧
        s.writes (.sra16 d b) 2 d (if 32 ≤ y.toNat then (if x.msb then 0xFFFFFFFF#32 else 0) else x.sshiftRight y.toNat) ∧
        s.writes (.mul16 d b) 2 d (BitVec.ofNat 32 (x.toNat * y.toNat)) ∧
        s.writes (.min16 d b) 2 d (if x.slt y then x else y) ∧ s.writes (.max16 d b) 2 d (if x.slt y then y else x) ∧
        s.writes (.slt16 d b) 2 d (if x.slt y then 1 else 0))) ∧
  (∀ (s : State) (d a : Nat), s.fits .A (sr d ++ sr a) [sr a] →
      let x := s.me.raw a
      (∃ n, n ≤ 32 ∧ (∀ i, 32 - n ≤ i → i < 32 → x.getLsbD i = false) ∧ (n < 32 → x.getLsbD (31 - n) = true) ∧
        s.writes (.clz d a) 4 d (BitVec.ofNat 32 n) ∧ s.writes (.clz16 d a) 2 d (BitVec.ofNat 32 n)) ∧
      (let n := ((List.range 32).filter fun i => x.getLsbD i).length
       s.writes (.popc d a) 4 d (BitVec.ofNat 32 n) ∧ s.writes (.popc16 d a) 2 d (BitVec.ofNat 32 n)) ∧
      (∃ v : Word, (∀ i, i < 32 → v.getLsbD (31 - i) = x.getLsbD i) ∧ s.writes (.brev d a) 4 d v)) ∧
  (∀ (s : State) (d a : Nat), s.fits .A (sr d ++ sr a) [sr a] →
      let x := s.me.raw a
      (∀ i : BitVec 12, s.writes (.addi d a i) 4 d (x + i.signExtend 32) ∧ s.writes (.andi d a i) 4 d (x &&& i.signExtend 32) ∧
        s.writes (.ori d a i) 4 d (x ||| i.signExtend 32) ∧ s.writes (.xori d a i) 4 d (x ^^^ i.signExtend 32) ∧
        s.writes (.slti d a i) 4 d (if x.slt (i.signExtend 32) then 1 else 0)) ∧
      (∀ n, n < 32 → s.writes (.shli d a n) 4 d (x <<< n) ∧ s.writes (.shri d a n) 4 d (x >>> n) ∧
        s.writes (.srai d a n) 4 d (x.sshiftRight n)) ∧
      (∀ i : BitVec 18, s.writes (.lui d i) 4 d (i ++ 0#14)) ∧ (∀ w : Word, s.writes (.li d w) 8 d w) ∧
      (d = a → (∀ i : BitVec 5, s.writes (.addi16 d i) 2 d (x + i.signExtend 32) ∧
          s.writes (.andi16 d i) 2 d (x &&& i.signExtend 32) ∧ s.writes (.slti16 d i) 2 d (if x.slt (i.signExtend 32) then 1 else 0)) ∧
        (∀ n, n < 32 → s.writes (.shli16 d n) 2 d (x <<< n) ∧ s.writes (.shri16 d n) 2 d (x >>> n) ∧
          s.writes (.srai16 d n) 2 d (x.sshiftRight n))) ∧
      (a = 63 → ∀ i : BitVec 5, s.writes (.addiSz16 d i) 2 d (i.signExtend 32)) ∧
      s.writes (.addSz16 d a) 2 d x)

/-- R375: LUI has the encoding of major 0x11 with its 18 bits in [31:14], and writes s_d := imm18 followed by fourteen zeros. -/
def Obligations.UpperImmediate : Prop :=
  (∀ d imm, d < 64 → imm < 2 ^ 18 → decodeNat (0x45 + d * 2 ^ 8 + imm * 2 ^ 14) = some (.lui d (BitVec.ofNat 18 imm))) ∧
  ∀ (s : State) (d : Nat) (imm : BitVec 18), s.fits .A (sr d) [] → s.writes (.lui d imm) 4 d (imm ++ 0#14)

/-- R379: SEL has the encoding of major 0x02 with the condition scalar in the f field, and writes s_d := s_a if s_c is not zero and s_b
otherwise, with the poison of the operand chosen; reading a poisoned s_c is a use of poison, and traps under STRICT. -/
def Obligations.SelectOperation : Prop :=
  (∀ d a b c, d < 64 → a < 64 → b < 64 → c < 64 →
    decodeNat (0x09 + d * 2 ^ 8 + a * 2 ^ 14 + b * 2 ^ 20 + c * 2 ^ 26) = some (.sel d c a b)) ∧
  ∀ (s : State) (d c a b : Nat),
    (s.fits .A (sr d ++ sr c ++ sr a ++ sr b) [sr c] →
      s.gives (.sel d c a b) 4 fun k =>
        if s.me.raw c ≠ 0 then k.wrP d (s.me.raw a) (s.me.psnAny (sr a)) else k.wrP d (s.me.raw b) (s.me.psnAny (sr b))) ∧
    (s.fits .A (sr d ++ sr c ++ sr a ++ sr b) [] → s.me.psnAny (sr c) = true → s.lenient s.me.lidx = false →
      ∃ t, exec (.sel d c a b) s = .next t ∧ t.me.status = .trapped ∧ t.me.ctl.trapcause = trapcauseWord causePoison 0 0 ∧
        t.me.regs = s.me.regs ∧ t.mem = s.mem ∧ (t.launch s.me.lidx).sticky = true)

/-- R377: the 64-bit address operations over scalar pairs. R378, R379: the bit fields, bit by bit, and the selection, which passes the
poison of the operand it chooses. -/
def Obligations.PairsAndBitFields : Prop :=
  (∀ (s : State) (d a b c : Nat),
      (s.fits .A (xr d ++ xr a ++ xr b) [xr a, xr b] →
        s.writesx (.add64 d a b) 4 d (s.me.rawx a + s.me.rawx b) ∧ s.writesx (.sub64 d a b) 4 d (s.me.rawx a - s.me.rawx b)) ∧
      (s.fits .A (xr d ++ xr a ++ sr b) [xr a, sr b] →
        s.writesx (.shl64 d a b) 4 d (if 64 ≤ (s.me.raw b).toNat then 0 else s.me.rawx a <<< (s.me.raw b).toNat) ∧
        ∀ k, k < 4 → s.writesx (.lea d a b k) 4 d (s.me.rawx a + BitVec.ofInt 64 ((s.me.raw b).toInt * 2 ^ k))) ∧
      (s.fits .A (xr d ++ xr a) [xr a] →
        ∀ i : BitVec 12, s.writesx (.addi64 d a i) 4 d (s.me.rawx a + BitVec.ofInt 64 i.toInt)) ∧
      (s.fits .A (xr d ++ sr a ++ sr b ++ xr c) [sr a, sr b, xr c] →
        s.writesx (.mad64 d a b c) 4 d (s.me.rawx c + BitVec.ofNat 64 ((s.me.raw a).toNat * (s.me.raw b).toNat)))) ∧
  ((∀ (s : State) (d a p w : Nat), 1 ≤ w → p + w ≤ 32 →
      (s.fits .A (sr d ++ sr a) [sr a] →
        ∃ v : Word, s.writes (.bfx d a p w) 4 d v ∧
          ∀ i, i < 32 → v.getLsbD i = (decide (i < w) && (s.me.raw a).getLsbD (p + i))) ∧
      (s.fits .A (sr d ++ sr d ++ sr a) [sr d, sr a] →
        ∃ v : Word, s.writes (.bfi d a p w) 4 d v ∧
          ∀ i, i < 32 → v.getLsbD i = if p ≤ i ∧ i < p + w then (s.me.raw a).getLsbD (i - p) else (s.me.raw d).getLsbD i)) ∧
    (∀ (s : State) (d c a b : Nat), s.fits .A (sr d ++ sr c ++ sr a ++ sr b) [sr c] →
      s.gives (.sel d c a b) 4 fun k =>
        if s.me.raw c = 0 then k.wrP d (s.me.raw b) (s.me.psnAny (sr b)) else k.wrP d (s.me.raw a) (s.me.psnAny (sr a))))

/-- R346, R347, R370: what a write of a scalar, of a pair, of a mask and of a vector register leaves: sz and m0 discard it and read as
their constants, every other register reads the value written with the poison bit written, and no other register changes. R340, R449,
R456: an instruction of n bytes completes at the next address, and nothing of its context changes but the PC and the notes of a wait of
this instruction; inside a running REP the body's end leads back to its first instruction until the last pass. -/
def Obligations.RegistersAndProgramCounter : Prop :=
  (∀ (k : Ctx) (r i : Nat) (v : Word) (x : Dword) (p : Bool) (y : VReg), r < 64 → i < 64 →
      (k.wrP r v p).raw i = (if i = 63 then 0 else if i = r then v else k.raw i) ∧
      (k.wrP r v p).psn i = (if i = r ∧ r ≠ 63 then p else k.psn i) ∧
      (xReg r = true → (k.wrxP r x p).rawx r = (if r = 63 then 0 else x) ∧
        (i ≠ r → i ≠ r + 1 → (k.wrxP r x p).raw i = k.raw i ∧ (k.wrxP r x p).psn i = k.psn i)) ∧
      (k.wrM r v).mreg i = (if i = 0 then 0xFFFFFFFF#32 else if i = r then v else k.mreg i) ∧
      (k.wrV r y).vreg i = if i = r then y else k.vreg i) ∧
  (∀ (k : Ctx) (n : Nat),
      let next := k.regs.pc + BitVec.ofNat 48 n
      (k.retire n).regs = { k.regs with pc := (k.retire n).regs.pc } ∧ (k.retire n).ctl = k.ctl ∧ (k.retire n).status = k.status ∧
      (k.rep = none → (k.retire n).regs.pc = next ∧ (k.retire n).rep = none) ∧
      ∀ r, k.rep = some r →
        (next ≠ r.stop → (k.retire n).regs.pc = next ∧ (k.retire n).rep = some r) ∧
        (next = r.stop → 1 < r.left → (k.retire n).regs.pc = r.first ∧ (k.retire n).rep = some { r with left := r.left - 1 }) ∧
        (next = r.stop → r.left ≤ 1 → (k.retire n).regs.pc = next ∧ (k.retire n).rep = none))

/-- R380, R381: the path-thread predicates: the condition of CMP for two operands without poison, and the logic of PAND, POR and PNOT; the
bit named is written and no other bit of pw. R383: BR, BRP and BRM: taken when the condition holds, to PC + 2 × SInt(off14); else on to
the next instruction. BRM looks at the bits of the active lanes. R386 and the alias of R362: jumps, calls and returns. -/
def Obligations.PredicatesAndBranches : Prop :=
  (∀ (s : State) (d a b : Nat), d < 32 →
      let sets := fun (i : Instr) (v : Bool) => ∃ w : Word, s.gives i 4 (fun k => { k with regs := { k.regs with pw := w } }) ∧
        ∀ j, j < 32 → w.getLsbD j = if j = d then v else s.me.regs.pw.getLsbD j
      (s.fits .P (sr a ++ sr b) [sr a, sr b] →
        let x := s.me.raw a
        let y := s.me.raw b
        sets (.cmp .eq d a b) (x == y) ∧ sets (.cmp .ne d a b) (x != y) ∧ sets (.cmp .lt d a b) (x.slt y) ∧
        sets (.cmp .ge d a b) (y.sle x) ∧ sets (.cmp .ltn d a b) (x.ult y) ∧ sets (.cmp .gen d a b) (y.ule x)) ∧
      (s.fits .P [] [] →
        sets (.pand d a b) (s.me.regs.pw.getLsbD a && s.me.regs.pw.getLsbD b) ∧
        sets (.por d a b) (s.me.regs.pw.getLsbD a || s.me.regs.pw.getLsbD b) ∧
        sets (.pnot d a) (!s.me.regs.pw.getLsbD a))) ∧
  (∀ (s : State) (a : Nat) (off : BitVec 14),
      let go := fun (i : Instr) (taken : Prop) =>
        (taken → s.goesTo i (s.pcPlus off) id) ∧ (¬ taken → s.gives i 4 id)
      (s.fits .A (sr a) [sr a] →
        let x := (s.me.raw a).toInt
        go (.br .eqz a off) (x = 0) ∧ go (.br .nez a off) (x ≠ 0) ∧ go (.br .ltz a off) (x < 0) ∧ go (.br .gez a off) (0 ≤ x) ∧
        go (.br .gtz a off) (0 < x) ∧ go (.br .lez a off) (x ≤ 0)) ∧
      (s.fits .P [] [] →
        go (.brp false a off) (s.me.regs.pw.getLsbD a = true) ∧ go (.brp true a off) (s.me.regs.pw.getLsbD a = false)) ∧
      (s.fits .W [] [] → s.me.busyMAny [a] = false →
        let one := fun i => i < 32 ∧ s.me.regs.exec.getLsbD i = true ∧ (s.me.mreg a).getLsbD i = true
        let zero := fun i => i < 32 ∧ s.me.regs.exec.getLsbD i = true ∧ (s.me.mreg a).getLsbD i = false
        go (.brm .any a off) (∃ i, one i) ∧ go (.brm .all a off) (∀ i, ¬ zero i) ∧
        go (.brm .none a off) (∀ i, ¬ one i) ∧ go (.brm .nall a off) (∃ i, zero i))) ∧
  (∀ (s : State),
      (s.fits .A [] [] → ∀ off : BitVec 24, s.goesTo (.jmp off) (s.pcPlus off) id) ∧
      (s.fits .A (xr 14) [] → ∀ off : BitVec 24,
        s.goesTo (.call off) (s.pcPlus off) fun k => k.wrx 14 ((s.me.regs.pc + 4#48).setWidth 64)) ∧
      (s.fits .A (xr 14) [xr 14] →
        s.goesTo .ret ((s.me.rawx 14).extractLsb' 0 48) id ∧ s.goesTo .ret16 ((s.me.rawx 14).extractLsb' 0 48) id) ∧
      (∀ a, s.fits .A (xr a) [xr a] → s.goesTo (.jr a) ((s.me.rawx a).extractLsb' 0 48) id))

/-- R384: VBR completes in a wave when no earlier operation has yet to write its mask: with the lanes all of one mind the whole wave
moves; else, with U = 0, the taking lanes wait at the target, merged into the top entry where it has that PC and otherwise pushed. R384:
VBR with U = 1 and lanes that disagree raises UNIFORMITY, and VBR with U = 0 that would push a thirty-third entry raises DIVSTACK; both
exact, at the PC, with the stack and the execution mask as they were. -/
def Obligations.DivergentBranches : Prop :=
  (∀ (s : State) (f u : Bool) (a : Nat) (off : BitVec 14), s.fits .W [] [] → s.me.busyMAny [a] = false →
      let act := s.me.regs.exec
      let tk := act &&& (if f then ~~~s.me.mreg a else s.me.mreg a)
      let tgt := s.pcPlus off
      let leave := fun (stack : List (BitVec 48 × Word)) =>
        s.gives (.vbr f u a off) 4 fun k => { k with regs := { k.regs with dstack := stack, exec := act &&& ~~~tk } }
      (tk = 0 → s.gives (.vbr f u a off) 4 id) ∧
      (tk ≠ 0 → tk = act → s.goesTo (.vbr f u a off) tgt id) ∧
      (tk ≠ 0 → tk ≠ act → u = false →
        (∀ m rest, s.me.regs.dstack = (tgt, m) :: rest → leave ((tgt, m ||| tk) :: rest)) ∧
        ((s.me.regs.dstack.head?.map (·.1) ≠ some tgt) → s.me.regs.dstack.length < 32 → leave ((tgt, tk) :: s.me.regs.dstack)))) ∧
  (∀ (s : State) (f u : Bool) (a : Nat) (off : BitVec 14), s.fits .W [] [] → s.me.busyMAny [a] = false →
      let act := s.me.regs.exec
      let tk := act &&& (if f then ~~~s.me.mreg a else s.me.mreg a)
      tk ≠ 0 → tk ≠ act →
        (u = true → ∃ t, exec (.vbr f u a off) s = .next t ∧ s.trapped t causeUniformity 0 0 s.me.regs.pc.toNat) ∧
        (u = false → s.me.regs.dstack.head?.map (·.1) ≠ some (s.pcPlus off) → 32 ≤ s.me.regs.dstack.length →
          ∃ t, exec (.vbr f u a off) s = .next t ∧ s.trapped t causeDivstack 0 0 s.me.regs.pc.toNat))

/-- R385: VRECONV encodes as 0x007000F9 alone, so that a word with another d or a field is no instruction; in a wave it pops every top
entry whose PC is its own and restores those lanes, an entry with another PC stays on top, and with none to pop it has no effect; in a
path thread it is not allowed. -/
def Obligations.Reconvergence : Prop :=
  decodeNat 0x007000F9 = some .vreconv ∧
  (∀ d a, d < 64 → a < 64 → decodeNat (0x007000F9 + d * 2 ^ 8 + a * 2 ^ 14) = some .vreconv → d = 0 ∧ a = 0) ∧
  (∀ (s : State), s.fits .W [] [] →
    ∃ n, n ≤ s.me.regs.dstack.length ∧
      (∀ e ∈ s.me.regs.dstack.take n, e.1 = s.me.regs.pc) ∧
      (∀ e, s.me.regs.dstack[n]? = some e → e.1 ≠ s.me.regs.pc) ∧
      s.gives .vreconv 4 fun k =>
        { k with regs := { k.regs with dstack := s.me.regs.dstack.drop n
                                       exec := (s.me.regs.dstack.take n).foldl (fun w e => w ||| e.2) s.me.regs.exec } }) ∧
  (∀ s : State, isPath s.cur.2 = true → ∃ t, exec .vreconv s = .next t ∧ s.takesIllegal t)

/-- R250, R382 and the aliases of R362: KGET reads the common register of its tile, and a KGET issued in the 6 tile cycles from a KSET on
still reads the value before; KSET writes it, and of two in one tile cycle that of a wave stands over that of the path pipeline. R274,
R394: CTLR of every assigned register completes: a register of 32 bits goes to a scalar; one of 64 bits goes whole to a pair, by its low
half to an odd scalar, and nowhere to sz; once nothing it waits for is left (R395). The values are those of R274. R274, R275, R394: what
CTLW, CTLS and CTLC do to each register of a context that a thread may write: the bits that are not reserved take the source, its union
with the register, or the register without it; reserved bits keep their value (FPMODE's RM keeps its own when the new one is no mode,
R336; RNGSEED takes 1 for zero, R327; MSC sets the progress of the faulted array entry that TRAPSEQ names, R461). UIPC takes a pair, an
odd scalar of a wave, or zero. R242, R259, R261, R266, R274, R275, R394, R395: the same for the registers of the tile, where no write of
the register has been issued in the cycle: MBTMO, MBARCFG of a tile on which nobody waits in MBAR, and, from the system slot, FETMO, which
takes at least 256, and SCRATCHCFG, whose fields take values that are in range. A CTLW of a wave stands over one of the path pipeline in
the same cycle, and one of the path pipeline that comes after it has no effect. R275, R352: a control register that is not assigned, and a
write to one that the context may not write, raise ILLEGAL (exact). -/
def Obligations.CommonAndControlRegisters : Prop :=
  (∀ (s : State) (d a n : Nat),
      let y := s.myTile.sync
      let settled := ∀ p ∈ y.kpend, p.2.1 = n → p.1 + 6 ≤ s.tileCycle
      (s.fits .A (sr d) [] →
        s.writes (.kget d n) 4 d (y.kget s.tileCycle n) ∧ s.writes (.kget16 d n) 2 d (y.kget s.tileCycle n) ∧
        (settled → y.kget s.tileCycle n = fget y.k n 0#32)) ∧
      (s.fits .A (sr a) [sr a] →
        ∀ i len, (i = .kset n a ∧ len = 4) ∨ (i = .kset16 a n ∧ len = 2) →
          ∃ t, exec i s = .next t ∧ t.me = s.me.retire len ∧ t.mem = s.mem ∧
            (isPath s.cur.2 = true → (∃ p ∈ y.kpend, p.1 = s.tileCycle ∧ p.2.1 = n ∧ p.2.2.2 = true) → t.myTile.sync = y) ∧
            (isPath s.cur.2 = false ∨ (∀ p ∈ y.kpend, p.1 = s.tileCycle → p.2.1 = n → p.2.2.2 = false) →
              (∀ m, fget t.myTile.sync.k m 0#32 = if m = n then s.me.raw a else fget y.k m 0#32) ∧
              (∀ m, m ≠ n → ∀ c, s.tileCycle ≤ c → t.myTile.sync.kget c m = y.kget c m) ∧
              (settled → ∀ c, t.myTile.sync.kget c n = if c < s.tileCycle + 6 then fget y.k n 0#32 else s.me.raw a)))) ∧
  (∀ (s : State) (d n : Nat), s.me.ctlWaits n false = false →
      let wide := n ∈ [0x006, 0x00A, 0x010, 0x017] ∨ (0x100 ≤ n ∧ n ≤ 0x17F)
      let v := s.ctlVal n
      let y := s.myTile.sync
      (n ≤ 0x01C → ¬ wide → s.fits .A (sr d) [] → s.writes (.ctlr d n) 4 d (v.extractLsb' 0 32)) ∧
      (wide →
        (d % 2 = 0 → d ≤ 60 → s.fits .A [d, d + 1] [] → s.writesx (.ctlr d n) 4 d v) ∧
        (d % 2 = 1 → d ≠ 63 → s.fits .A [d] [] → s.writes (.ctlr d n) 4 d (v.extractLsb' 0 32)) ∧
        (d = 63 → s.fits .A [] [] → s.gives (.ctlr d n) 4 id)) ∧
      (∀ w : Word,
        ((n = 0x000 ∧ w = BitVec.ofNat 32 ((if isPath s.cur.2 then 0 else s.me.windex % 256 * 256) + s.cur.2)) ∨
         (n = 0x001 ∧ s.me.gang = none ∧ w = 0x40#32) ∨ (n = 0x001 ∧ ∃ g, s.me.gang = some g ∧ w = BitVec.ofNat 32 (g % 64)) ∨
         (n = 0x002 ∧ w = BitVec.ofNat 32 (2 ^ 13 + s.me.lidx % 2 ^ 13)) ∨
         (n = 0x003 ∧ w = BitVec.ofNat 32 (s.pkgOf (dieOf s.cur.1) % 256 * 1024 + s.cur.1 % 1024)) ∨
         (n = 0x007 ∧ w = s.me.ctl.fpmode) ∨ (n = 0x008 ∧ w = s.me.ctl.fpstat) ∨ (n = 0x009 ∧ w = s.me.ctl.wavectl) ∨
         (n = 0x00B ∧ w = s.me.ctl.xferid) ∨ (n = 0x00D ∧ w = BitVec.ofNat 32 ((s.launch s.me.lidx).att.attempts % 256)) ∨
         (n = 0x00E ∧ w = BitVec.ofNat 32 (if isPath s.cur.2 then s.me.hdr.seq % 256 else 0)) ∨
         (n = 0x00F ∧ w = s.me.ctl.trapcause) ∨ (n = 0x011 ∧ w = s.me.ctl.trapseq) ∨
         (n = 0x014 ∧ w = s.me.ctl.msc) ∨ (n = 0x018 ∧ w = s.me.ctl.rngseed) ∨
         (n = 0x015 ∧ isPath s.cur.2 = false ∧ w = BitVec.ofNat 32 s.me.regs.q) ∨
         ((∀ p ∈ y.ctlPend, p.1 = s.tileCycle → p.2.1 ≠ n) ∧
           ((n = 0x01A ∧ w = y.mbarcfg) ∨ (n = 0x01B ∧ w = y.mbtmo) ∨ (n = 0x01C ∧ w = y.fetmo)))) →
        v.extractLsb' 0 32 = w) ∧
      (n = 0x006 → v = BitVec.ofNat 64 (s.cycle s.cur.1)) ∧ (n = 0x00A → v = s.me.ctl.uipc) ∧ (n = 0x010 → v = s.me.ctl.trapaddr)) ∧
  (∀ (s : State) (a n : Nat), s.me.ctlWaits n true = false → s.fits .A (sr a) [sr a] →
      let x := s.me.raw a
      let field := fun (old mask : Word) (set : Word → Ctl → Ctl) =>
        let into := fun (v : Word) => (old &&& ~~~mask) ||| (v &&& mask)
        s.gives (.ctlw n a) 4 (fun k => { k with ctl := set (into x) k.ctl }) ∧
        s.gives (.ctls n a) 4 (fun k => { k with ctl := set (into (old ||| x)) k.ctl }) ∧
        s.gives (.ctlc n a) 4 (fun k => { k with ctl := set (into (old &&& ~~~x)) k.ctl })
      (n = 0x007 → field s.me.ctl.fpmode 0x1F fun v c =>
        { c with fpmode := if 5 ≤ v.toNat % 8 then (v &&& ~~~7#32) ||| (s.me.ctl.fpmode &&& 7#32) else v }) ∧
      (n = 0x008 → field s.me.ctl.fpstat 0x3F fun v c => { c with fpstat := v }) ∧
      (n = 0x009 → s.me.uiq = [] → field s.me.ctl.wavectl 1 fun v c => { c with wavectl := v }) ∧
      (n = 0x018 → field s.me.ctl.rngseed 0xFFFFFFFF fun v c => { c with rngseed := if v = 0 then 1 else v }) ∧
      (n = 0x014 →
        let into := fun (v : Word) => (s.me.ctl.msc &&& ~~~0x800001FF#32) ||| (v &&& 0x800001FF#32)
        let q := s.me.ctl.trapseq.toNat % 65536
        let sets := fun (i : Instr) (v : Word) => ∃ t, exec i s = .next t ∧ t.me.regs = (s.me.retire 4).regs ∧
          t.me.ctl = { s.me.ctl with msc := v } ∧ t.mem = s.mem ∧
          t.me.entry q = if v.getLsbD 31 = true ∧ (s.me.entry q).state = .faulted ∧ (s.me.entry q).unit = 2 ∧ (s.me.entry q).seq = q then
            { s.me.entry q with rows := v.toNat % 512 } else s.me.entry q
        sets (.ctlw n a) (into x) ∧ sets (.ctls n a) (into (s.me.ctl.msc ||| x)) ∧ sets (.ctlc n a) (into (s.me.ctl.msc &&& ~~~x))) ∧
      (n = 0x00A → s.me.uiq = [] → ∀ src : Dword,
        ((a % 2 = 0 ∧ a ≤ 60 ∧ s.fits .A [a, a + 1] [[a, a + 1]] ∧ src = s.me.rawx a) ∨
          (a % 2 = 1 ∧ a ≠ 63 ∧ isPath s.cur.2 = false ∧ src = x.setWidth 64) ∨ (a = 63 ∧ src = 0)) →
        let into := fun (v : Dword) => (s.me.ctl.uipc &&& ~~~0x8000FFFFFFFFFFFF#64) ||| (v &&& 0x8000FFFFFFFFFFFF#64)
        let set := fun (i : Instr) (v : Dword) => s.gives i 4 fun k => { k with ctl := { k.ctl with uipc := into v } }
        set (.ctlw n a) src ∧ set (.ctls n a) (s.me.ctl.uipc ||| src) ∧ set (.ctlc n a) (s.me.ctl.uipc &&& ~~~src))) ∧
  (∀ (s : State) (a n : Nat), s.fits .A (sr a) [sr a] →
      let x := s.me.raw a
      let y := s.myTile.sync
      let alone := ∀ p ∈ y.ctlPend, p.1 = s.tileCycle → p.2.1 ≠ n
      let sets := fun (i : Instr) (r : State → State → Prop) => ∃ t, exec i s = .next t ∧ t.me.regs = (s.me.retire 4).regs ∧
        t.me.ctl = s.me.ctl ∧ t.mem = s.mem ∧ r s t
      let field := fun (old mask : Word) (r : Word → State → State → Prop) =>
        let into := fun (v : Word) => (old &&& ~~~mask) ||| (v &&& mask)
        sets (.ctlw n a) (r (into x)) ∧ sets (.ctls n a) (r (into (old ||| x))) ∧ sets (.ctlc n a) (r (into (old &&& ~~~x)))
      (n = 0x01B → alone → field y.mbtmo 0xFFFFFFFF fun v _ t => t.myTile.sync.mbtmo = v) ∧
      (n = 0x01A → alone → y.mbWait = [] → field y.mbarcfg 0x8FFFFFFF fun v _ t => t.myTile.sync.mbarcfg = v) ∧
      (n = 0x01C → s.cur.2 = sysCtx → alone → field y.fetmo 0xFFFFFFFF fun v _ t =>
        t.myTile.sync.fetmo = if v.toNat < 256 then 256#32 else v) ∧
      (n = 0x019 → s.cur.2 = sysCtx → alone → field (BitVec.ofNat 32 s.myTile.scratchcfg) 0x3E3 fun v s t =>
        if v.toNat / 32 % 32 ≤ 24 then t.myTile.inboxU = v.toNat % 4 ∧ t.myTile.segU = v.toNat / 32 % 32
        else t.myTile.inboxU = s.myTile.inboxU ∧ t.myTile.segU = s.myTile.segU) ∧
      (n = 0x01B → isPath s.cur.2 = false → sets (.ctlw n a) fun _ t => t.myTile.sync.mbtmo = x) ∧
      (n = 0x01B → isPath s.cur.2 = true → (∃ p ∈ y.ctlPend, p.1 = s.tileCycle ∧ p.2.1 = n ∧ p.2.2.2 = true) →
        ∀ i ∈ [Instr.ctlw n a, .ctls n a, .ctlc n a], sets i fun s t => t.myTile.sync = s.myTile.sync)) ∧
  (∀ (s : State) (d n : Nat),
      ((0x01C < n ∧ n < 0x100) ∨ 0x17F < n → ∃ t, exec (.ctlr d n) s = .next t ∧ s.takesIllegal t) ∧
      ((n ∉ [0x007, 0x008, 0x009, 0x00A, 0x014, 0x018, 0x01A, 0x01B] ∧ s.cur.2 ≠ sysCtx) →
        ∀ i ∈ [Instr.ctlw n d, .ctls n d, .ctlc n d], ∃ t, exec i s = .next t ∧ s.takesIllegal t) ∧
      (n = 0x00A → d % 2 = 1 → d ≠ 63 → isPath s.cur.2 = true →
        ∀ i ∈ [Instr.ctlw n d, .ctls n d, .ctlc n d], ∃ t, exec i s = .next t ∧ s.takesIllegal t))

/-- R387, R362: NOP has no effect; YIELD makes a wave be passed over once and is a NOP in a path thread. R294, R295, R389, R390: BKPT,
TRAP and SVC take their traps, exact, with TRAPADDR the PC; SVC keeps its function number with the context for the supervisor. R391: UIRET
goes to UIPC[47:0] and clears VALID, with the execution mask unchanged; without VALID it raises ILLEGAL. R388: EXIT waits while an
in-flight counter is not zero; once the counters are zero and the attached instructions have completed it ends its context, releases its
mutexes, and makes its launch look at its commit. R392, R301: RESUME in the system slot with a trap in hand restarts the context of that
trap: after SVC at the next instruction, and after another exact cause at the trapping one; with no trap in hand it raises ILLEGAL. -/
def Obligations.TrapsAndReturns : Prop :=
  (∀ s : State, s.fits .A [] [] →
      s.gives .nop 4 id ∧ s.gives .nop16 2 id ∧
      ∀ i len, (i = .yield ∧ len = 4) ∨ (i = .yield16 ∧ len = 2) →
        (isPath s.cur.2 = true → s.gives i len id) ∧
        (isPath s.cur.2 = false → s.gives i len fun k => { k with yielded := true })) ∧
  (∀ s : State, s.fits .A [] [] →
      (∀ i, (i = .bkpt ∨ i = .bkpt16 ∨ ∃ code, i = .trap code) →
        ∃ t, exec i s = .next t ∧ s.trapped t causeBkpt 0 0 s.me.regs.pc.toNat ∧ t.me.waitOn = s.me.waitOn) ∧
      ∀ fn, ∃ t, exec (.svc fn) s = .next t ∧ s.trapped t causeSvc 0 0 s.me.regs.pc.toNat ∧
        fget? t.me.waitOn s.me.regs.pc.toNat = some fn) ∧
  (∀ s : State, s.fits .A [] [] → ∀ i, i = .uiret ∨ i = .uiret16 →
      (s.me.ctl.uipc.msb = true → ∃ t, exec i s = .next t ∧ t.me.regs = { s.me.regs with pc := s.me.ctl.uipc.extractLsb' 0 48 } ∧
        t.me.ctl = { s.me.ctl with uipc := s.me.ctl.uipc &&& 0x7FFFFFFFFFFFFFFF#64 } ∧ t.mem = s.mem ∧
        (s.me.uiq = [] → t.pending = s.pending)) ∧
      (s.me.ctl.uipc.msb = false → ∃ t, exec i s = .next t ∧ s.takesIllegal t)) ∧
  (∀ s : State, s.fits .A [] [] → ∀ i, i = .exit ∨ i = .exit16 →
      (s.me.quiet = false → exec i s = .next s) ∧
      (s.me.quiet = true → s.me.attachedDone = true → ∃ t, exec i s = .next t ∧ t.me.status = .idle ∧ t.me.uiq = [] ∧
        t.me.ctl.uipc = 0 ∧ t.me.gang = none ∧ (∀ p ∈ t.myTile.sync.mutex, p.2 ≠ s.cur.2) ∧
        ⟨.commitRequest, { lidx := s.me.lidx }⟩ ∈ t.pending)) ∧
  (∀ (s : State), s.fits .S [] [] →
      (s.myTile.hand = none → ∃ t, exec .resume s = .next t ∧ s.takesIllegal t) ∧
      (∀ h, s.myTile.hand = some h → h.ctx ≠ sysCtx → (s.ctx s.cur.1 h.ctx).status = .trapped → (s.ctx s.cur.1 h.ctx).deferred = [] →
        (s.ctx s.cur.1 h.ctx).mst = false → (s.ctx s.cur.1 h.ctx).rep = none → (s.ctx s.cur.1 h.ctx).ring = [] →
        h.cause ≠ causeLateVector → h.cause ≠ causeLateMatrix →
        ∃ t, exec .resume s = .next t ∧ t.myTile.hand = none ∧ (t.ctx s.cur.1 h.ctx).status = .ready ∧
          (t.ctx s.cur.1 h.ctx).regs = { (s.ctx s.cur.1 h.ctx).regs with
            pc := (s.ctx s.cur.1 h.ctx).regs.pc + (if h.cause = causeSvc then 4#48 else 0) } ∧ t.mem = s.mem))

/-- R251, R252, R393: the statuses of GJOIN and GLEAVE, poison 0, and the membership that follows. R253: the statuses of QGIVE and QTAKE,
and the registers that move with their contents when they succeed. -/
def Obligations.GangsAndQuotas : Prop :=
  (∀ (s : State) (d n : Nat), s.fits .W (sr d) [] →
      (s.me.gang.isSome = true → s.writes (.gjoin d n) 4 d 8) ∧
      (s.me.gang = none → ∀ g, s.myTile.gang? n = some g →
        (g.lidx ≠ s.me.lidx → s.writes (.gjoin d n) 4 d 7) ∧
        (g.lidx = s.me.lidx → g.members.length = 32 → s.writes (.gjoin d n) 4 d 6) ∧
        (g.lidx = s.me.lidx → g.members.length ≠ 32 → ∃ t, exec (.gjoin d n) s = .next t ∧
          t.me = ({ s.me with gang := some n }.wr d 0).retire 4 ∧
          t.myTile.gang? n = some { g with members := g.members ++ [s.cur.2] } ∧ t.mem = s.mem)) ∧
      (s.me.gang = none → s.myTile.gang? n = none → ∃ t, exec (.gjoin d n) s = .next t ∧
        t.me = ({ s.me with gang := some n }.wr d 0).retire 4 ∧
        (∃ g, t.myTile.gang? n = some g ∧ g.members = [s.cur.2] ∧ g.lidx = s.me.lidx ∧ g.pool = []) ∧ t.mem = s.mem) ∧
      (s.me.gang = none → s.writes (.gleave d) 4 d 1) ∧
      (∀ g, s.me.gang = some g → ∃ t, exec (.gleave d) s = .next t ∧ t.me.gang = none ∧
        (d ≠ 63 → t.me.raw d = 0 ∧ t.me.psn d = false) ∧ t.mem = s.mem)) ∧
  (∀ (s : State) (d j : Nat), s.fits .W (sr d) [] → j < 6 →
      (s.me.gang = none → s.writes (.qgive d j) 4 d 1 ∧ s.writes (.qtake d j) 4 d 1) ∧
      (∀ g b m, s.me.gang = some g → s.me.regs.blocks.getLast? = some (b, m) →
        (m ≠ 2 ^ j → s.writes (.qgive d j) 4 d 2) ∧
        (m = 2 ^ j → s.me.regs.q = 8 * 2 ^ j → s.writes (.qgive d j) 4 d 3) ∧
        (m = 2 ^ j → s.me.regs.q ≠ 8 * 2 ^ j → (∀ e ∈ s.me.busyV, e.1 < s.me.regs.q - 8 * 2 ^ j) →
          ∃ t, exec (.qgive d j) s = .next t ∧ t.me.regs.q = s.me.regs.q - 8 * 2 ^ j ∧
            t.me.regs.blocks = s.me.regs.blocks.dropLast ∧ (d ≠ 63 → t.me.raw d = 0 ∧ t.me.psn d = false) ∧
            (∀ r, r < t.me.regs.q → t.me.vreg r = s.me.vreg r) ∧ t.mem = s.mem)) ∧
      (∀ g y, s.me.gang = some g → s.myTile.gang? g = some y →
        (256 < s.me.regs.q + 8 * 2 ^ j → s.writes (.qtake d j) 4 d 5) ∧
        (s.me.regs.q + 8 * 2 ^ j ≤ 256 → y.pool.length < 2 ^ j → s.writes (.qtake d j) 4 d 4) ∧
        (s.me.regs.q + 8 * 2 ^ j ≤ 256 → 2 ^ j ≤ y.pool.length → ∀ b, y.block (2 ^ j) = some b →
          ∃ t, exec (.qtake d j) s = .next t ∧ t.me.regs.q = s.me.regs.q + 8 * 2 ^ j ∧
            t.me.regs.blocks = s.me.regs.blocks ++ [(b, 2 ^ j)] ∧ (d ≠ 63 → t.me.raw d = 0 ∧ t.me.psn d = false) ∧
            (∀ r, r < s.me.regs.q → t.me.vreg r = s.me.vreg r) ∧
            (∀ r, r < 8 * 2 ^ j → t.me.vreg (s.me.regs.q + r) = ((fget y.pool (b + r / 8) []).getD (r % 8) VReg.zero)) ∧ t.mem = s.mem)))

/-- R347, R348, R352: an instruction of a class that its context may not issue, and one that names a scalar from s16 up in a path thread,
raise ILLEGAL, exact, at the PC, and have no effect. R178, R305: a use of a poisoned scalar: under STRICT it sets the launch's sticky flag
and raises POISON_USE at the PC with no effect; under LENIENT the operand is taken as zero, POISONZ counts one for each poisoned operand,
and the result has poison 0. -/
def Obligations.LegalityAndPoison : Prop :=
  (∀ (s : State),
      (isPath s.cur.2 = true → ∀ i, (i = .vreconv ∨ (∃ c a o, i = .brm c a o) ∨ (∃ f u a o, i = .vbr f u a o) ∨ (∃ d n, i = .gjoin d n) ∨
          (∃ d, i = .gleave d) ∨ (∃ d n, i = .qgive d n) ∨ (∃ d n, i = .qtake d n) ∨ (∃ rm k d a, i = .vsqrt rm k d a)) →
        ∃ t, exec i s = .next t ∧ s.takesIllegal t) ∧
      (isPath s.cur.2 = false → ∀ i, ((∃ c d a b, i = .cmp c d a b) ∨ (∃ d a b, i = .pand d a b) ∨ (∃ d a b, i = .por d a b) ∨
          (∃ d a, i = .pnot d a) ∨ (∃ f a o, i = .brp f a o)) → ∃ t, exec i s = .next t ∧ s.takesIllegal t) ∧
      (s.cur.2 ≠ sysCtx → ∃ t, exec .resume s = .next t ∧ s.takesIllegal t) ∧
      (isPath s.cur.2 = true → ∀ d a b, (∃ r ∈ [d, a, b], 16 ≤ r ∧ r < 63) → ∃ t, exec (.add d a b) s = .next t ∧ s.takesIllegal t)) ∧
  (∀ (s : State) (d a : Nat), a < 63 → Class.A.allows s.cur.2 = true → scalarsOk s.cur.2 (sr d ++ sr a) = true →
      s.me.busySAny (sr d ++ sr a) = false → s.me.psn a = true →
      (s.lenient s.me.lidx = false → ∃ t, exec (.addi d a 1) s = .next t ∧ t.me.status = .trapped ∧
        t.me.ctl.trapcause = trapcauseWord causePoison 0 0 ∧ t.me.regs = s.me.regs ∧ t.mem = s.mem ∧
        (t.launch s.me.lidx).sticky = true) ∧
      (s.lenient s.me.lidx = true → s.me.counted = [] → ∃ t, exec (.addi d a 1) s = .next t ∧ t.me.regs = ((s.me.wr d 1).retire 4).regs ∧
        (t.launch s.me.lidx).att.poisonz = min (2 ^ 32 - 1) ((s.launch s.me.lidx).att.poisonz + 1) ∧ t.mem = s.mem))

/-- R319: the elements of a packed lane: element j of a lane computed element by element is what the function gave for j, and every flag
that some element raises is raised. R318, R329, R330: the special values of the floating-point arithmetic, for f32, f16 and bf16 in every
mode: a NaN operand gives the canonical NaN of the type, infinity minus infinity and zero times infinity give NaN with IV, and VMIN and
VMAX pass over a NaN and order minus zero below plus zero. R409: the identities and the combination of two values, by operation and type. -/
def Obligations.FormatsAndFolds : Prop :=
  (∀ (t : Ty) (f : Nat → Nat × Flags), (∀ j, (f j).1 < 2 ^ t.width) →
      (∀ j, j < 32 / t.width → elem t.width j (elemwise t.width f).1 = (f j).1) ∧
      ∀ b, b < 6 → ((elemwise t.width f).2.getLsbD b = true ↔ ∃ j, j < 32 / t.width ∧ (f j).2.getLsbD b = true)) ∧
  (∀ (t : Ty) (r : Rnd) (z : Bool) (a b c : Nat), t.fArith = true →
      let v := fun x => readV t z x
      let nan := (fmtOf t).nanCode
      ((v a).isNaN = true ∨ (v b).isNaN = true →
        (fAdd t r z a b).1 = nan ∧ (fSub t r z a b).1 = nan ∧ (fMul t r z a b).1 = nan ∧ (fFma t r z a b c).1 = nan) ∧
      ((v c).isNaN = true → (fFma t r z a b c).1 = nan) ∧
      (∀ n, v a = .inf n → v b = .inf n → fSub t r z a b = (nan, flagIV)) ∧
      (∀ n, v a = .inf n → v b = .inf (!n) → fAdd t r z a b = (nan, flagIV)) ∧
      (∀ n, v a = .inf n → (v b).isZero = true → fMul t r z a b = (nan, flagIV) ∧ fMul t r z b a = (nan, flagIV)) ∧
      (∀ mx, ((v a).isNaN = true → (v b).isNaN = true → fMinMax t mx z a b = nan) ∧
        ((v a).isNaN = true → (v b).isNaN = false → (fmtOf t).val (fMinMax t mx z a b) = v b) ∧
        ((v a).isNaN = false → (v b).isNaN = true → (fmtOf t).val (fMinMax t mx z a b) = v a)) ∧
      ((v a).isZero = true → (v b).isZero = true → (v a).neg = true → (v b).neg = false →
        ((fmtOf t).val (fMinMax t false z a b)).neg = true ∧ ((fmtOf t).val (fMinMax t true z a b)).neg = false)) ∧
  ((∀ x y : Word, (combine .add .i32 x y).1 = x + y ∧ (combine .add .n32 x y).1 = x + y ∧
      (combine .min .i32 x y).1 = (if x.slt y then x else y) ∧ (combine .max .i32 x y).1 = (if x.slt y then y else x) ∧
      (combine .min .n32 x y).1 = (if x.ult y then x else y) ∧ (combine .max .n32 x y).1 = (if x.ult y then y else x) ∧
      (∀ t, (combine .and t x y).1 = x &&& y ∧ (combine .or t x y).1 = x ||| y ∧ (combine .xor t x y).1 = x ^^^ y) ∧
      combine .add .f32 x y = (BitVec.ofNat 32 (fAdd .f32 .rne false x.toNat y.toNat).1, (fAdd .f32 .rne false x.toNat y.toNat).2)) ∧
    foldId .add .f32 = 0 ∧ foldId .add .i32 = 0 ∧ foldId .min .f32 = 0x7F800000#32 ∧ foldId .max .f32 = 0xFF800000#32 ∧
    foldId .min .i32 = 0x7FFFFFFF#32 ∧ foldId .max .i32 = 0x80000000#32 ∧ foldId .min .n32 = 0xFFFFFFFF#32 ∧ foldId .max .n32 = 0 ∧
    foldId .and .b32 = 0xFFFFFFFF#32 ∧ foldId .or .b32 = 0 ∧ foldId .xor .b32 = 0)

/-- R329, R403, R400 to R402: the floating-point lane arithmetic dispatches, element by element of the type, in the mode of its rounding
field, with FTZ as FPMODE has it; inactive lanes keep their values. R331, R404: the five FP32 functions dispatch, lane by lane. -/
def Obligations.VectorFloatingPoint : Prop :=
  (∀ (s : State) (t : Ty) (rm : Nat) (o : MaskOp) (d a b c : Nat),
      let el := s.me.el t
      let r := s.me.rnd rm
      let z := s.me.ftz
      (s.laneFits o d [a, b] →
        s.lanesE (.vadd t rm o d a b) t o d (fun l j => fAdd t r z (el a l j) (el b l j)) ∧
        s.lanesE (.vsub t rm o d a b) t o d (fun l j => fSub t r z (el a l j) (el b l j)) ∧
        s.lanesE (.vmul t rm o d a b) t o d (fun l j => fMul t r z (el a l j) (el b l j)) ∧
        s.lanesE (.vmin t o d a b) t o d (fun l j => (fMinMax t false z (el a l j) (el b l j), noFlags)) ∧
        s.lanesE (.vmax t o d a b) t o d (fun l j => (fMinMax t true z (el a l j) (el b l j), noFlags))) ∧
      (s.laneFits o d [a, b, c] →
        s.lanesE (.vfma t rm o d a b c) t o d (fun l j => fFma t r z (el a l j) (el b l j) (el c l j))) ∧
      (s.laneFits o d [a] →
        s.lanesE (.vabs t o d a) t o d (fun l j => (fAbs t (el a l j), noFlags)) ∧
        s.lanesE (.vneg t o d a) t o d (fun l j => (fNeg t (el a l j), noFlags)))) ∧
  (∀ (s : State) (rm : Nat) (o : MaskOp) (d a : Nat), s.laneFits o d [a] →
      let go := fun (i : Instr) (f : FVal → FVal × Flags) =>
        s.lanesE i .f32 o d fun l _ => fUnary f (s.me.rnd rm) s.me.ftz ((s.me.vreg a).lane l).toNat
      go (.vrcp rm o d a) rcpF ∧ go (.vrsq rm o d a) rsqF ∧ go (.vsqrt rm o d a) sqrtF ∧ go (.vexp2 rm o d a) exp2F ∧
      go (.vlog2 rm o d a) log2F)

/-- R405: the integer lane arithmetic dispatches: each element exact, then modulo 2^w, or clamped to the type's range with .sat. R406:
logic and shifts over whole lanes, by a register and by an immediate; an amount of 32 or more shifts everything out. -/
def Obligations.VectorIntegersAndLogic : Prop :=
  (∀ (s : State) (t : Ty) (o : MaskOp) (d a b c : Nat), t.iArith = true →
      let x := fun l j => intVal t (s.me.el t a l j)
      let y := fun l j => intVal t (s.me.el t b l j)
      let mod := fun v : Int => ((v % (2 ^ t.width : Nat)).toNat, noFlags)
      let clamp := fun v : Int => mod (max (intMin t) (min (intMax t) v))
      (s.laneFits o d [a, b] →
        s.lanesE (.viadd false t o d a b) t o d (fun l j => mod (x l j + y l j)) ∧
        s.lanesE (.viadd true t o d a b) t o d (fun l j => clamp (x l j + y l j)) ∧
        s.lanesE (.visub false t o d a b) t o d (fun l j => mod (x l j - y l j)) ∧
        s.lanesE (.visub true t o d a b) t o d (fun l j => clamp (x l j - y l j)) ∧
        s.lanesE (.vimul false t o d a b) t o d (fun l j => mod (x l j * y l j)) ∧
        (t.width = 32 → s.lanesE (.vimul true t o d a b) t o d (fun l j => mod (x l j * y l j / 2 ^ 32))) ∧
        s.lanesE (.vimin t o d a b) t o d (fun l j => mod (min (x l j) (y l j))) ∧
        s.lanesE (.vimax t o d a b) t o d (fun l j => mod (max (x l j) (y l j)))) ∧
      (s.laneFits o d [a, b, c] →
        s.lanesE (.vimad t o d a b c) t o d (fun l j => mod (x l j * y l j + intVal t (s.me.el t c l j))))) ∧
  (∀ (s : State) (o : MaskOp) (d a b : Nat),
      let x := fun l => (s.me.vreg a).lane l
      let y := fun l => (s.me.vreg b).lane l
      let shl := fun (v : Word) n => if n < 32 then v <<< n else 0
      let shr := fun (v : Word) n => if n < 32 then v >>> n else 0
      let sra := fun (v : Word) n => if n < 32 then v.sshiftRight n else if v.msb then 0xFFFFFFFF#32 else 0
      (s.laneFits o d [a, b] →
        s.lanesW (.vand o d a b) o d (fun l => x l &&& y l) ∧ s.lanesW (.vor o d a b) o d (fun l => x l ||| y l) ∧
        s.lanesW (.vxor o d a b) o d (fun l => x l ^^^ y l) ∧
        s.lanesW (.vshl o d a (.reg b)) o d (fun l => shl (x l) (y l).toNat) ∧
        s.lanesW (.vshr o d a (.reg b)) o d (fun l => shr (x l) (y l).toNat) ∧
        s.lanesW (.vsra o d a (.reg b)) o d (fun l => sra (x l) (y l).toNat)) ∧
      (s.laneFits o d [a] →
        s.lanesW (.vnot o d a) o d (fun l => ~~~x l) ∧
        ∀ n, n < 32 → s.lanesW (.vshl o d a (.imm n)) o d (fun l => shl (x l) n) ∧
          s.lanesW (.vshr o d a (.imm n)) o d (fun l => shr (x l) n) ∧ s.lanesW (.vsra o d a (.imm n)) o d (fun l => sra (x l) n)))

/-- R407: VCMP and VFCMP dispatch with bit l of the mask register written for each active lane l, and the other bits as they were; VCMP
sets no flag. R408, R410: the moves of lanes: VSEL, VMOV, VBCAST, VSHUF and VLANE, which pass the poison of what they move. -/
def Obligations.VectorComparesAndMoves : Prop :=
  (∀ (s : State) (o : MaskOp) (d a b : Nat), s.attaches { v := [a, b], m := [o.k, d] } (s.me.vecUses [a, b] (s.me.active o)) →
      let act := s.me.active o
      let ans := fun (i : Instr) (fl : Nat → Flags) (g : Nat → Prop) => ∃ (w : Word) (f : Flags),
        exec i s = .next (s.dispatched { ws := [.m d w], flags := f }) ∧ flagsOf act f fl ∧
        ∀ l, l < 32 → (act.getLsbD l = true → (w.getLsbD l = true ↔ g l)) ∧
          (act.getLsbD l = false → w.getLsbD l = (s.me.mreg d).getLsbD l)
      let x := fun t l => intVal t ((s.me.vreg a).lane l).toNat
      let y := fun t l => intVal t ((s.me.vreg b).lane l).toNat
      let none := fun _ => noFlags
      (∀ t, t = .i32 ∨ t = .n32 →
        ans (.vcmp .eq t o d a b) none (fun l => x t l = y t l) ∧ ans (.vcmp .ne t o d a b) none (fun l => x t l ≠ y t l) ∧
        ans (.vcmp .lt t o d a b) none (fun l => x t l < y t l) ∧ ans (.vcmp .le t o d a b) none (fun l => x t l ≤ y t l) ∧
        ans (.vcmp .gt t o d a b) none (fun l => y t l < x t l) ∧ ans (.vcmp .ge t o d a b) none (fun l => y t l ≤ x t l)) ∧
      let u := fun l => readV .f32 s.me.ftz ((s.me.vreg a).lane l).toNat
      let v := fun l => readV .f32 s.me.ftz ((s.me.vreg b).lane l).toNat
      let un := fun l => (u l).isNaN = true ∨ (v l).isNaN = true
      let sig := fun l => if (u l).isNaN || (v l).isNaN then flagIV else noFlags
      let lt := fun l => ¬ un l ∧ ltV (u l) (v l) = true
      let gt := fun l => ¬ un l ∧ ltV (v l) (u l) = true
      let eq := fun l => ¬ un l ∧ eqV (u l) (v l) = true
      ans (.vfcmp .eq o d a b) none eq ∧ ans (.vfcmp .ne o d a b) none (fun l => ¬ eq l) ∧
      ans (.vfcmp .lt o d a b) none lt ∧ ans (.vfcmp .le o d a b) none (fun l => lt l ∨ eq l) ∧
      ans (.vfcmp .gt o d a b) none gt ∧ ans (.vfcmp .ge o d a b) none (fun l => gt l ∨ eq l) ∧
      ans (.vfcmp .un o d a b) none un ∧ ans (.vfcmp .ord o d a b) none (fun l => ¬ un l) ∧
      ans (.vfcmp .lts o d a b) sig lt ∧ ans (.vfcmp .les o d a b) sig (fun l => lt l ∨ eq l) ∧
      ans (.vfcmp .gts o d a b) sig gt ∧ ans (.vfcmp .ges o d a b) sig (fun l => gt l ∨ eq l)) ∧
  (∀ (s : State) (o : MaskOp) (d a b c : Nat),
      let lane := fun r l => (((s.me.vreg r).lane l, (s.me.vreg r).bad l, noFlags) : Word × Bool × Flags)
      (s.attaches { v := [d, a, b], m := [o.k, c] } 0 →
        s.lanes (.vsel o d a b c) o d fun l => if (s.me.mreg c).getLsbD l then lane a l else lane b l) ∧
      (s.attaches { v := [d, a], m := [o.k] } 0 →
        s.lanes (.vmov o d a) o d (lane a) ∧
        ∀ n, n < 32 →
          s.lanes (.vshuf (.xor n) o d a) o d (fun l => lane a (l ^^^ n)) ∧
          s.lanes (.vshuf (.up n) o d a) o d (fun l => lane a (if n ≤ l then l - n else l)) ∧
          s.lanes (.vshuf (.down n) o d a) o d (fun l => lane a (if l + n ≤ 31 then l + n else l))) ∧
      (s.attaches { v := [d, a, b], m := [o.k] } (s.me.vecUses [b] (s.me.active o)) →
        s.lanes (.vshuf (.idx b) o d a) o d fun l => lane a (((s.me.vreg b).lane l).toNat % 32)) ∧
      (s.attaches { s := sr a, v := [d], m := [o.k] } 0 →
        s.lanes (.vbcast o d a) o d fun _ => (s.me.raw a, s.me.psnAny (sr a), noFlags)) ∧
      (s.attaches { v := [d], m := [o.k] } 0 → s.lanes (.vlane (.id o d)) o d fun l => (BitVec.ofNat 32 l, false, noFlags)) ∧
      (s.attaches { s := sr d ++ sr b, v := [a] } (s.me.poisonedUses [sr b]) →
        let l := (s.me.raw b).toNat % 32
        exec (.vlane (.get d a b)) s = .next (s.dispatched { ws := [.s d ((s.me.vreg a).lane l) ((s.me.vreg a).bad l)] })) ∧
      (s.attaches { s := sr a ++ sr b, v := [d] } (s.me.poisonedUses [sr b]) →
        ∃ y : VReg, exec (.vlane (.put d a b)) s = .next (s.dispatched { ws := [.v d y] }) ∧
          ∀ l, l < 32 → (y.lane l, y.bad l) = if l = (s.me.raw b).toNat % 32 then (s.me.raw a, s.me.psnAny (sr a))
            else ((s.me.vreg d).lane l, (s.me.vreg d).bad l)))

/-- R409, R410: VRED, VSCAN and VBALLOT: the active lanes combined one by one in lane order, the first entering unchanged, and the
identity where there is none. R325, R326, R411, R412: conversions: one lane's element, elements packed from several registers, and
elements spread over several; with rounding code 4 each element takes the next number of the generator in lane order, and the generator
has moved on by as many. -/
def Obligations.ReductionsAndConversions : Prop :=
  (∀ (s : State) (op : AtomOp) (t : Ty) (o : MaskOp) (d a : Nat), op.foldTakes t = true →
      let fold := fun (xs : List Word) => match xs with
        | [] => foldId op t
        | x :: rest => rest.foldl (fun acc y => (combine op t acc y).1) x
      (s.attaches { s := sr d, v := [a], m := [o.k] } (s.me.vecUses [a] (s.me.active o)) →
        (∃ fl : Flags, exec (.vred op t o d a) s =
          .next (s.dispatched { ws := [.s d (fold (s.me.activeVals o a 32)) false], flags := fl })) ∧
        ∃ w : Word, exec (.vballot o d a) s = .next (s.dispatched { ws := [.s d w false] }) ∧
          ∀ l, l < 32 → (w.getLsbD l = true ↔ (s.me.active o).getLsbD l = true ∧ (s.me.vreg a).lane l ≠ 0)) ∧
      (s.attaches { v := [d, a], m := [o.k] } (s.me.vecUses [a] (s.me.active o)) → ∀ excl : Bool,
        ∃ (y : VReg) (fl : Flags), exec (.vscan op excl t o d a) s = .next (s.dispatched { ws := [.v d y], flags := fl }) ∧
          y.onLanes (s.me.vreg d) (s.me.active o) fun l => (fold (s.me.activeVals o a (if excl then l else l + 1)), false))) ∧
  (∀ (s : State) (dt sy : Ty) (rm : Nat) (o : MaskOp) (d a : Nat),
      let act := s.me.active o
      let below := fun l => ((List.range l).filter act.getLsbD).length
      let num := fun n => rngNum (rngAfter (n + 1) s.me.ctl.rngseed)
      let code := s.me.rmCode rm true
      let cv := fun n (x : Word) => convert dt sy (rndOf code (num n)) s.me.sat8 x.toNat
      let left := fun n => if code = 4 then some (rngAfter n s.me.ctl.rngseed) else none
      (s.attaches { v := [d, a], m := [o.k] } (s.me.vecUses [a] act) →
        s.lanes (.vcvt dt sy rm o d a) o d
          (fun l => let r := cv (below l) ((s.me.vreg a).lane l); (BitVec.ofNat 32 r.1, false, r.2)) (left (below 32))) ∧
      (let n := 32 / dt.width
       let srcs := (List.range n).map (a + ·)
       s.attaches { v := d :: srcs, m := [o.k] } (s.me.vecUses srcs act) →
        s.lanes (.vpack dt sy rm o d a) o d
          (fun l => let r := elemwise dt.width fun j => cv (below l * n + j) ((s.me.vreg (a + j)).lane l); (r.1, false, r.2))
          (left (below 32 * n))) ∧
      (let n := 32 / sy.width
       s.attaches { v := a :: (List.range n).map (d + ·), m := [o.k] } (s.me.vecUses [a] act) →
        ∃ ys : List VReg, ys.length = n ∧
          exec (.vunpack dt sy o d a) s = .next (s.dispatched { ws := (List.range n).map fun j => .v (d + j) (ys.getD j VReg.zero) }) ∧
          ∀ j, j < n → (ys.getD j VReg.zero).onLanes (s.me.vreg (d + j)) act fun l =>
            (BitVec.ofNat 32 (unpackElem dt sy (s.me.el sy a l j)), false)))

/-- R332, R333, R413, R414: VDOT without blocks, one dot product a lane, integers modulo 2^32 and floats with one rounding of the group;
and with blocks, one scaled dot product over the wave, added to each active lane's addend. R415 to R417: VUNIF, VMORTON (bit by bit of the
clamped coordinates) and VHASH. R418: the mask operations act on all 32 bits, with a mask or a scalar as the second source; MPOP counts
and MFIRST finds the lowest. -/
def Obligations.DotsKeysAndMasks : Prop :=
  (∀ (s : State) (t : Ty) (o : MaskOp) (d a b c : Nat),
      (s.laneFits o d [a, b, c] → t.dotTy = true →
        let n := 32 / t.width
        let z := fun l => (s.me.vreg c).lane l
        (t.isInt = true → s.lanesW (.vdot t 0 false none o d a b c) o d fun l =>
          BitVec.ofInt 32 ((z l).toNat + ((List.range n).map fun j => intVal t (s.me.el t a l j) * intVal t (s.me.el t b l j)).sum)) ∧
        (t.isFloat = true → s.lanes (.vdot t 0 false none o d a b c) o d fun l =>
          let r := accGroup (z l).toNat (sumV ((List.range n).map fun j =>
            mulV ((fmtOf t).val (s.me.el t a l j)) ((fmtOf t).val (s.me.el t b l j))))
          (BitVec.ofNat 32 r.1, false, r.2))) ∧
      (∀ (blk : Nat) (se : Bool) (ts : Option Nat) (n : Nat), 1 ≤ blk → blk < 4 → t.blockable = true →
        let w := blockSize blk / (32 / t.width)
        let act := s.me.active o
        let sc := bitsOf 0xFFFFFFFF#32 0#32 fun l => (liveBlocks act w).any fun i => i / 4 == l
        n = s.me.laneUses [(a, act), (b, act), (c, act), (a + 1, sc), (b + 1, sc)] + s.me.poisonedUses ((tsRegs ts).map sr) → act ≠ 0 →
        s.attaches { s := tsRegs ts, v := [d, a, b, c, a + 1, b + 1], m := [o.k] } n →
        ∃ (y : VReg) (fl : Flags), exec (.vdot t blk se ts o d a b c) s = .next (s.dispatched { ws := [.v d y], flags := fl }) ∧
          y.onLanes (s.me.vreg d) act fun l =>
            (BitVec.ofNat 32 (f32Add (s.me.dotBlocks t blk se ts a b act).1 ((s.me.vreg c).lane l).toNat).1, false))) ∧
  (∀ (s : State) (o : MaskOp) (d a b c : Nat),
      (s.attaches { s := sr d, v := [a] } 0 → ∃ w : Word, exec (.vunif d a) s = .next (s.dispatched { ws := [.s d w false] }) ∧
        ((∀ l, l < 32 → (s.me.vreg a).lane l = (s.me.vreg a).lane 0 ∧ (s.me.vreg a).bad l = (s.me.vreg a).bad 0) → w = 1) ∧
        ((∃ l, l < 32 ∧ ((s.me.vreg a).lane l ≠ (s.me.vreg a).lane 0 ∨ (s.me.vreg a).bad l ≠ (s.me.vreg a).bad 0)) → w = 0)) ∧
      (∀ t, t = .i32 ∨ t = .n32 →
        let co := fun (mx : Nat) r l => (max 0 (min (mx : Int) (intVal t ((s.me.vreg r).lane l).toNat))).toNat
        (s.laneFits o d [a, b, c] → ∃ g : Nat → Word, s.lanesW (.vmorton false t o d a b c) o d g ∧ ∀ l i, l < 32 → i < 32 →
          (g l).getLsbD i = (decide (i < 30) && (co 1023 (if i % 3 = 0 then a else if i % 3 = 1 then b else c) l).testBit (i / 3))) ∧
        (s.laneFits o d [a, b] → ∃ g : Nat → Word, s.lanesW (.vmorton true t o d a b 0) o d g ∧ ∀ l i, l < 32 → i < 32 →
          (g l).getLsbD i = (co 65535 (if i % 2 = 0 then a else b) l).testBit (i / 2))) ∧
      (s.laneFits o d [a, b] → ∀ n, n < 32 → s.lanesW (.vhash n o d a b) o d fun l =>
        let h := (s.me.vreg a).lane l ^^^ (s.me.vreg b).lane l
        let h := (h ^^^ h >>> 16) * 0x2C1B3C6D#32
        let h := (h ^^^ h >>> 13) * 0x297A2D39#32
        let h := h ^^^ h >>> 16
        if n = 0 then h else h >>> (32 - n))) ∧
  (∀ (s : State) (d a b : Nat),
      let m := fun (i : Instr) (w : Word) => exec i s = .next (s.dispatched { ws := [.m d w] })
      let x := s.me.mreg a
      (s.attaches { m := [d, a, b] } 0 →
        m (.mand d a (.m b)) (x &&& s.me.mreg b) ∧ m (.mor d a (.m b)) (x ||| s.me.mreg b) ∧ m (.mxor d a (.m b)) (x ^^^ s.me.mreg b)) ∧
      (s.attaches { s := sr b, m := [d, a] } (s.me.poisonedUses [sr b]) →
        m (.mand d a (.s b)) (x &&& s.me.raw b) ∧ m (.mor d a (.s b)) (x ||| s.me.raw b) ∧ m (.mxor d a (.s b)) (x ^^^ s.me.raw b)) ∧
      (s.attaches { m := [d, a] } 0 → m (.mnot d a) (~~~x)) ∧
      (s.attaches { s := sr d, m := [a] } 0 →
        (exec (.mpop d a) s =
          .next (s.dispatched { ws := [.s d (BitVec.ofNat 32 ((List.range 32).filter fun i => x.getLsbD i).length) false] })) ∧
        ∃ n, n ≤ 32 ∧ (∀ i, i < n → x.getLsbD i = false) ∧ (n < 32 → x.getLsbD n = true) ∧
          exec (.mfirst d a) s = .next (s.dispatched { ws := [.s d (BitVec.ofNat 32 n) false] })))

/-- R298, R300, R338: an entry of UNIT 0 that completes writes its results, sets its flags, frees its registers and is DONE; the other
contexts and all of memory are as they were. R422: the value of a narrow load: sign-extended for a signed type, zero-extended for the
others. R61, R263, R308, R349, R426: a reply or an acknowledgement marks the lanes that it is for, and while others are outstanding that
is all. Once every lane has returned the destination takes its value, the registers are free, the counter falls, and the operation is
gone; while the context is trapped the reply is kept. R422, R424, R426: the value that a scalar load's reply puts into its register. -/
def Obligations.CompletionsAndReplies : Prop :=
  (∀ (s : State), let t := s.arg.tile; let c := s.arg.ctx; let q := s.arg.seq
      let k := s.ctx t c
      let e := k.entry q
      ∀ ws fl, e.seq = q → e.state = .issued → e.unit = 0 → e.work = .regs ws fl →
        ∃ u, exec .attachedComplete s = .next u ∧ (u.ctx t c).regs = (k.applyWrites ws).regs ∧
          ((u.ctx t c).entry q).state = .done ∧ (u.ctx t c).ctl = { k.ctl with fpstat := k.ctl.fpstat ||| fl.setWidth 32 } ∧
          (∀ r x, (r, x) ∈ (u.ctx t c).busyS → (r, x) ∈ k.busyS ∧ x ≠ attKey q) ∧
          (∀ r x, (r, x) ∈ (u.ctx t c).busyV → (r, x) ∈ k.busyV ∧ x ≠ attKey q) ∧ u.mem = s.mem ∧
          ∀ t' c', (t', c') ≠ (t, c) → u.ctx t' c' = s.ctx t' c') ∧
  (∀ (v : Nat),
      (v < 2 ^ 8 → extend .n8 1 v = BitVec.ofNat 32 v ∧ extend .i8 1 v = (BitVec.ofNat 8 v).signExtend 32) ∧
      (v < 2 ^ 16 → extend .n16 2 v = BitVec.ofNat 32 v ∧ extend .i16 2 v = (BitVec.ofNat 16 v).signExtend 32) ∧
      ∀ ty, extend ty 4 v = BitVec.ofNat 32 v ∧ extend ty 8 v = BitVec.ofNat 32 v) ∧
  (∀ (s : State) (o : Op), s.op? s.arg.id = some o → o.ctx ≠ orphanCtx → o.kind ≠ .fetch → o.aux ≠ [1] → o.seq = none →
      let k := s.ctx o.tile o.ctx
      let p := o.returned s.arg.lanes
      (∀ e, e ∈ p.elems ↔ ∃ f ∈ o.elems, e = { f with back := f.back || (f.done && s.arg.lanes.testBit f.lane) }) ∧
      ∀ i, i = .loadReply ∨ i = .storeAck →
        (p.allBack = false → exec i s = .next (s.setOp s.arg.id p)) ∧
        (p.allBack = true → k.status ≠ .trapped → ∃ t, exec i s = .next t ∧ t.op? s.arg.id = none ∧
          (t.ctx o.tile o.ctx).regs = (k.deliver o).regs ∧
          (∀ r x, (r, x) ∈ (t.ctx o.tile o.ctx).busyS → (r, x) ∈ k.busyS ∧ x ≠ s.arg.id) ∧
          (∀ r x, (r, x) ∈ (t.ctx o.tile o.ctx).busyV → (r, x) ∈ k.busyV ∧ x ≠ s.arg.id) ∧
          (t.ctx o.tile o.ctx).flight = (k.lower s.arg.id).flight ∧ t.mem = s.mem) ∧
        (p.allBack = true → k.status = .trapped → ∃ t, exec i s = .next t ∧ (t.ctx o.tile o.ctx).regs = k.regs ∧
          (t.ctx o.tile o.ctx).deferred = k.deferred ++ [⟨i, s.arg⟩] ∧ t.mem = s.mem)) ∧
  (∀ (k : Ctx) (o : Op) (e : Elem), o.kind = .load ∨ o.kind = .atom ∨ o.kind = .scrLoad → o.vec = false → o.elems = [e] →
      (o.w64 = false → k.deliver o = k.wrP o.dest (extend o.ty e.n e.res.toNat) (e.rpois.getLsbD 0)) ∧
      (o.w64 = true → o.dest = 63 → k.deliver o = k) ∧
      (o.w64 = true → o.dest ≠ 63 → o.dest ≤ 60 → e.n = 8 →
        (k.deliver o).raw o.dest = e.res.setWidth 32 ∧ (k.deliver o).raw (o.dest + 1) = (e.res >>> 32).setWidth 32 ∧
        ∀ r, r ≠ o.dest → r ≠ o.dest + 1 → (k.deliver o).raw r = k.raw r))

/-- R280, R349, R423, R425, R426, R434 to R436, R444: LD, ST, ATOM, RED, CINV, CFLUSH and PREF go ahead when their address is aligned and
translated and nothing holds them: one operation is issued, of one lane with the address, data and compare value of the instruction. R298,
R423, R425, R426, R428, R429, R434 to R436: VLD, VST, VGATHER, VSCATTER, VATOM and VREDM dispatch when every active lane is aligned and
translated-address space and nothing holds them: one attached operation with one element for each active lane, at the lane's address; a
VREDM combines the lanes of one word first. -/
def Obligations.GlobalAccesses : Prop :=
  (∀ (s : State) (ty : Ty) (w : Bool) (o : MemOrd) (d a b c : Nat) (off : BitVec 16) (op : AtomOp) (e : Elem),
      let n := accWidth ty w
      let va := (s.me.rawx a + off.signExtend 64).toNat
      let base := (s.me.rawx a).toNat
      let src := fun r => if w then s.me.rawx r else (s.me.raw r).setWidth 64
      let pb := fun r => (if s.me.psnAny (sr r) then 1#2 else 0#2) ||| (if w && r != 63 && s.me.psn (r + 1) then 2#2 else 0#2)
      (s.fits .A (sxr w d ++ xr a) [xr a] →
        (s.goesAhead (s.mkOp .load ty w o [] d false) 0 n va e → e.data = 0 → e.dpois = 0 → e.cmp = 0 →
          s.issuesOne (.ld ty w o d a off) (s.mkOp .load ty w o [e] d false)) ∧
        (s.goesAhead (s.mkOp .store ty w o [] d false) 1 n va e → e.data = src d → e.dpois = pb d → e.cmp = 0 →
          s.issuesOne (.st ty w o d a off) (s.mkOp .store ty w o [e] d false))) ∧
      (s.fits .A (xr a) [xr a] → e.data = 0 → e.dpois = 0 → e.cmp = 0 →
        let k := fun kind => s.mkOp kind .b32 false ⟨0, 0⟩ [] 63 false
        (s.goesAhead (k .cinv) 0 1 va e → s.issuesOne (.cinv a off) { k .cinv with elems := [e] }) ∧
        (s.goesAhead (k .cflush) 0 1 va e → s.issuesOne (.cflush a off) { k .cflush with elems := [e] }) ∧
        (s.goesAhead (k .pref) 0 1 va e → s.issuesOne (.pref a off) { k .pref with elems := [e] })) ∧
      (s.fits .A (sxr w b ++ xr a) [xr a, sxr w b] → e.data = src b → e.dpois = 0 → e.cmp = 0 →
        (s.goesAhead { s.mkOp .red ty w o [] 0 false with aop := op } 3 n base e →
          s.issuesOne (.red op ty w o a b) { s.mkOp .red ty w o [e] 0 false with aop := op }) ∧
        (op ≠ .cas → s.goesAhead { s.mkOp .red ty w o [] d false with aop := op } 3 n base e →
          s.issuesOne (.atom op true ty w o d a b c) { s.mkOp .red ty w o [e] d false with aop := op })) ∧
      (s.fits .A (sxr w d ++ sxr w b ++ (if op = .cas then sxr w c else []) ++ xr a) [xr a, sxr w b, if op = .cas then sxr w c else []] →
        e.data = src b → e.dpois = 0 → e.cmp = (if op = .cas then src c else 0) →
        s.goesAhead { s.mkOp .atom ty w o [] d false with aop := op } 2 n base e →
          s.issuesOne (.atom op false ty w o d a b c) { s.mkOp .atom ty w o [e] d false with aop := op })) ∧
  (∀ (s : State) (ty : Ty) (w : Bool) (o : MemOrd) (m : MaskOp) (d a b c sc : Nat) (off : BitVec 16) (op : AtomOp),
      let n := accWidth ty w
      let act := s.me.active m
      let disp := fun l => (s.me.rawx a + off.signExtend 64 + BitVec.ofNat 64 (l * n)).toNat
      let index := fun l => (s.me.rawx a + ((s.me.vreg b).lane l).setWidth 64 <<< sc).toNat
      let nothing := fun _ : Nat => ((0#64, 0#2, 0#64) : Dword × BitVec 2 × Dword)
      let stored := fun l => ((s.me.laneData d w l).1, (s.me.laneData d w l).2, 0#64)
      let value := fun (op : AtomOp) l => (((s.me.vreg c).lane l).setWidth 64, 0#2, if op = .cas then ((s.me.vreg d).lane l).setWidth 64 else 0#64)
      (s.attachesMem { s := xr a, v := vyr w d, m := [m.k] } (s.me.poisonedUses [xr a]) →
        (s.lanesGo (s.mkOp .load ty w o (s.elems act disp n nothing) d true) act disp n →
          s.dispatchesMem (.vld ty w o m d a off) (s.mkOp .load ty w o (s.elems act disp n nothing) d true)) ∧
        (s.lanesGo (s.mkOp .store ty w o (s.elems act disp n stored) d true) act disp n →
          s.dispatchesMem (.vst ty w o m d a off) (s.mkOp .store ty w o (s.elems act disp n stored) d true))) ∧
      (s.attachesMem { s := xr a, v := b :: vyr w d, m := [m.k] } (s.me.poisonedUses [xr a] + s.me.vecUses [b] act) →
        (∀ nf, s.lanesGo { s.mkOp .load ty w o (s.elems act index n nothing) d true with nf := nf } act index n →
          s.dispatchesMem (.vgather nf ty w sc o m d a b) { s.mkOp .load ty w o (s.elems act index n nothing) d true with nf := nf }) ∧
        (s.lanesGo (s.mkOp .store ty w o (s.elems act index n stored) d true) act index n →
          s.dispatchesMem (.vscatter ty w sc o m d a b) (s.mkOp .store ty w o (s.elems act index n stored) d true))) ∧
      (w = false → s.attachesMem { s := xr a, v := [b, c, d], m := [m.k] }
          (s.me.poisonedUses [xr a] + s.me.vecUses (b :: c :: if op = .cas then [d] else []) act) →
        let p := { s.mkOp .atom ty false o (s.elems act index n (value op)) d true with aop := op }
        s.lanesGo p act index n → s.dispatchesMem (.vatom op false ty sc o m d a b c) p) ∧
      (w = false → s.attachesMem { s := xr a, v := [b, c], m := [m.k] } (s.me.poisonedUses [xr a] + s.me.vecUses [b, c] act) →
        let p := fun es dest => { s.mkOp .red ty false o es dest true with aop := op }
        let es := s.elems act index n (value .add)
        (s.lanesGo (p (combineLanes op ty [] es) 0) act index n →
          s.dispatchesMem (.vredm op ty sc o m a b c) (p (combineLanes op ty [] es) 0)) ∧
        (op ≠ .cas → s.lanesGo (p es d) act index n → s.dispatchesMem (.vatom op true ty sc o m d a b c) (p es d))))

/-- R70, R295, R423: an access that is not aligned raises MISALIGN, and an aligned one outside the translated addresses raises ACCESS,
exact, with the address in TRAPADDR and KIND 0xF; a PREF outside them has no effect. R262, R263, R349, R426: what issuing an operation
leaves: it is in flight, its counter is one higher, the registers it will write are marked, control goes on, its time-out runs, and no
memory or other context has changed (a release at pkg or sys scope first lands the posted HOST stores). -/
def Obligations.AccessTrapsAndIssue : Prop :=
  (∀ (s : State) (ty : Ty) (w : Bool) (o : MemOrd) (d a : Nat) (off : BitVec 16), s.fits .A (sxr w d ++ xr a) [xr a] →
      let n := accWidth ty w
      let va := (s.me.rawx a + off.signExtend 64).toNat
      (va % n ≠ 0 →
        (∃ t, exec (.ld ty w o d a off) s = .next t ∧ s.trapped t causeMisalign 0 0xF va) ∧
        (∃ t, exec (.st ty w o d a off) s = .next t ∧ s.trapped t causeMisalign 1 0xF va)) ∧
      (va % n = 0 → 0xFC0000000000 ≤ va →
        (∃ t, exec (.ld ty w o d a off) s = .next t ∧ s.trapped t causeAccess 0 0xF va) ∧
        (∃ t, exec (.st ty w o d a off) s = .next t ∧ s.trapped t causeAccess 1 0xF va)) ∧
      (0xFC0000000000 ≤ va → s.gives (.pref a off) 8 id)) ∧
  (∀ (s : State) (o : Op),
      let id := s.nextId
      let t := (s.issueOp o 8).2
      (s.issueOp o 8).1 = id ∧ t.op? id = some o ∧ (∀ j, j ≠ id → t.op? j = s.op? j) ∧
      t.me.regs = (s.me.retire 8).regs ∧ t.me.ctl = s.me.ctl ∧
      (∀ c, o.kind.ctr = some c → t.me.flight = s.me.flight ++ [⟨c, id, false⟩]) ∧ (o.kind.ctr = none → t.me.flight = s.me.flight) ∧
      (o.kind.returns = true → o.vec = false → o.w64 = false → o.dest ≠ 63 → (o.dest, id) ∈ t.me.busyS) ∧
      (o.kind.returns = true → o.vec = true → (o.dest, id) ∈ t.me.busyV) ∧
      (o.kind.returns = false → t.me.busyS = s.me.busyS ∧ t.me.busyV = s.me.busyV) ∧
      t.mem.hbm = s.mem.hbm ∧ t.mem.scr = s.mem.scr ∧ t.mem.peer = s.mem.peer ∧
      (ordReleases o.ord = false → t.mem = s.mem) ∧ (ordReleases o.ord = true → 3 ≤ o.ord.scope → t.mem.posted = []) ∧
      (∀ u c, (u, c) ≠ s.cur → t.ctx u c = s.ctx u c))

/-- R304, R425, R434: memory outside a transaction and outside the mesh of copies, where HBM holds its canonical form: a store puts its
bytes at its place and leaves every other byte, a load returns the bytes there and changes nothing, and an atomic returns the old bytes
and stores new. R434: the new value of an atomic, by operation and type, on 4 and 8 bytes. -/
def Obligations.DeviceMemory : Prop :=
  (∀ (s : State) (t l cls va k a n v b cmp : Nat) (op : AtomOp) (ty : Ty) (p : Bool), s.mem.hbm.wf = true → s.shTag l cls = none →
      let after := s.storeAt t l cls va (.dev k a) n v p
      let old := s.mem.hbm.readN k n
      after.mem.hbm.readN k n = v % 2 ^ (8 * n) ∧ (∀ x, x < k ∨ k + n ≤ x → after.mem.hbm.read x = s.mem.hbm.read x) ∧
      after.mem.hbm.wf = true ∧
      (s.loadAt t l cls (.dev k a) n).1 = old ∧ (s.loadAt t l cls (.dev k a) n).2.2 = s ∧
      (s.atomAt t l cls va (.dev k a) n op ty b cmp).1 = old ∧
      (s.atomAt t l cls va (.dev k a) n op ty b cmp).2.2.mem.hbm.readN k n = atomNew op ty n old b cmp % 2 ^ (8 * n) ∧
      (∀ x, x < k ∨ k + n ≤ x → (s.atomAt t l cls va (.dev k a) n op ty b cmp).2.2.mem.hbm.read x = s.mem.hbm.read x)) ∧
  (∀ (n old b cmp : Nat), n = 4 ∨ n = 8 → old < 2 ^ (8 * n) → b < 2 ^ (8 * n) →
      let x := BitVec.ofNat (8 * n) old
      let y := BitVec.ofNat (8 * n) b
      let new := fun op ty => BitVec.ofNat (8 * n) (atomNew op ty n old b cmp)
      new .add .i32 = x + y ∧ new .add .n32 = x + y ∧
      new .min .i32 = (if y.slt x then y else x) ∧ new .max .i32 = (if x.slt y then y else x) ∧
      new .min .n32 = (if y.ult x then y else x) ∧ new .max .n32 = (if x.ult y then y else x) ∧
      (∀ ty, new .and ty = x &&& y ∧ new .or ty = x ||| y ∧ new .xor ty = x ^^^ y ∧ new .exch ty = y ∧
        new .cas ty = if old = cmp then y else x))

/-- R244, R422, R424, R430: a scalar scratch access of the issuing tile's own scratch that R244 allows and nothing holds is performed at
once: a load's register takes the bytes with their poison; a store puts the bytes of its register and their poison in place and leaves
every other byte of scratch and all other memory as it was. The migrating forms do the same where they do not move. R264, R265, R433: the
full/empty accesses of the own scratch: SYNCLD of a FULL word returns it, and with .take leaves it EMPTY; SYNCST of an EMPTY word stores
and leaves it FULL; FESET sets the bit and no data; each where no earlier access of the word is parked. R264, R265: a SYNCLD of an EMPTY
word and a SYNCST of a FULL one wait: an entry of the park table is taken, the instruction stays where it is with no register written, and
no word changes. R264 to R266, R430: one attempt of an element at its scratch port; refused accesses are violations that return zero with
poison and write nothing. -/
def Obligations.Scratchpad : Prop :=
  (∀ (s : State) (ty : Ty) (o : MemOrd) (d a off : Nat) (x : BitVec 16), ty.setW false = true →
      let n := ty.width / 8
      let va := (s.me.rawx a + x.signExtend 64).toNat
      let t := s.cur.1
      s.fits .A (sr d ++ xr a) [xr a] → s.waited = 0 → va % n = 0 → s.scrWin t va = .own off → s.scrHeld o [t] = false →
        ((s.tile t).allows s.me.lidx off n false (s.cur.2 == sysCtx) = true → ordReleases o = false →
          (∀ i, i = .sld ty false o (.disp x) d a ∨
              (i = .sldM ty false (.disp x) d a ∧ o = ⟨0, 0⟩ ∧ (isPath s.cur.2 = true → a ≤ 8)) →
            s.gives i 8 fun k => k.wrP d (extend ty n (s.scrRead t off n)) (s.scrPois t off))) ∧
        ((s.tile t).allows s.me.lidx off n true (s.cur.2 == sysCtx) = true → s.mem.scr.wf = true →
          (∀ i, i = .sst ty false o (.disp x) d a ∨
              (i = .sstM ty false (.disp x) d a ∧ o = ⟨0, 0⟩ ∧ (isPath s.cur.2 = true → a ≤ 8 ∧ d ≤ 9)) →
            ∃ u, exec i s = .next u ∧ u.me = s.me.retire 8 ∧ u.scrRead t off n = (s.me.raw d).toNat % 2 ^ (8 * n) ∧
              u.scrPois t off = s.me.psnAny (sr d) ∧
              (∀ y, y < scrKey t off ∨ scrKey t off + n ≤ y → u.mem.scr.read y = s.mem.scr.read y) ∧
              (∀ w, w ≠ scrKey t off / 4 → fget u.mem.spois w false = fget s.mem.spois w false) ∧ u.mem.full = s.mem.full ∧
              u.mem.hbm = s.mem.hbm ∧ u.mem.peer = s.mem.peer ∧ u.mem.scr.wf = true))) ∧
  (∀ (s : State) (ty : Ty) (d a off : Nat) (x : BitVec 16), ty.setS = true →
      let va := (s.me.rawx a + x.signExtend 64).toNat
      let t := s.cur.1
      s.waited = 0 → va % 4 = 0 → s.scrWin t va = .own off → (∀ o, s.scrHeld o [t] = false) → s.myTile.sync.parkedOn off = [] →
        (∀ u, s.scrFull t off = true → (s.tile t).allows s.me.lidx off 4 false (s.cur.2 == sysCtx) = true →
          s.fits .A (sr d ++ xr a) [xr a] →
          ∃ s', exec (.syncld u ty (.disp x) d a) s = .next s' ∧
            s'.me = (s.me.wrP d (BitVec.ofNat 32 (s.scrRead t off 4)) (s.scrPois t off)).retire 8 ∧
            s'.scrFull t off = (!u) ∧ s'.mem.scr = s.mem.scr ∧ s'.mem.hbm = s.mem.hbm) ∧
        (s.scrFull t off = false → (s.tile t).allows s.me.lidx off 4 true (s.cur.2 == sysCtx) = true → s.mem.scr.wf = true →
          s.fits .A (sr d ++ xr a) [xr a] →
          ∃ s', exec (.syncst ty (.disp x) d a) s = .next s' ∧ s'.me = s.me.retire 8 ∧
            s'.scrRead t off 4 = (s.me.raw d).toNat ∧ s'.scrFull t off = true ∧ s'.scrPois t off = s.me.psnAny (sr d) ∧
            (∀ y, y < scrKey t off ∨ scrKey t off + 4 ≤ y → s'.mem.scr.read y = s.mem.scr.read y) ∧ s'.mem.hbm = s.mem.hbm) ∧
        (∀ b, (s.tile t).allows s.me.lidx off 4 true (s.cur.2 == sysCtx) = true → s.fits .A (xr a) [xr a] →
          ∃ s', exec (.feset b (.disp x) a) s = .next s' ∧ s'.me = s.me.retire 8 ∧ s'.scrFull t off = b ∧
            (∀ w, w ≠ scrKey t off / 4 → fget s'.mem.full w false = fget s.mem.full w false) ∧
            s'.mem.scr = s.mem.scr ∧ s'.mem.hbm = s.mem.hbm ∧
            (s.scrFull t off ≠ b → ⟨.parkPass, { tile := t, off := off / 4 * 4 }⟩ ∈ s'.pending))) ∧
  (∀ (s : State) (ty : Ty) (d a off : Nat) (x : BitVec 16), ty.setS = true →
      let va := (s.me.rawx a + x.signExtend 64).toNat
      let t := s.cur.1
      s.waited = 0 → va % 4 = 0 → s.scrWin t va = .own off → (∀ o, s.scrHeld o [t] = false) → s.myTile.sync.park.length < 64 →
        s.fits .A (sr d ++ xr a) [xr a] → ∀ i,
          ((∃ u, i = .syncld u ty (.disp x) d a) ∧ s.scrFull t off = false ∧
              (s.tile t).allows s.me.lidx off 4 false (s.cur.2 == sysCtx) = true ∨
            i = .syncst ty (.disp x) d a ∧ s.scrFull t off = true ∧
              (s.tile t).allows s.me.lidx off 4 true (s.cur.2 == sysCtx) = true) →
          ∃ s', exec i s = .next s' ∧ s'.me.regs = s.me.regs ∧ s'.waited = 1 ∧
            (s'.myTile.sync.park.length = s.myTile.sync.park.length + 1) ∧ s'.mem.scr = s.mem.scr ∧ s'.mem.full = s.mem.full) ∧
  (∀ (s : State) (o : Op) (e : Elem) (t off : Nat) (parked : Bool),
      ((s.tile t).allows o.lidx off e.n o.kind.scrWrites (o.ctx == sysCtx) = false →
        ∃ f s', s.scrAttempt o e t off parked = some (f, s') ∧ f.done = true ∧ f.res = 0 ∧ f.rpois = poisOf true e.n ∧
          s'.mem.hbm = s.mem.hbm ∧ s'.mem.full = s.mem.full) ∧
      ((s.tile t).allows o.lidx off e.n o.kind.scrWrites (o.ctx == sysCtx) = true → parked = true →
        (∀ take, o.kind = .syncLoad take → (s.scrAttempt o e t off parked = none ↔ s.scrFull t off = false)) ∧
        (o.kind = .syncStore → (s.scrAttempt o e t off parked = none ↔ s.scrFull t off = true)) ∧
        (o.kind = .scrLoad → ∃ f, s.scrAttempt o e t off parked = some (f, s) ∧ f.done = true ∧
          f.res = BitVec.ofNat 64 (s.scrRead t off e.n) ∧ f.rpois.getLsbD 0 = s.scrPois t off)))

/-- R430: a scalar scratch load or store of another tile of the package issues as an operation and sends its request to that tile. R423,
R431: a .v scratch access of a wave whose active lanes all name scratch, aligned, dispatches as one attached operation with an element for
each active lane; local lanes are performed at the port in lane order, remote ones travel. -/
def Obligations.RemoteAndVectorScratch : Prop :=
  (∀ (s : State) (ty : Ty) (o : MemOrd) (d a off u : Nat) (x : BitVec 16), ty.setW false = true →
      let n := ty.width / 8
      let va := (s.me.rawx a + x.signExtend 64).toNat
      s.fits .A (sr d ++ xr a) [xr a] → s.waited = 0 → va % n = 0 → s.scrWin s.cur.1 va = .tile u off → u ≠ s.cur.1 →
        s.scrHeld o [u] = false → s.ctrFull .scrLoad = false →
        let e := fun (v : Dword) p => mkElem 0 va n (some (.scr u off)) v p
        let p := s.mkOp .scrLoad ty false o [e 0 0] d false
        let q := s.mkOp .scrStore ty false o [e ((s.me.raw d).setWidth 64) (if s.me.psnAny (sr d) then 1#2 else 0#2)] d false
        exec (.sld ty false o (.disp x) d a) s = .next ((s.issueOp p 8).2.scrSend (s.issueOp p 8).1 s.cur.1) ∧
        exec (.sst ty false o (.disp x) d a) s = .next ((s.issueOp q 8).2.scrSend (s.issueOp q 8).1 s.cur.1)) ∧
  (∀ (s : State) (ty : Ty) (o : MemOrd) (m : MaskOp) (d a b sc : Nat) (take full : Bool),
      let n := ty.width / 8
      let act := s.me.active m
      let va := fun l => (s.me.rawx a + ((s.me.vreg b).lane l).setWidth 64 <<< sc).toNat
      let go := fun (i : Instr) (q : ScrOp) (n : Nat) => ∀ es : List Elem,
        (∀ l ∈ lanesOf act, va l % n = 0) → (lanesOf act).map (fun l => s.scrElem q (va l) l) = es.map some → es ≠ [] →
        let targets := (es.filterMap fun e => e.scr?.map (·.1)).eraseDups
        let remote := targets.any (· != s.cur.1)
        s.scrHeld (q.kind.ownOrd q.ord) targets = false → (remote = true → s.ctrFull q.kind = false) →
        let r := s.dispatchMem (s.mkOp q.kind q.ty q.w64 (q.kind.ownOrd q.ord) es q.d true) 1 remote
        exec i s = .next ((r.2.scrServe r.1 s.cur.1).scrSend r.1 s.cur.1)
      (s.attaches { s := xr a, v := [b, d], m := [m.k] } (s.me.poisonedUses [xr a] + s.me.vecUses [b] act) →
        go (.sld ty false o (.vec m b sc) d a) ⟨.scrLoad, ty, false, o, d, a, false⟩ n ∧
        go (.sst ty false o (.vec m b sc) d a) ⟨.scrStore, ty, false, o, d, a, false⟩ n ∧
        go (.sldM ty false (.vec m b sc) d a) ⟨.scrLoad, ty, false, ⟨0, 0⟩, d, a, true⟩ n ∧
        go (.sstM ty false (.vec m b sc) d a) ⟨.scrStore, ty, false, ⟨0, 0⟩, d, a, true⟩ n ∧
        go (.syncld take ty (.vec m b sc) d a) ⟨.syncLoad take, ty, false, ⟨0, 0⟩, d, a, false⟩ n ∧
        go (.syncst ty (.vec m b sc) d a) ⟨.syncStore, ty, false, ⟨0, 0⟩, d, a, false⟩ n) ∧
      (s.attaches { s := xr a, v := [b], m := [m.k] } (s.me.poisonedUses [xr a] + s.me.vecUses [b] act) →
        go (.feset full (.vec m b sc) a) ⟨.feset full, .b32, false, ⟨0, 0⟩, 0, a, false⟩ 4))

/-- R279, R438, R441: FENCE and WAITC: each waits where it is while what it waits for is outstanding, and then goes on with no other
effect (a release at pkg or sys first lands the posted HOST stores). R257, R258, R440: an event line that fires with no waiter becomes
PENDING with its value; with waiters they resume with it and the line is not PENDING. EVSIG fires a line of its tile, EVMSG sends one to
another tile, EVENT_MESSAGE fires it there, though the value of an EVSIG of the same tile cycle stands; a freed mutex goes to the oldest
waiting load. -/
def Obligations.FencesEventsAndMutexes : Prop :=
  (∀ (s : State),
      (s.fits .A [] [] → ∀ kind scope, 1 ≤ kind → kind < 4 → scope ≤ 4 →
        let i := Instr.fence kind scope
        let rel := kind = 2 ∨ kind = 3
        let acq := kind = 1 ∨ kind = 3
        let early := (∃ p ∈ s.myOps, p.2.allDone = false) ∨ s.me.counter .gst ≠ 0
        let reads := ∃ p ∈ s.myOps, p.2.kind.returns = true
        (scope = 0 → s.gives i 8 id) ∧
        (scope ≠ 0 → (rel ∧ early) ∨ (acq ∧ reads) → exec i s = .next s) ∧
        (scope ≠ 0 → ¬(rel ∧ early) → ¬(acq ∧ reads) →
          (¬(rel ∧ 3 ≤ scope) → s.gives i 8 id) ∧
          (rel → 3 ≤ scope → ∃ t, exec i s = .next t ∧ t.me = s.me.retire 8 ∧ t.mem.posted = [] ∧ t.mem.hbm = s.mem.hbm ∧
            t.mem.scr = s.mem.scr))) ∧
      (∀ c a, s.fits .A (sr a) [sr a] →
        (s.me.counter c ≤ (s.me.raw a).toNat → s.gives (.waitc c a) 8 id) ∧
        ((s.me.raw a).toNat < s.me.counter c → exec (.waitc c a) s = .next s))) ∧
  (∀ (s : State),
      (∀ t e v, let ws := (s.tile t).sync.waiters.filter fun w => w.1 == e
        fget ((s.fireLine t e v).tile t).sync.ev e (false, 0) = (ws.isEmpty, v) ∧
        (∀ w ∈ ((s.fireLine t e v).tile t).sync.waiters, w.1 ≠ e) ∧ (s.fireLine t e v).mem = s.mem ∧
        ∀ c, (e, c) ∈ (s.tile t).sync.waiters → c < 256 →
          fget? ((s.fireLine t e v).ctx t c).answer (s.ctx t c).regs.pc.toNat = some [v]) ∧
      (∀ e a, s.fits .A (sr a) [sr a] → exec (.evsig e a) s =
        .next (((s.fireLine s.cur.1 e (s.me.raw a)).updSync s.cur.1 fun y => { y with evLocal := fset y.evLocal e s.tileCycle }).retire 8)) ∧
      (∀ e a b, s.fits .A (sr a ++ sr b) [sr a, sr b] → s.acqHeld = false →
        let dst := (s.me.raw b).toNat
        (2 ^ 18 ≤ dst → ∃ t, exec (.evmsg e a b) s = .next t ∧ s.trapped t causeAccess 0 0xF s.me.regs.pc.toNat) ∧
        (dst < 2 ^ 18 → ∃ t, exec (.evmsg e a b) s = .next t ∧ t.me = s.me.retire 8 ∧ t.mem = s.mem ∧
          (dst / 1024 = s.pkgOf (dieOf s.cur.1) → s.tileThere (dst % 1024) = true → ∃ m, t.msgs = s.msgs ++ [m] ∧
            m.src = .tile s.cur.1 ∧ m.dst = .tile (dst % 1024) ∧ m.vc = 4 ∧
            m.payload = ⟨.eventMessage, { tile := dst % 1024, line := e, val := (s.me.raw a).toNat }⟩))) ∧
      (let y := (s.tile s.arg.tile).sync;
        (fget? y.evLocal s.arg.line ≠ some s.tileCycle →
          exec .eventMessage s = .next (s.fireLine s.arg.tile s.arg.line (BitVec.ofNat 32 s.arg.val))) ∧
        (fget? y.evLocal s.arg.line = some s.tileCycle → ∃ t, exec .eventMessage s = .next t ∧ t.mem = s.mem ∧
          ∀ e, fget (t.tile s.arg.tile).sync.ev e (false, 0) =
            if e = s.arg.line then (true, (fget y.ev e (false, 0)).2) else fget y.ev e (false, 0))) ∧
      (∀ c rest,
        let y := (s.tile s.arg.tile).sync
        fget? y.mutex s.arg.id = none → (y.waiters.filter fun w => w.1 == 64 + s.arg.id) = (64 + s.arg.id, c) :: rest → c < 256 →
        ∃ t, exec .mutexGrant s = .next t ∧ fget? (t.tile s.arg.tile).sync.mutex s.arg.id = some c ∧
          fget? (t.ctx s.arg.tile c).answer (s.ctx s.arg.tile c).regs.pc.toNat = some [1#32] ∧ t.mem = s.mem))

/-- R254, R281, R439: an arrival at an IDLE named barrier opens it for its count, on a phase that BARA leaves behind and BAR waits for;
BAR and BARW complete once that phase has passed; and an arrival whose count is 0, above 224 or not the open one's raises BAR_MISMATCH.
R254: when the last arrival of a phase has come, the phase completes: with none queued the barrier is IDLE in the next phase. -/
def Obligations.NamedBarriers : Prop :=
  (∀ (s : State) (b a : Nat),
      let x := fget s.myTile.sync.bar b Barrier.init
      (s.fits .A (sr a) [sr a] → s.waited = 0 → s.unreleased = false → x.opened = false →
        let n := (s.me.raw a).toNat
        (1 ≤ n → n ≤ 224 →
          (∃ t, exec (.bara b a) s = .next t ∧ t.me.regs = (s.me.retire 8).regs ∧ fget? t.me.barPhase b = some x.phase ∧
            fget t.myTile.sync.bar b Barrier.init = { x with opened := true, n := n, lidx := s.me.lidx, arrived := [s.cur.2] } ∧
            t.mem = s.mem) ∧
          (∃ t, exec (.bar b a) s = .next t ∧ t.me.regs = s.me.regs ∧ t.waited = 1 ∧ fget? t.me.barPhase b = some x.phase ∧
            fget t.myTile.sync.bar b Barrier.init = { x with opened := true, n := n, lidx := s.me.lidx, arrived := [s.cur.2] })) ∧
        (n = 0 ∨ 224 < n → ∀ i, i = .bar b a ∨ i = .bara b a →
          ∃ t, exec i s = .next t ∧ s.trapped t causeBarMismatch 0 0 s.me.regs.pc.toNat)) ∧
      (s.fits .A (sr a) [sr a] → s.waited = 1 → x.opened = false → (∃ p, fget? s.me.barPhase b = some p ∧ p < x.phase) →
        s.gives (.bar b a) 8 id) ∧
      (s.fits .A [] [] → x.opened = false → (∀ p, fget? s.me.barPhase b = some p → p < x.phase) → s.gives (.barw b) 8 id) ∧
      (s.fits .A [] [] → x.opened = true → x.arrived.length < x.n → fget? s.me.barPhase b = some x.phase → exec (.barw b) s = .next s)) ∧
  (∀ s : State, let x := fget (s.tile s.arg.tile).sync.bar s.arg.id Barrier.init
      (x.opened = true → x.n ≤ x.arrived.length → x.queued = [] → ∃ t, exec .barrierPhaseComplete s = .next t ∧
        fget (t.tile s.arg.tile).sync.bar s.arg.id Barrier.init =
          { x with opened := false, n := 0, arrived := [], queued := [], phase := x.phase + 1 } ∧
        t.mem = s.mem ∧ (∀ u c, t.ctx u c = s.ctx u c)) ∧
      (x.opened = true → x.arrived.length < x.n → exec .barrierPhaseComplete s = .next s))

/-- R259 to R261, R439: MBAR: a MBARCFG that is off, empty, beyond the mesh or without the tile raises MESHBAR_TIMEOUT at once; else the
context arrives, counted while its tile has not, and waits until it is released. R260, R261: a tile is released when its time has come:
the contexts of the completed phase are waiting no longer, and the next phase opens; a time-out in an open phase withdraws the tile. -/
def Obligations.MeshBarriers : Prop :=
  (∀ s : State, s.fits .A [] [] →
      let y := s.myTile.sync
      let w := y.mbarcfg.toNat
      let x0 := w % 32
      let y0 := w / 32 % 32
      let wd := w / 1024 % 32 + 1
      let ht := w / 32768 % 32 + 1
      let cnt := w / 2 ^ 20 % 256
      let inside := x0 ≤ tileX s.cur.1 ∧ tileX s.cur.1 < x0 + wd ∧ y0 ≤ tileY s.cur.1 ∧ tileY s.cur.1 < y0 + ht
      let good := y.mbarcfg.msb = true ∧ cnt ≠ 0 ∧ x0 + wd ≤ 32 ∧ y0 + ht ≤ 32 ∧ inside
      (s.waited = 0 → ¬ good → ∃ t, exec .mbar s = .next t ∧ s.trapped t causeMeshbar 0 0 s.me.regs.pc.toNat) ∧
      (s.waited = 0 → good → s.unreleased = true → exec .mbar s = .next s) ∧
      (s.waited = 0 → good → s.unreleased = false → y.mbDone = false → s.cur.2 ∉ y.mbArr → y.mbRelease = none →
        ∃ t, exec .mbar s = .next t ∧ t.me.regs = s.me.regs ∧ t.waited = 1 ∧ t.myTile.sync.mbArr = y.mbArr ++ [s.cur.2] ∧
          (t.myTile.sync.mbDone = true ↔ (y.mbArr ++ [s.cur.2]).length = cnt) ∧ t.mem.hbm = s.mem.hbm ∧ t.mem.posted = []) ∧
      (s.waited = 1 → (∀ e ∈ y.mbWait, e.1 ≠ s.cur.2) → s.gives .mbar 8 id)) ∧
  (∀ s : State,
      let y := (s.tile s.arg.tile).sync
      (∀ r, y.mbRelease = some r → r ≤ s.now → y.mbNext = [] → (∀ e ∈ y.mbWait, e.2.2 = true) → ∃ t, exec .meshBarrierRelease s = .next t ∧
          (t.tile s.arg.tile).sync.mbWait = [] ∧ (t.tile s.arg.tile).sync.mbArr = [] ∧ (t.tile s.arg.tile).sync.mbRelease = none ∧
          (t.tile s.arg.tile).sync.mbDone = false ∧ t.mem = s.mem) ∧
      (∀ r, y.mbRelease = some r → s.now < r → exec .meshBarrierRelease s = .next s) ∧
      (y.mbRelease = none → s.arg.ctx ∈ y.mbArr → y.mbWait = [(s.arg.ctx, s.arg.val, false)] →
        ∃ t, exec .meshbarTimeout s = .next t ∧ (t.tile s.arg.tile).sync.mbArr = [] ∧ (t.tile s.arg.tile).sync.mbWait = [] ∧
          (t.ctx s.arg.tile s.arg.ctx).status = .trapped ∧
          (t.ctx s.arg.tile s.arg.ctx).ctl.trapcause = trapcauseWord causeMeshbar 0 0))

/-- R268, R269, R442: MBSTAT gives the mailboxes that are full and those of the issuing context; MBW of an EMPTY mailbox with a good block
of the launch's local block enters the copy QUEUED and goes on; an address that is no own scratch raises ACCESS and one that is not
aligned to 64 raises MISALIGN. R204, R269 to R273: the copy unit: a request is read and then written, each in an issue cycle, the last one
completes the copy; a fault suspends it and a replay continues it; what a completion does; and a user-level interrupt taken. -/
def Obligations.MailboxesAndCopies : Prop :=
  (∀ (s : State) (n a d : Nat), n < 4 →
      (s.fits .A (sr d) [] → ∃ v : Word, s.writes (.mbstat d) 8 d v ∧
        ∀ i, i < 4 → (v.getLsbD i = true ↔ (fget? s.myTile.un.mb i).isSome = true) ∧
          (v.getLsbD (4 + i) = true ↔ ∃ c, fget? s.myTile.un.mb i = some c ∧ c.ctx = s.cur.2)) ∧
      (s.fits .A (xr a) [xr a] →
        let va := (s.me.rawx a).toNat
        ((∀ off, s.scrWin s.cur.1 va ≠ .own off) → ∃ t, exec (.mbw n a) s = .next t ∧ s.trapped t causeAccess 0 0xF va) ∧
        ∀ off, s.scrWin s.cur.1 va = .own off →
          (va % 64 ≠ 0 → ∃ t, exec (.mbw n a) s = .next t ∧ s.trapped t causeMisalign 0 0xF va) ∧
          (va % 64 = 0 → s.unreleased = false → fget? s.myTile.un.mb n = none → ∀ h b,
            s.myTile.share? s.me.lidx = some h → h.lbase ≤ off → off + 64 ≤ h.lbase + h.lsize →
            readBlock (s.scrRead s.cur.1 off 64) = (b, false) → s.copyAddrBad s.cur.1 b.src = false →
            s.copyAddrBad s.cur.1 b.dst = false →
            s.copyRowsOk s.cur.1 s.me.lidx (s.cur.2 == sysCtx) (rowVas b.src b.spitch b.rows) b.rowBytes false = true →
            s.copyRowsOk s.cur.1 s.me.lidx (s.cur.2 == sysCtx) (rowVas b.dst b.dpitch b.rows) b.rowBytes true = true →
            (b.cnt = true → s.me.counter .cpy < 63) →
            ∃ t, exec (.mbw n a) s = .next t ∧ t.me.regs = (s.me.retire 8).regs ∧ t.mem = s.mem ∧
              (fget? t.myTile.un.mb n = some { b with id := s.nextId, ctx := s.cur.2, lidx := s.me.lidx, pc := s.me.regs.pc, bad := false, state := 0 }) ∧
              ⟨.copyAdvance, { tile := s.cur.1, id := s.nextId }⟩ ∈ t.pending ∧
              (b.cnt = true → t.me.flight = s.me.flight ++ [⟨.cpy, s.nextId, false⟩])))) ∧
  (∀ (s : State),
      let a := s.arg
      let u := a.tile
      let un := (s.tile u).un
      let more := fun (t : State) (i : Instr) (c : Copy) => s.timed t tileTicks i { tile := u, id := c.id }
      let kept := fun (t : State) (c : Copy) => (t.tile u).un.copy? c.id = some c
      (a.ok = false → un.nextMb = none → exec .copyAdvance s = .next s) ∧
      (a.ok = true → (∀ p ∈ (s.die (dieOf u)).slice, p.2.kept = none) → exec .copyAdvance s = .next s ∧ exec .copyReplay s = .next s) ∧
      (∀ c, a.ok = false → c.op = none → c.lbuse = false → (un.copy? c.id).isSome = true →
        (∀ off, c.buf = [] → s.scrWin u c.srcVa = .own off →
          let words := (List.range (c.reqBytes / 4)).map fun i => (BitVec.ofNat 32 (s.scrRead u (off + 4 * i) 4), s.scrPois u (off + 4 * i))
          (∀ m, un.nextMb = some (m, c) → c.state = 1 → s.runsTo .copyAdvance fun t => t.mem = s.mem ∧ kept t { c with buf := words } ∧
            more t .copyAdvance c) ∧
          (un.susp.find? (fun c => c.id == a.id) = some c → c.state = 3 → s.runsTo .copyReplay fun t => t.mem = s.mem ∧
            kept t { c with buf := words } ∧ more t .copyReplay c)) ∧
        (∀ m w off, un.nextMb = some (m, c) → c.state = 1 → c.buf = [w] → s.scrWin u c.dstVa = .own off →
          let after := s.scrWrite u off 4 w.1.toNat w.2
          s.runsTo .copyAdvance fun t => t.mem = (if c.fe then after.setFull u off true else after).mem ∧
            (c.total ≤ c.cursor + 4 → kept t { c with cursor := c.cursor + 4, buf := [], state := 4 } ∧ t.awaits .copyDone { tile := u, id := c.id }) ∧
            (c.cursor + 4 < c.total → kept t { c with cursor := c.cursor + 4, buf := [] } ∧ more t .copyAdvance c))) ∧
      (∀ m c, a.ok = false → un.nextMb = some (m, c) → c.state = 0 → c.op = none → c.buf = [] → c.lbuse = false → c.lbinv = true → ∀ off, s.scrWin u c.srcVa = .own off →
        s.runsTo .copyAdvance fun t => t.mem = s.mem ∧ fget (t.tile u).un.lbufs c.lbuf [] = []) ∧
      (∀ c, un.copy? a.id = some c → c.state ≠ 4 → exec .copyDone s = .next s) ∧
      (un.copy? a.id = none → exec .copyDone s = .next s ∧ exec .copySuspend s = .next s) ∧
      (a.ok = false → (∀ c ∈ un.susp, c.id ≠ a.id) → exec .copyReplay s = .next s) ∧
      (∀ c, un.copy? a.id = some c → c.state = 4 → c.ctx ≠ noCtx →
        let k := s.ctx u c.ctx
        k.lidx = c.lidx → k.status ≠ .idle →
        (k.status = .trapped → s.runsTo .copyDone fun t => t.mem = s.mem ∧ kept t c ∧ (t.ctx u c.ctx).regs = k.regs ∧
          (t.ctx u c.ctx).deferred = k.deferred ++ [⟨.copyDone, { tile := u, id := a.id }⟩]) ∧
        (k.status ≠ .trapped → c.irq = true → 8 ≤ k.uiq.length → exec .copyDone s = .next s) ∧
        (k.status ≠ .trapped → c.irq = true → k.uiq.length < 8 → s.runsTo .copyDone fun t => t.mem = s.mem ∧ (t.tile u).un.copy? a.id = none ∧
          (t.ctx u c.ctx).uiq = k.uiq ++ [⟨BitVec.ofNat 48 c.handler, c.xfer⟩] ∧ t.awaits .userInterrupt { tile := u, ctx := c.ctx }) ∧
        (k.status ≠ .trapped → c.irq = false → c.cnt = true → s.runsTo .copyDone fun t => t.mem = s.mem ∧ (t.tile u).un.copy? a.id = none ∧
          (t.ctx u c.ctx).flight = (k.lower a.id).flight ∧ (t.ctx u c.ctx).regs = k.regs)) ∧
      (∀ c, un.copy? a.id = some c → c.state ≠ 5 → c.state ≠ 6 → exec .copySuspend s = .next s) ∧
      (∀ c, un.copy? a.id = some c → c.state = 5 ∨ c.state = 6 →
        let q := (s.launch c.lidx).queue
        let x := s.queue q
        (s.copyFault? u c = none → s.runsTo .copySuspend fun t => t.mem = s.mem ∧
          (c.state = 5 → kept t { c with state := 1 } ∧ more t .copyAdvance c) ∧ (c.state = 6 → kept t { c with state := 3 } ∧ more t .copyReplay c)) ∧
        (∀ f p, s.copyFault? u c = some f → f.kind ≠ 3 → x.qstate ≠ 2 →
          (x.pending.find? fun (p : Nat × FaultRec) => p.2.launch == f.launch && p.2.asid == f.asid && p.2.va / 4096 == f.va / 4096 &&
            p.2.kind == f.kind && p.2.acc == f.acc) = some p → s.runsTo .copySuspend fun t => t.mem = s.mem ∧ (∀ m ∈ (t.tile u).un.mb, m.2.id ≠ a.id) ∧
              kept t { c with cursor := c.cursor / 4096 * 4096, state := 2, buf := [], op := none, onFault := some (q, p.1) }) ∧
        (∀ f y, s.copyFault? u c = some f → x.qstate = 2 → s.launches = [(c.lidx, y)] → y.run = 1 → y.commit ≠ 4 →
          s.runsTo .copySuspend fun t => fget? t.launches c.lidx = none)) ∧
      (let c := a.ctx
       let k := s.ctx u c
       let ready := (k.status = .ready ∨ k.status = .waiting) ∧ k.uiq ≠ [] ∧ k.ctl.uipc.getLsbD 63 = false ∧ k.ctl.wavectl.getLsbD 0 = false
       (¬ ready → exec .userInterrupt s = .next s) ∧
       (∀ i rest, ready → k.uiq = i :: rest → s.runsTo .userInterrupt fun t => t.mem = s.mem ∧
         let j := t.ctx u c
         j.status = .ready ∧ j.uiq = rest ∧ j.regs = { k.regs with pc := i.handler } ∧ j.ctl.xferid = BitVec.ofNat 32 i.xfer ∧
         j.ctl.uipc = (k.regs.pc.setWidth 64 ||| BitVec.twoPow 64 63) ∧ ∀ w ∈ (t.tile u).sync.waiters, w.2 ≠ c)))

/-- R180, R181, R443: QSTAT gives the entries ready and those free; QPUSH of a full queue answers 1; an enabled queue takes the transfer
as a message to its slice, while the instruction waits; and the answer completes the instruction. R180, R181, R442, R443: the transfer of
an entry of a stage queue at its slice: what it copies, the counts it moves, and when the instruction tries again or traps. -/
def Obligations.StageQueues : Prop :=
  (∀ (s : State) (d a b : Nat),
      let n := (s.me.raw b).toNat
      let x := (s.stageCopy n).1
      let s1 := (s.stageCopy n).2
      (s.fits .A (sr d ++ sr b) [sr b] →
        (256 ≤ n → ∃ t, exec (.qstat d b) s = .next t ∧ s.trapped t causeAccess 0 0xF s.me.regs.pc.toNat) ∧
        (n < 256 → x.en = true → ∃ t, exec (.qstat d b) s = .next t ∧
          t.me = (s.me.wr d (BitVec.ofNat 32 (stageDiff x.readyix x.popped % 2 ^ 16 +
            (2 ^ x.dlog - stageDiff x.pushed x.freed) * 2 ^ 16))).retire 8 ∧ t.mem = s.mem)) ∧
      (s.fits .A (sr d ++ xr a ++ sr b) [xr a, sr b] → ∀ push : Bool,
        let i := if push then Instr.qpush d a b else .qpop d a b
        let va := (s.me.rawx a).toNat
        let bound := if push then x.ptag else x.ctag
        (∀ w ws, s.waited = 1 → s.answered = some (w :: ws) → s.writes i 8 d w) ∧
        (s.waited = 0 → n < 256 → x.en = true → (bound = 0 ∨ bound = (s.launch s.me.lidx).tag + 1) → va % 64 = 0 → ∀ es,
          s1.stageData va (2 ^ x.elog) (if push then 0 else 1) = .ok es → s1.unreleased = false →
          let full := stageDiff x.pushed x.freed = 2 ^ x.dlog
          (push = true → full → x.readyix = x.popped → x.popped = x.freed →
            ∃ t, exec i s = .next t ∧ t.me = (s.me.wr d 1).retire 8 ∧ t.mem = s.mem) ∧
          ((push = true → ¬ full) → (push = false → x.readyix ≠ x.popped) → ∃ t m, exec i s = .next t ∧ t.me.regs = s.me.regs ∧
            t.waited = 1 ∧ t.mem = s.mem ∧ t.msgs = s.msgs ++ [m] ∧ m.dst = .slice (stageSlice n) ∧
            m.payload = ⟨.stageQueueTransfer, { tile := stageSlice n, id := s1.nextId, val := n }⟩ ∧
            ∃ o, t.op? s1.nextId = some o ∧ o.kind = (if push then .qpush else .qpop) ∧ o.elems = es ∧ o.dest = d)))) ∧
  (∀ (s : State) (o : Op) (e : Elem) (off : Nat),
      let id := s.arg.id
      let n := s.arg.val
      let x := fget s.stageQs n StageQ.init
      let k := s.ctx o.tile o.ctx
      let push := o.kind == .qpush
      let tag := (s.launch o.lidx).tag + 1
      let bound := if push then x.ptag else x.ctag
      let idx := if push then x.pushed else x.popped
      let place := s.stageLoc n x e.lane idx
      let txn := (s.launch o.lidx).r.txn
      (s.op? id = none → exec .stageQueueTransfer s = .next s) ∧
      (s.op? id = some o → o.elems = [e] → e.loc = some (.scr o.tile off) →
        let unfit := x.en = false ∨ (bound ≠ 0 ∧ bound ≠ tag) ∨ place = none
        let full := stageDiff x.pushed x.freed = 2 ^ x.dlog
        (unfit → s.runsTo .stageQueueTransfer fun t => t.mem = s.mem ∧ t.op? id = none ∧ (t.ctx o.tile o.ctx).status = .trapped ∧
          (t.ctx o.tile o.ctx).ctl.trapcause = trapcauseWord causeAccess 0 0xF) ∧
        (¬ unfit → (push = true ∧ full) ∨ (push = false ∧ x.readyix = x.popped) → s.runsTo .stageQueueTransfer fun t => t.mem = s.mem ∧
          t.stageQs = s.stageQs ∧ t.op? id = none ∧ fget? (t.ctx o.tile o.ctx).waitOn o.pc.toNat = none) ∧
        ((s.stageReach n o [place] ⟨.stageQueueTransfer, s.arg⟩).1 = false → ¬ unfit → ¬ (push = true ∧ full) → ¬ (push = false ∧ x.readyix = x.popped) →
          exec .stageQueueTransfer s = .next (s.stageReach n o [place] ⟨.stageQueueTransfer, s.arg⟩).2) ∧
        (∀ key p, ¬ unfit → place = some (.dev key p) → (s.stageReach n o [place] ⟨.stageQueueTransfer, s.arg⟩).1 = true →
          s.matched (n / 64) p (some o.lidx) = [] → (s.tile o.tile).allows o.lidx off 64 (!push) (o.ctx == sysCtx) = true →
          let answers := fun (t : State) (v : Nat) => t.op? id = none ∧
            fget? (t.ctx o.tile o.ctx).answer o.pc.toNat = some [BitVec.ofNat 32 v] ∧ (t.ctx o.tile o.ctx).regs = k.regs
          (push = true → ¬ full → s.runsTo .stageQueueTransfer fun t => answers t 0 ∧
            t.mem.hbm = s.mem.hbm.writeN key 64 (s.scrRead o.tile off 64) ∧ t.mem.scr = s.mem.scr ∧
            let y := fget t.stageQs n StageQ.init
            y.pushed = (x.pushed + 1) % 2 ^ 32 ∧ y.ptag = tag ∧ y.popped = x.popped ∧ y.freed = x.freed ∧
              y.readyix = if txn then x.readyix else (x.pushed + 1) % 2 ^ 32) ∧
          (push = false → x.readyix ≠ x.popped → s.runsTo .stageQueueTransfer fun t => answers t idx ∧ t.mem.hbm = s.mem.hbm ∧
            t.mem.scr = (s.engineWords o.tile off 64 (s.devRead key 64) (s.linePoison (lineOf key)) true).mem.scr ∧
            let y := fget t.stageQs n StageQ.init
            y.popped = (x.popped + 1) % 2 ^ 32 ∧ y.ctag = tag ∧ y.pushed = x.pushed ∧ y.readyix = x.readyix ∧
              y.freed = if txn then x.freed else (x.popped + 1) % 2 ^ 32))))

/-- R451 to R453, R456, R462: the matrix instructions that complete at once: STSET, STADV, REP, the statuses of MACQ and MREL, ACCALLOC
and ACCFREE, and MSTEP. -/
def Obligations.MatrixSetup : Prop :=
  ∀ (s : State) (d a b c n : Nat),
    (s.fits .W (xr a ++ sr b ++ sr c) [xr a, sr b, sr c] →
      s.gives (.stset d a b c) 8 fun k => k.putStream d ⟨(s.me.rawx a).setWidth 48, s.me.raw b, s.me.raw c, 0⟩) ∧
    (s.fits .W (sr a) [sr a] →
      let x := s.me.stream d
      let lim := if x.limit = 0 then 2 ^ 32 else x.limit.toNat
      s.gives (.stadv d a) 8 fun k => k.putStream d { x with count := BitVec.ofNat 32 ((x.count.toNat + (s.me.raw a).toNat) % lim) }) ∧
    (s.fits .W (sr a) [sr a] → (s.me.regs.pc.toNat + 8) / 4096 = s.me.regs.pc.toNat / 4096 → ∀ code stop ok,
      s.fetchBody s.cur.1 s.cur.2 s.me.regs.pc.toNat n (s.me.regs.pc.toNat + 8) = .ok (code, stop, ok) →
      (ok = false → ∃ t, exec (.rep a n) s = .next t ∧ s.takesIllegal t) ∧
      (ok = true → s.me.raw a = 0 → s.goesTo (.rep a n) (BitVec.ofNat 48 stop) id) ∧
      (ok = true → s.me.raw a ≠ 0 → exec (.rep a n) s = .next (s.setMe { s.me.retire 8 with
        rep := some ⟨BitVec.ofNat 48 (s.me.regs.pc.toNat + 8), BitVec.ofNat 48 stop, (s.me.raw a).toNat, code⟩ }))) ∧
    (s.fits .W (sr d) [] →
      let m := s.myTile.mx
      (s.me.gang = none → s.writes (.macq d) 8 d 1 ∧ s.writes (.mrel d) 8 d 1 ∧ s.writes (.accalloc d n) 8 d 0x80000001) ∧
      (∀ g, s.me.gang = some g →
        (m.owner = some g → s.writes (.macq d) 8 d 0) ∧
        (m.owner ≠ some g → s.writes (.mrel d) 8 d 3) ∧
        (m.owner ≠ some g → s.waited = 0 → ∃ t, exec (.macq d) s = .next t ∧ t.me.regs = s.me.regs ∧ t.waited = 1 ∧
          t.myTile.mx.macq = m.macq ++ [(g, s.cur.2)] ∧ t.mem = s.mem) ∧
        (m.owner = some g → (∀ p ∈ s.myTile.queuedAll, p.2.kind.ofArray = false) → ∃ t, exec (.mrel d) s = .next t ∧
          t.me = (s.me.wr d 0).retire 8 ∧ t.myTile.mx.owner = none ∧ t.mem = s.mem) ∧
        (s.waited = 0 → m.accQ = [] → (s.myTile.share? s.me.lidx).elim 0 (·.acc) < m.held g + n →
          ∃ t, exec (.accalloc d n) s = .next t ∧ (d ≠ 63 → t.me.raw d = 0x80000002 ∧ t.me.psn d = false) ∧
            t.myTile.mx.accOwner = m.accOwner ∧ t.mem = s.mem) ∧
        (s.waited = 0 → m.accQ = [] → m.held g + n ≤ (s.myTile.share? s.me.lidx).elim 0 (·.acc) → n ≤ s.myTile.accFree s.me.lidx →
          m.gangLaunch g = some s.me.lidx → n ≤ ((List.range 16).filter fun a => (fget? m.accOwner a).isNone).length →
          ∃ t, exec (.accalloc d n) s = .next t ∧
            (d ≠ 63 → ∀ i, i < 32 → ((t.me.raw d).getLsbD i = true ↔ i ∈ m.lowest n)) ∧
            (∀ i, i ∈ m.lowest n → fget? t.myTile.mx.accOwner i = some g ∧ ∀ r c, r < 64 → c < 32 → t.myTile.mx.elem i r c = 0) ∧
            (∀ i, i ∉ m.lowest n → fget? t.myTile.mx.accOwner i = fget? m.accOwner i) ∧ t.mem = s.mem))) ∧
    (s.fits .W (sr a) [sr a] →
      let m := s.myTile.mx
      (s.me.gang = none → ∃ t, exec (.accfree a) s = .next t ∧ s.takesIllegal t) ∧
      (∀ g, s.me.gang = some g →
        let mine := fun i => i < 16 ∧ (s.me.raw a).getLsbD i = true ∧ fget? m.accOwner i = some g
        (∀ p ∈ s.myTile.queuedAll, ∀ i, mine i → p.2.names i = false) →
        ∃ t, exec (.accfree a) s = .next t ∧ t.me = s.me.retire 8 ∧
          (∀ i, mine i → fget? t.myTile.mx.accOwner i = none) ∧
          (∀ i, ¬ mine i → fget? t.myTile.mx.accOwner i = fget? m.accOwner i) ∧ t.mem = s.mem)) ∧
    (s.fits .W (sr d) [] → (∀ e ∈ s.me.ring, e.2.unit = 2 → e.2.state ≠ .issued) →
      s.gives (.mstep d) 8 fun k =>
        { k.wr d (BitVec.ofNat 32 (min 0xFFFFFF s.me.msteps + min 0xFF s.me.mchunks * 2 ^ 24)) with msteps := 0, mchunks := 0 })

/-- R450, R451, R454, R457 to R464: an array instruction dispatches when its wave's gang may use what it names, its maps and tags are
good, its addresses are aligned and in a window, and nothing holds it: an ISSUED entry with its work, at the end of its queue; MLDS and
the drains advance their tile stream, and MSTREAM its row streams. -/
def Obligations.MatrixDispatch : Prop :=
  (∀ (s : State) (d a b c row0 n : Nat) (off : BitVec 16) (ty : Ty), isPath s.cur.2 = false → s.me.ringBusy = false → s.acqHeld = false →
    let free := fun (k : MKind) => (s.myTile.mx.q k.queue).length < k.queue.depth
    let mine := s.ownsArray = .yes
    let ready := fun (rs : List Nat) => s.me.busySAny rs = false ∧ s.me.psnAny rs = false
    let va := (s.me.rawx a + off.signExtend 64).toNat
    let goes := fun (i : Instr) (w : MWork) (upd : Ctx → Ctx) => exec i s = .next (s.mxAttach w upd)
    let maps := fun ms => s.me.tmBusy ms = false
    let m := (tmap (s.me.tm a)).1
    let rows := (List.range n).map (s.me.stream a).row
    (free .acczero → s.holdsAcc d = true → goes (.acczero d) { MWork.init .acczero with acc := d } id) ∧
    (free .mflip → mine → goes .mflip (MWork.init .mflip) id) ∧
    (maps [d] → ready (xr a) → va % 64 = 0 → (globalVa va = true ∧ s.scrWin s.cur.1 va = .none) ∨ (∃ x, s.scrWin s.cur.1 va = .own x) →
      s.mxHeld = false → goes (.tmld d a off) { MWork.init .tmld with acc := d, rows := [va] } id) ∧
    (∀ blk se bm, free .mlds → mine → maps (if blk = 0 then [a] else [a, c]) → ready (if bm then xr d else []) →
      s.me.mldsBad blk se a c = false → s.mxWin s.cur.1 m.base ≠ .bad →
      (blk = 0 ∨ s.mxWin s.cur.1 (tmap (s.me.tm c)).1.base ≠ .bad) → s.mxHeld = false →
      goes (.mlds blk se bm d a b c)
        { MWork.init .mlds with n := 1024 / m.ty.width, map := some (s.me.tm a, (s.me.stream b).count.toNat), ty := m.ty, blk := blk,
                                se := se, smap := if blk = 0 then none else some (s.me.tm c, (s.me.stream b).count.toNat),
                                bm := if bm then s.me.rawx d else 0xFFFFFFFFFFFFFFFF#64 }
        fun k => k.advance b 1) ∧
    (∀ blk se, mine → s.holdsAcc d = true → s.myTile.activeTag = some (ty, blk, se) → (blk = 0 → c = 0) →
      let scales := if blk = 0 then [] else (List.range n).map (s.me.stream c).row
      let w := fun sp => { MWork.init (.mstream sp) with acc := d, row0 := row0, n := n, rows := rows, scales := scales, ty := ty }
      let upd := fun (k : Ctx) => if blk = 0 then k.advance a n else (k.advance a n).advance c n
      (∀ va ∈ rows ++ scales, s.mxWin s.cur.1 va ≠ .bad) → s.mxHeld = false →
      (free (.mstream false) → (∀ va ∈ rows, va % (if s.mxWin s.cur.1 va = .mem then 128 else 4) = 0) →
        goes (.mstream ty d a row0 c n) (w false) upd) ∧
      (free (.mstream true) → (∀ va ∈ rows, va % 8 = 0) → goes (.mstreamSp ty d a row0 c n) (w true) upd)) ∧
    (∀ add ts z, maps [a] → ready (if ts then xr c else []) → s.holdsAcc d = true → (tmap (s.me.tm a)).2 = false → m.pcols = 32 →
      m.prows = 64 → m.ty = .f32 ∨ (m.ty = .bf16 ∧ add = false) → s.mxWin s.cur.1 m.base ≠ .bad → s.me.counter .mtx < 63 →
      free (.mdrain add) → goes (if add then .mdrainAdd ts z d a b c else .mdrain ts z d a b c)
        { MWork.init (.mdrain add) with acc := d, n := 64, map := some (s.me.tm a, (s.me.stream b).count.toNat), ty := m.ty, z := z,
                                        ts := if ts then some (s.me.raw c, s.me.raw (if c = 63 then 63 else c + 1)) else none }
        fun k => k.advance b 1)) ∧
  (∀ (s : State) (w : MWork) (upd : Ctx → Ctx), (∀ k, (upd k).ring = k.ring ∧ (upd k).dseq = k.dseq) →
    let t := s.mxAttach w upd
    let e := t.me.entry s.me.dseq
    e.state = .issued ∧ e.seq = s.me.dseq ∧ e.pc = s.me.regs.pc ∧ e.unit = 2 ∧ e.started = false ∧ e.rows = 0 ∧
      e.work = .matrix { w with stamp := s.nextId, id := s.nextId } ∧ t.me.dseq = (s.me.dseq + 1) % 65536 ∧
      (w.kind ≠ .tmld → t.myTile.mx.q w.kind.queue = s.myTile.mx.q w.kind.queue ++ [(s.cur.2, s.me.dseq)]) ∧
      t.myTile.mx.acc = s.myTile.mx.acc ∧ t.myTile.mx.active = s.myTile.mx.active ∧ t.myTile.mx.shadow = s.myTile.mx.shadow ∧
      t.mem = s.mem)

/-- R204, R205, R447, R452: a free array goes to the gang that has waited longest, with both planes NONE; an ACCALLOC that has waited too
long is answered with the time-out. R300, R332, R335, R338, R450, R458, R459: what the events of the array's queues do, each for an entry
at the head of its queue that nothing holds: MFLIP exchanges the planes, ACCZERO leaves its tile +0, and a row of MSTREAM accumulates into
its row of its tile: by the groups of R332 where the plane has no blocks and by the blocks of R335 where it has. -/
def Obligations.MatrixWork : Prop :=
  (∀ (s : State), let x := (s.tile s.arg.tile).mx
      (∀ g c rest, x.owner = none → x.macq = (g, c) :: rest → ∃ t, exec .arrayGrant s = .next t ∧
        (t.tile s.arg.tile).mx.owner = some g ∧ (t.tile s.arg.tile).mx.macq = rest.filter (fun p => p.1 != g) ∧
        (t.tile s.arg.tile).mx.active.ty = none ∧ (t.tile s.arg.tile).mx.shadow.ty = none ∧
        (t.tile s.arg.tile).mx.acc = x.acc ∧ t.mem = s.mem) ∧
      (x.owner ≠ none → ∃ t, exec .arrayGrant s = .next t ∧ t.tile s.arg.tile = s.tile s.arg.tile ∧ t.mem = s.mem) ∧
      (∀ g n, (s.arg.ctx, g, n, s.arg.val) ∈ x.accQ → s.arg.ctx < 256 → ∃ t, exec .accwaitTimeout s = .next t ∧
        (∀ r ∈ (t.tile s.arg.tile).mx.accQ, r ∈ x.accQ ∧ ¬ (r.1 = s.arg.ctx ∧ r.2.2.2 = s.arg.val)) ∧
        fget? (t.ctx s.arg.tile s.arg.ctx).answer (s.ctx s.arg.tile s.arg.ctx).regs.pc.toNat = some [0x80000004#32] ∧ t.mem = s.mem)) ∧
  ((∀ (s : State) (w : MWork),
      let e := (s.ctx s.arg.tile s.arg.ctx).entry s.arg.seq
      let x := s.tile s.arg.tile
      e.seq = s.arg.seq → e.state = .issued → e.unit = 2 → e.work = .matrix w → e.started = false → s.arg.val = 0 → e.rows = 0 → w.n = 1 →
      w.z = false → x.mx.compQ.head? = some (s.arg.ctx, s.arg.seq) → x.mxReady w = true →
      (s.ctx s.arg.tile s.arg.ctx).mxStopped s.arg.seq = false →
      (w.kind = .mflip → ∃ t, exec .attachedComplete s = .next t ∧ (t.tile s.arg.tile).mx.active = x.mx.shadow ∧
        (t.tile s.arg.tile).mx.shadow = x.mx.active ∧ (t.tile s.arg.tile).mx.acc = x.mx.acc ∧
        ((t.ctx s.arg.tile s.arg.ctx).entry s.arg.seq).state = .done ∧ t.mem = s.mem) ∧
      (w.kind = .acczero → ∃ t, exec .attachedComplete s = .next t ∧
        (∀ r c, r < 64 → c < 32 → (t.tile s.arg.tile).mx.elem w.acc r c = 0) ∧
        (∀ a r c, a ≠ w.acc → r < 64 → c < 32 → (t.tile s.arg.tile).mx.elem a r c = x.mx.elem a r c) ∧
        (t.tile s.arg.tile).mx.active = x.mx.active ∧ ((t.ctx s.arg.tile s.arg.ctx).entry s.arg.seq).state = .done ∧ t.mem = s.mem)) ∧
    (∀ (m : Matrix) (w : MWork) (j : Nat) (row sa : List Nat) (run : Nat → Bool), w.row0 + j < 64 →
      let p := m.active
      let wgt := fun c k => fget p.w (k * 32 + c) 0
      let new := fun c => if p.blk = 0 then accPlain w.ty row (wgt c) run (m.elem w.acc (w.row0 + j) c)
        else accBlocks w.ty p.blk p.se row (wgt c) run sa (fun i => fget p.sc (i * 32 + c) 0) (m.elem w.acc (w.row0 + j) c)
      let r := m.accumulate w j row sa run
      (∀ c, c < 32 → r.1.elem w.acc (w.row0 + j) c = (new c).1) ∧
      (∀ a row' c, row' < 64 → c < 32 → (a, row') ≠ (w.acc, w.row0 + j) → r.1.elem a row' c = m.elem a row' c) ∧
      (∀ b, b < 6 → (r.2.getLsbD b = true ↔ ∃ c, c < 32 ∧ (new c).2.getLsbD b = true)) ∧
      r.1.active = m.active ∧ r.1.shadow = m.shadow ∧ r.1.accOwner = m.accOwner))

/-- R216, R217, R219, R220, R228, R229, R471, R472: SEND and MIGRATE refuse a bad destination with ACCESS; a SEND first asks for its
credit, and once it has it, and every earlier access has been performed, its packet leaves; a MIGRATE waits for the counters and the
interrupts of its thread, and then leaves its slot free and its thread in a packet that resumes at the next instruction. Where the request
for a credit has failed, SEND completes without a packet (R61, log 71). R61, R228, R237 to R239, R473 to R475: SEGLOOK answers from the
route cache, or asks the segment's home and answers when it has heard; HITPUSH asks for a reservation and then sends its record; HITPOP
takes up to 32 records of its launch, oldest first. A lookup that fails gives a poisoned result, and a reservation that fails ends the
HITPUSH without a record (log 71). -/
def Obligations.TravelInstructions : Prop :=
  (∀ (s : State) (seg : Bool) (cls d a b c : Nat),
      let v := (s.me.raw b).toNat
      let bad := if seg then 2 ^ 24 ≤ v ∨ v = 0 else 2 ^ 18 ≤ v
      let x := s.launch s.me.lidx
      let tile := s.cur.1
      let there := seg = false ∧ v / 1024 = s.pkgOf (dieOf tile) ∧ s.tileThere (v % 1024) = true
      let leaves := fun (t : State) (p : Packet) =>
        (v % 1024 = tile → ⟨.threadPacketArrival, { tile := tile, packet := p }⟩ ∈ t.pending) ∧
        (v % 1024 ≠ tile → ∃ m ∈ t.msgs, m.src = .tile tile ∧ m.dst = .tile (v % 1024) ∧ m.vc = 5 ∧
          m.payload = ⟨.threadPacketArrival, { tile := v % 1024, packet := p }⟩)
      (s.fits .A (sr d ++ sblk a 10 ++ sr b ++ sr c) ([sr d, sr b, sr c] ++ (sblk a 10).map fun r => [r]) →
        let i := Instr.send seg cls d a b c
        (bad ∨ x.r.budget = 0 ∨ x.r.classtab = 0 → ∃ t, exec i s = .next t ∧ s.trapped t causeAccess 0 0xF s.me.regs.pc.toNat) ∧
        (¬ bad → x.r.budget ≠ 0 → x.r.classtab ≠ 0 →
          (s.waited = 0 → s.cur.2 < 256 → ∃ t, exec i s = .next t ∧ t.me.regs = s.me.regs ∧ t.mem = s.mem ∧
            t.waited = (if s.homeHere then 1 else s.nextId) ∧
            (isPath s.cur.2 = false → s.creditFree tile s.me.lidx = true → t.answered = some [])) ∧
          (s.waited ≠ 0 → s.answered = some failedAnswer → s.unreleased = false → s.gives i 8 id) ∧
          (∀ ws, s.waited ≠ 0 → s.answered = some ws → ws ≠ failedAnswer → s.unreleased = false → ∃ t, exec i s = .next t ∧ t.me = s.me.retire 8 ∧
            t.mem.hbm = s.mem.hbm ∧ t.mem.scr = s.mem.scr ∧ t.mem.posted = [] ∧
            (there → ∃ p, leaves t p ∧ p.lidx = s.me.lidx ∧ p.thread = (s.me.raw d).toNat % 2 ^ 24 ∧ p.cls = cls ∧ p.seq = 0 ∧
              p.res = false ∧ p.dkind = false ∧ p.dest = v ∧ p.pw = s.me.raw c ∧ p.tv = x.r.txn ∧
              p.s = (if a = 63 then List.replicate 10 0#32 else (List.range 10).map fun i => s.me.raw (a + i)))))) ∧
      (s.fits .P (sr b) [sr b] →
        let i := Instr.migrate seg b
        let pc := s.me.regs.pc + 8#48
        (bad → ∃ t, exec i s = .next t ∧ s.trapped t causeAccess 0 0xF s.me.regs.pc.toNat) ∧
        (¬ bad → s.me.quiet = false ∨ s.me.uiq ≠ [] → exec i s = .next s) ∧
        (¬ bad → s.me.quiet = true → s.me.uiq = [] → rpcOf pc x.r.entry = none → ∃ t, exec i s = .next t ∧ s.takesIllegal t) ∧
        (∀ rpc, ¬ bad → s.me.quiet = true → s.me.uiq = [] → rpcOf pc x.r.entry = some rpc → (∀ r, r < 10 → s.me.psn r = false) →
          ∃ t, exec i s = .next t ∧ t.me.status = .idle ∧ (∀ q ∈ t.myTile.sync.mutex, q.2 ≠ s.cur.2) ∧
            ⟨.slotClaim, { tile := tile }⟩ ∈ t.pending ∧ t.mem.hbm = s.mem.hbm ∧ t.mem.scr = s.mem.scr ∧
            (there → ∃ p, leaves t p ∧ p.lidx = s.me.lidx ∧ p.thread = s.me.hdr.thread ∧ p.seq = (s.me.hdr.seq + 1) % 256 ∧
              p.opkg = s.me.hdr.opkg ∧ p.otile = s.me.hdr.otile ∧ p.cls = s.me.hdr.cls ∧ p.res = true ∧ p.rpc = rpc ∧ p.dkind = false ∧
              p.dest = v ∧ p.pw = s.me.regs.pw ∧ p.s = (List.range 10).map s.me.raw)))) ∧
  (∀ (s : State) (d a b : Nat),
      (s.fits .A (sr d ++ sr a ++ sr b) [sr a, sr b] →
        let n := (s.me.raw a).toNat
        let thread := (s.me.raw b).toNat % 2 ^ 24
        let word := fun (st ty size : Nat) (owners : List Nat) => BitVec.ofNat 32 (2 ^ 31 + st % 8 * 2 ^ 28 + ty % 4 * 2 ^ 26 +
          owners.length % 8 * 2 ^ 23 + size % 128 * 2 ^ 16 +
          (if owners.isEmpty then 0 else owners.getD (ownerIdx thread owners.length) 0 % 1024))
        (2 ^ 24 ≤ n → ∃ t, exec (.seglook d a b) s = .next t ∧ s.trapped t causeAccess 0 0xF s.me.regs.pc.toNat) ∧
        (n < 2 ^ 24 → s.waited = 0 →
          (∀ owners st ty size, s.myTile.trav.route? n = some (owners, st, ty, size) → ∃ t, exec (.seglook d a b) s = .next t ∧
            t.me = (s.me.wr d (word st ty size owners)).retire 8 ∧ t.mem = s.mem) ∧
          (s.myTile.trav.route? n = none → ∃ t, exec (.seglook d a b) s = .next t ∧ t.me.regs = s.me.regs ∧ t.waited = s.nextId ∧
            t.mem = s.mem) ∧
          (s.myTile.trav.route? n = none → s.tileThere (s.segHome n) = true → ∃ t m, exec (.seglook d a b) s = .next t ∧
            t.msgs = s.msgs ++ [m] ∧ m.dst = .tile (s.segHome n) ∧ m.vc = 7 ∧ m.payload = ⟨.routeCacheMiss,
              { tile := s.segHome n, seg := n, lidx := s.me.lidx, who := (s.cur.1, s.tokenOf s.nextId) }⟩ ∧
            s.timed t plainTimeout .responseTimeout
              { tile := s.cur.1, ctx := s.tokenOf s.nextId, val := s.pkgOf (dieOf s.cur.1), ok := true }) ∧
          (s.myTile.trav.route? n = none → s.tileThere (s.segHome n) = false → s.cur.2 < 256 → ∃ t, exec (.seglook d a b) s = .next t ∧
            t.answered = some failedAnswer)) ∧
        (n < 2 ^ 24 → s.waited ≠ 0 → ∀ ws, s.answered = some ws →
          (∀ w st ty size owners, ws = w :: st :: ty :: size :: owners →
            s.writes (.seglook d a b) 8 d (word st.toNat ty.toNat size.toNat (owners.map (·.toNat)))) ∧
          (∀ w, ws = [w] → s.gives (.seglook d a b) 8 fun k => k.wrP d 0 true) ∧
          (ws.length < 4 → ws.length ≠ 1 → s.writes (.seglook d a b) 8 d 0))) ∧
      (s.fits .A (sblk a 15) ((sblk a 15).map fun r => [r]) →
        let i := Instr.hitpush a
        (s.waited = 0 → ∃ t, exec i s = .next t ∧ t.me.regs = s.me.regs ∧ t.waited = (if s.homeHere then 1 else s.nextId) ∧
          t.mem = s.mem) ∧
        (s.waited ≠ 0 → s.answered = some failedAnswer → s.unreleased = false → s.gives i 8 id) ∧
        (∀ ws, s.waited ≠ 0 → s.answered = some ws → ws ≠ failedAnswer → s.unreleased = false → isPath s.cur.2 = false → ∃ t rec, exec i s = .next t ∧
          t.me = s.me.retire 8 ∧ ⟨.hitRecordArrival, { tile := s.cur.1, lidx := s.me.lidx, words := rec }⟩ ∈ t.pending ∧
          rec.length = 16 ∧ (∀ j, j < 15 → rec[j]? = some (if a = 63 then 0 else s.me.raw (a + j))) ∧
          rec[15]? = some (BitVec.ofNat 32 (s.me.lidx % 2 ^ 13 + s.cur.1 % 1024 * 2 ^ 13)) ∧ t.mem.hbm = s.mem.hbm)) ∧
      (let nm : Named := { s := sr a, v := (List.range 16).map (d + ·) }
       isPath s.cur.2 = false → s.namesOk nm = true →
        (s.me.regs.dstack ≠ [] → ∃ t, exec (.hitpop d a) s = .next t ∧ s.takesIllegal t) ∧
        (s.me.regs.dstack = [] → s.me.busyAny nm = false → s.myTile.trav.hitQ = [] →
          let mine := fun (h : Nat × List Word) => (h.2.getD 15 0#32).toNat % 2 ^ 13 = s.me.lidx ∧ h.1 / 4 < s.now / 4
          let took := (s.myTile.trav.hits.filter fun h => decide (mine h)).take 32
          ∃ t, exec (.hitpop d a) s = .next t ∧ t.me.regs.exec = BitVec.ofNat 32 (2 ^ took.length - 1) ∧
            (a ≠ 63 → t.me.raw a = BitVec.ofNat 32 took.length ∧ t.me.psn a = false) ∧
            (∀ w, w < 16 → ∀ l, l < 32 →
              (∀ h, took[l]? = some h → (t.me.vreg (d + w)).lane l = h.2.getD w 0 ∧ (t.me.vreg (d + w)).bad l = false) ∧
              (took.length ≤ l → (t.me.vreg (d + w)).lane l = (s.me.vreg (d + w)).lane l ∧
                (t.me.vreg (d + w)).bad l = (s.me.vreg (d + w)).bad l)) ∧
            (∀ r, (∀ w, w < 16 → r ≠ d + w) → t.me.vreg r = s.me.vreg r) ∧
            t.myTile.trav.hits.length + took.length = s.myTile.trav.hits.length ∧
            (∀ h, ¬ mine h → t.myTile.trav.hits.count h = s.myTile.trav.hits.count h) ∧ t.mem = s.mem)))

/-- R244, R469, R476 to R481: the instructions that read a block: where the block lies aligned in scratch that R244 allows, its words are
read at once; BOXT and TRIT then write their results, LAUNCH sends its record and waits for the answer, and SVREQ sends its request with
word 0 replaced; SVPOP takes the oldest record of its launch. R173, R174, R176, R207, R482 to R485: MSTONE makes its launch look at its
commit, a wave waiting in place and a path thread held as a packet; TABORT ends the attempt of its launch with REASON PROGRAM and its
code; TSTAT reads the status; PREPT has no effect without a tier-1 request, and with one stops its wave once its work is done. -/
def Obligations.BlocksAndLaunchControl : Prop :=
  (∀ (s : State) (d a b c q : Nat),
      (∀ va n align cls off, s.waited = 0 → va % align = 0 → s.acqHeld = false → s.scrWin s.cur.1 va = .own off →
        s.myTile.allows s.me.lidx off n false (s.cur.2 == sysCtx) = true →
        s.block va n align cls =
          .ok ((List.range (n / 4)).map fun i => (BitVec.ofNat 32 (s.scrRead s.cur.1 (off + 4 * i) 4), s.scrPois s.cur.1 (off + 4 * i)), s)) ∧
      (let r := fun i => if a = 63 then 0 else (s.me.raw (a + i)).toNat
       (s.fits .A (sr d ++ sblk a 8 ++ xr b ++ sr c) ([xr b, sr c] ++ (sblk a 8).map fun r => [r]) → ∀ ws,
        s.hasBlock b 128 128 1 ws →
        let key := s.lodKey s.cur.1 (s.me.rawx b).toNat
        let h := hashW (hashW (hashW (BitVec.ofNat 32 key.2) (BitVec.ofNat 32 key.1) 0) (s.launch s.me.lidx).r.lodseed 0) (s.me.raw c) 0
        s.writes (.boxt d a b c) 8 d (boxResult (fun i => (ws.getD i 0#32).toNat) r h.toNat)) ∧
       (s.fits .A (sblk d 4 ++ sblk a 8 ++ xr b) (xr b :: (sblk a 7).map fun r => [r]) → ∀ two ws,
        s.hasBlock b (if two then 96 else 48) 16 1 ws → (d = 63 → s.gives (.trit two d a b) 8 id) ∧ (d ≠ 63 →
        let v := fun i => (⟨(ws.getD i 0#32).toNat, (ws.getD (i + 1) 0#32).toNat, (ws.getD (i + 2) 0#32).toNat⟩ : V3)
        let hit := fun j tb => triHit ⟨r 0, r 1, r 2⟩ ⟨r 3, r 4, r 5⟩ (v (12 * j)) (v (12 * j + 3)) (v (12 * j + 6)) tb
        let puts := fun (st : Word) (x : Nat × Nat × Nat) => s.gives (.trit two d a b) 8 fun k =>
          (((k.wr d st).wr (d + 1) (BitVec.ofNat 32 x.1)).wr (d + 2) (BitVec.ofNat 32 x.2.1)).wr (d + 3) (BitVec.ofNat 32 x.2.2)
        (two = false → hit 0 (r 6) = none → s.writes (.trit two d a b) 8 d 0) ∧
        (∀ x, two = false → hit 0 (r 6) = some x → puts 1 x) ∧
        (two = true → hit 0 (r 6) = none → hit 1 (r 6) = none → s.writes (.trit two d a b) 8 d 0) ∧
        (∀ x, two = true → hit 0 (r 6) = none → hit 1 (r 6) = some x → puts 3 x) ∧
        (∀ x, two = true → hit 0 (r 6) = some x → hit 1 x.1 = none → puts 1 x) ∧
        (∀ x y, two = true → hit 0 (r 6) = some x → hit 1 x.1 = some y → puts 3 y)))) ∧
      (s.fits .A (xr a) [xr a] → ∀ ws, s.hasBlock a 64 64 2 ws → s.unreleased = false → ws.length = 16 →
        let rq := fget s.myTile.un.replies q []
        rq.length < 16 → s.me.counter .svc < 63 → ∃ t words, exec (.svreq q a) s = .next t ∧ t.me.regs = (s.me.retire 8).regs ∧
          t.me.flight = s.me.flight ++ [⟨.svc, s.nextId, false⟩] ∧
          fget t.myTile.un.replies q [] = rq ++ [⟨s.nextId, s.me.lidx, none, 0, false⟩] ∧
          words = BitVec.ofNat 32 (q + s.cur.2 * 2 ^ 3 + s.cur.1 % 1024 * 2 ^ 11) :: ws.drop 1 ∧
          ((∃ m ∈ t.msgs, m.vc = 3 ∧ m.payload.what = .serviceRequest ∧ m.payload.arg.words = words ∧ m.payload.arg.id = s.nextId) ∨
            (∃ e ∈ t.pending, e.what = .serviceRequest ∧ e.arg.words = words ∧ e.arg.id = s.nextId)) ∧
          t.mem.hbm = s.mem.hbm ∧ t.mem.scr = s.mem.scr) ∧
      (s.fits .A (sblk d 4) [] →
        let rq := fget s.myTile.un.replies q []
        let ready := fun (r : Reply) => r.lidx = s.me.lidx ∧ r.words.isSome = true ∧ r.t / 4 < s.now / 4
        let puts := fun (t : State) (ws : List Word) (bad : Bool) => exec (.svpop q d) s = .next t ∧
          t.me = (if d = 63 then s.me else (List.range 4).foldl (fun (k : Ctx) i => k.wrP (d + i) (ws.getD i 0#32) bad) s.me).retire 8 ∧
          t.mem = s.mem
        (∀ pre r post, rq = pre ++ r :: post → (∀ x ∈ pre, ¬ ready x) → ready r → (∀ x ∈ pre ++ post, x.id ≠ r.id) →
          ∃ t, puts t (r.words.getD []) r.bad ∧ fget t.myTile.un.replies q [] = pre ++ post) ∧
        ((∀ x ∈ rq, x.lidx ≠ s.me.lidx) → ∃ t, puts t [0#32, 0xFF00#32, 0#32, 0#32] false ∧ fget t.myTile.un.replies q [] = rq) ∧
        ((∃ x ∈ rq, x.lidx = s.me.lidx) → (∀ x ∈ rq, ¬ ready x) → exec (.svpop q d) s = .next s)) ∧
      (s.fits .A (xr d ++ xr a ++ sr b) [xr a, sr b] →
        let n := (s.me.raw b).toNat
        (2 ^ 17 ≤ n → ∃ t, exec (.launch d a b) s = .next t ∧ s.trapped t causeAccess 0 0xF s.me.regs.pc.toNat) ∧
        (∀ st tag, n < 2 ^ 17 → s.waited = 2 → s.answered = some [st, tag] → s.writesx (.launch d a b) 8 d (tag ++ st)) ∧
        (∀ ws, n < 2 ^ 17 → s.waited ≠ 2 → s.hasBlock a 256 64 2 ws → s.unreleased = false → s.dieUp (n / 32768) = false →
          ∃ t, exec (.launch d a b) s = .next t ∧ t.me = (s.me.wrx d 1).retire 8 ∧ t.mem.hbm = s.mem.hbm) ∧
        (∀ ws, n < 2 ^ 17 → s.waited ≠ 2 → s.hasBlock a 256 64 2 ws → s.unreleased = false → s.dieUp (n / 32768) = true →
          ∃ t m, exec (.launch d a b) s = .next t ∧ t.me.regs = s.me.regs ∧ t.waited = 2 ∧ t.msgs = s.msgs ++ [m] ∧
            m.dst = .mgmt (n / 32768) ∧ m.vc = 7 ∧ m.flits = 4 ∧ m.payload.what = .launchMessage ∧ m.payload.arg.words = ws ∧
            m.payload.arg.q = n ∧ t.mem.hbm = s.mem.hbm))) ∧
  (∀ (s : State) (a d n : Nat),
      let x := s.launch s.me.lidx
      (s.fits .A [] [] →
        (isPath s.cur.2 = false → ∃ t, exec .mstone s = .next t ∧ t.me.status = .mstone ∧ t.me.regs = (s.me.retire 8).regs ∧
          ⟨.commitRequest, { lidx := s.me.lidx }⟩ ∈ t.pending ∧ t.mem = s.mem) ∧
        (∀ rpc, isPath s.cur.2 = true → s.me.quiet = true → s.me.uiq = [] → rpcOf (s.me.regs.pc + 8#48) x.r.entry = some rpc →
          (∀ r, r < 10 → s.me.psn r = false) → ∃ t p, exec .mstone s = .next t ∧ t.me.status = .idle ∧
            t.myTile.trav.heldPk = s.myTile.trav.heldPk ++ [p] ∧ p.lidx = s.me.lidx ∧ p.thread = s.me.hdr.thread ∧ p.res = true ∧
            p.rpc = rpc ∧ p.s = (List.range 10).map s.me.raw ∧ p.pw = s.me.regs.pw ∧
            ⟨.commitRequest, { lidx := s.me.lidx }⟩ ∈ t.pending ∧ t.mem.hbm = s.mem.hbm)) ∧
      (s.fits .A (sr a) [sr a] → ∀ y, fget? s.launches s.me.lidx = some y → y.run = 1 →
        (y.commit = 4 → y.later = none → ∃ t z, exec (.tabort a) s = .next t ∧ fget? t.launches s.me.lidx = some z ∧
          z.later = some (6, 0, false, s.cur.1, (s.me.raw a).toNat % 2 ^ 16)) ∧
        (y.commit ≠ 4 → ∃ t, exec (.tabort a) s = .next t ∧ fget? t.launches s.me.lidx = none ∧
          (y.r.txn = true → y.att.attempts + 1 < (s.queue y.queue).attlim → ∃ z, fget? t.requeued y.tag = some z ∧ z.att.reason = 6 ∧
            z.att.pcode = (s.me.raw a).toNat % 2 ^ 16 ∧ z.att.attempts = y.att.attempts + 1 ∧ z.att.state = 0))) ∧
      (s.fits .A (xr d) [] → ∃ v : Dword, s.writesx (.tstat d) 8 d v ∧ v.toNat % 2 ^ 8 = x.att.attempts % 256 ∧
        v.getLsbD 10 = x.sheltered ∧ v.getLsbD 11 = x.r.txn ∧ v.toNat / 2 ^ 12 % 16 = x.att.reason % 16 ∧
        v.toNat / 2 ^ 16 % 2 ^ 16 = x.att.pcode % 2 ^ 16 ∧ v.toNat / 2 ^ 32 % 2 ^ 16 = x.att.milestone % 2 ^ 16 ∧
        v.toNat / 2 ^ 48 = (if x.r.txn then x.vtag?.getD 0 else 0) % 2 ^ 16) ∧
      (s.fits .W (sr a) [] →
        (s.me.regs.q < 8 * n → ∃ t, exec (.prept a n) s = .next t ∧ s.takesIllegal t) ∧
        (8 * n ≤ s.me.regs.q → x.tier ≠ 1 → s.gives (.prept a n) 8 id) ∧
        (8 * n ≤ s.me.regs.q → x.tier = 1 → s.me.psnAny (sr a) = false → (∀ c, c ≠ .cpy → s.me.counter c = 0) → s.me.attachedDone = true →
          s.myTile.queuedAll = [] → ∃ t, exec (.prept a n) s = .next t ∧ t.me.status = .stopped ∧ t.me.regs = (s.me.retire 8).regs ∧
            t.me.live = 8 * n ∧ ⟨.switchOut, { lidx := s.me.lidx }⟩ ∈ t.pending ∧ t.mem = s.mem)))

/-- R54, R55, R196, R211, R213 to R215, R228, R241: a packet that arrives at a tile: of a dead index it is discarded; for a segment that
is not there it goes to the segment's home; it starts a thread in a free slot where it can, and else joins the inbox or, where that is
full, the lay-by. SLOT_CLAIM starts a waiting packet, and INBOX_REFILL moves packets from the lay-by. The 64 bytes of a packet are written
where it stands in the inbox ring; which place that is, is the model's (log 68). R55, R213, R215 to R218, R238: the other events of a
tile's packets: extents borrowed and given back, the class table read once for a launch, credits asked for, granted and returned, hit
records reserved and placed, and a launch index confirmed free. -/
def Obligations.PacketsAndResources : Prop :=
  (∀ (s : State) (p : Packet),
      let a := s.arg
      let x := s.tile a.tile
      let v := x.trav
      let begins := fun (i : Nat) (t : State) => ∃ opn, x.slotFor p.lidx = some opn ∧
        let k := t.ctx a.tile (192 + i)
        let entry := if p.res then BitVec.ofInt 48 ((s.launch p.lidx).r.entry + 2 * p.rpc.toInt)
          else BitVec.ofNat 48 (((x.share? p.lidx).bind fun h => h.classes.bind fun cl => cl[p.cls]?).getD 0)
        k.regs.pc = entry ∧ k.regs.pw = p.pw ∧ (∀ r, r < 10 → k.raw r = p.s.getD r 0#32) ∧ (∀ r, 10 ≤ r → k.raw r = 0) ∧ k.regs.sp = 0 ∧
        k.lidx = p.lidx ∧ k.hdr = { thread := p.thread, seq := p.seq, opkg := p.opkg, otile := p.otile, cls := p.cls,
                                    seg := if p.dkind then p.dest else 0, opn := opn } ∧
        (p.res = true → k.status = .ready)
      let slot := fun (i : Nat) => i < 30 ∧ (x.ctx (192 + i)).status = .idle ∧ ∀ j, j < i → (x.ctx (192 + j)).status ≠ .idle
      let quiet := (∀ q ∈ v.inbox, s.canStart a.tile q = false ∧ s.indexLive q.lidx = true) ∧ ∀ q ∈ v.layby, s.indexLive q.lidx = true
      let mailed := fun (t : State) => t.mem.hbm = s.mem.hbm ∧ t.mem.sys = s.mem.sys ∧ t.mem.peer = s.mem.peer ∧ t.mem.posted = s.mem.posted
      let lo := scrKey a.tile 0x8000
      (a.packet = p →
        (s.indexLive p.lidx = false → exec .threadPacketArrival s = .next s) ∧
        (s.indexLive p.lidx = true → p.dkind = true → (∀ g ∈ v.segs, g.seg ≠ p.dest) →
          (s.segHome p.dest ≠ a.tile → s.runsTo .threadPacketArrival fun t =>
            t.mails (.tile a.tile) (.tile (s.segHome p.dest)) 5 .segmentForward { tile := s.segHome p.dest, packet := p, who := (a.tile, noCtx) } ∧ t.mem = s.mem) ∧
          (s.segHome p.dest = a.tile → s.runsTo .threadPacketArrival fun t =>
            t.awaits .segmentForward { tile := a.tile, packet := p, who := (a.tile, noCtx) } ∧ t.mem = s.mem)) ∧
        (s.indexLive p.lidx = true → (p.dkind = false ∨ ∃ g ∈ v.segs, g.seg = p.dest) → (x.share? p.lidx).isSome = true → quiet →
          (∀ i, v.layby = [] → s.canStart a.tile p = true → slot i → s.runsTo .threadPacketArrival fun t =>
            begins i t ∧ (t.tile a.tile).trav.inbox = v.inbox ∧ t.mem = s.mem) ∧
          (v.layby = [] → s.canStart a.tile p = false → v.inbox.length < 256 * (x.inboxU + 1) → s.runsTo .threadPacketArrival fun t =>
            (t.tile a.tile).trav.inbox = v.inbox ++ [p] ∧ (t.tile a.tile).trav.layby = [] ∧ ∃ i, i < 256 * (x.inboxU + 1) ∧
            t.mem = { s.mem with scr := s.mem.scr.writeN (lo + 64 * i) 64 (packetImage p) }) ∧
          (v.layby ≠ [] ∨ (s.canStart a.tile p = false ∧ 256 * (x.inboxU + 1) ≤ v.inbox.length) → s.runsTo .threadPacketArrival fun t =>
            (t.tile a.tile).trav.inbox = v.inbox ∧ (t.tile a.tile).trav.layby = v.layby ++ [p] ∧ t.mem = s.mem))) ∧
      (∀ i, v.inbox = [p] → s.indexLive p.lidx = true → s.canStart a.tile p = true → slot i → s.runsTo .slotClaim fun t =>
        begins i t ∧ (t.tile a.tile).trav.inbox = [] ∧ t.mem = s.mem) ∧
      (let n := 256 * (x.inboxU + 1) - v.inbox.length
       quiet → (∀ q ∈ v.layby, s.canStart a.tile q = false) → 2 * v.inbox.length < 256 * (x.inboxU + 1) →
        s.runsTo .inboxRefill fun t => (t.tile a.tile).trav.inbox = v.inbox ++ v.layby.take n ∧
          (t.tile a.tile).trav.layby = v.layby.drop n ∧ mailed t ∧
          (s.mem.scr.wf = true → ∀ k, k < lo ∨ lo + 64 * (256 * (x.inboxU + 1)) ≤ k → t.mem.scr.read k = s.mem.scr.read k))) ∧
  (∀ (s : State),
      let a := s.arg
      let x := s.tile a.tile
      let v := x.trav
      (a.last = false → a.ok = false →
        (v.claiming = true ∨ v.layby.length ≤ v.laid.length → exec .extentClaim s = .next s) ∧
        (v.claiming = false → v.laid.length < v.layby.length → s.runsTo .extentClaim fun t => (t.tile a.tile).trav = { v with claiming := true } ∧
          t.mails (.tile a.tile) freeList 0 .extentClaim { tile := a.tile, last := true } ∧ t.mem = s.mem) ∧
        ((∀ e ∈ v.extents, e ∈ v.usedExtents) → exec .extentReturn s = .next s) ∧
        (∀ e, v.extents.find? (fun e => !v.usedExtents.contains e) = some e → s.runsTo .extentReturn fun t =>
          (t.tile a.tile).trav.extents = v.extents.filter (· != e) ∧ t.mem = s.mem ∧
          t.mails (.tile a.tile) freeList 0 .extentReturn { tile := a.tile, last := true, idx := e.1, off := e.2 })) ∧
      (a.last = true →
        (s.freeExtent = none → s.runsTo .extentClaim fun t => t.lent = s.lent ∧ t.mem = s.mem ∧
          t.mails freeList (.tile a.tile) 1 .extentClaim { tile := a.tile, ok := true }) ∧
        (∀ e, s.freeExtent = some e → s.runsTo .extentClaim fun t => t.lent = s.lent ++ [(e, a.tile)] ∧ t.mem = s.mem ∧
          t.mails freeList (.tile a.tile) 1 .extentClaim { tile := a.tile, ok := true, val := 1, idx := e.1, off := e.2 }) ∧
        (s.runsTo .extentReturn fun t => t.lent = s.lent.filter (· != ((a.idx, a.off), a.tile)) ∧ t.mem = s.mem ∧
          t.mails freeList (.tile a.tile) 1 .extentReturn { tile := a.tile, ok := true })) ∧
      (a.last = false → a.ok = true →
        (a.val = 1 → s.runsTo .extentClaim fun t => (t.tile a.tile).trav.extents = v.extents ++ [(a.idx, a.off)] ∧
          (t.tile a.tile).trav.claiming = false ∧ t.mem = s.mem) ∧
        (a.val ≠ 1 → s.runsTo .extentClaim fun t => (t.tile a.tile).trav = { v with claiming := false } ∧
          s.timed t 256 .extentClaim { tile := a.tile } ∧ t.mem = s.mem) ∧
        exec .extentReturn s = .next s) ∧
      (∀ h, x.share? a.lidx = some h →
        (h.classes.isSome = true ∨ h.ended = true → exec .classTableRead s = .next s) ∧
        (h.classes = none → h.ended = false → s.indexLive a.lidx = true →
          let base := (s.launch a.lidx).r.classtab
          (base = 0 → s.runsTo .classTableRead fun t => (t.tile a.tile).share? a.lidx = some { h with classes := some [] } ∧
            t.awaits .slotClaim { tile := a.tile } ∧ t.mem = s.mem) ∧
          (∀ ps u, base ≠ 0 → s.readClasses a.tile a.lidx base 64 = .ok ps →
            s.linesFor (dieOf a.tile) ((ps.flatMap fun p => placeLines p 8 false).eraseDups) ⟨.classTableRead, a⟩ = (true, u) →
            ps.length = 64 ∧ s.runsTo .classTableRead fun t => t.awaits .slotClaim { tile := a.tile } ∧ t.mem = s.mem ∧
            (t.tile a.tile).share? a.lidx = some { h with
              classes := some (ps.map fun p => if u.placeDead p then 0 else (u.agentRead (dieOf a.tile) p 8).1) }) ∧
          (∀ va, base ≠ 0 → s.readClasses a.tile a.lidx base 64 = .error (.miss, va) → s.runsTo .classTableRead fun t =>
            s.timed t 4 .classTableRead { tile := a.tile, lidx := a.lidx } ∧ (t.tile a.tile).share? a.lidx = some h ∧ t.mem = s.mem)) ∧
        (a.ok = false → a.req ≠ 1 → h.creditQ = [] →
          (0 < h.credits → a.who.1 = a.tile → s.runsTo .creditRequest fun t => s.hears t a.tile a.who.2 [] ∧
            (t.tile a.tile).share? a.lidx = some { h with credits := h.credits - 1 } ∧ t.mem = s.mem) ∧
          (0 < h.credits → a.who.1 ≠ a.tile → a.who.1 < 1024 → s.runsTo .creditRequest fun t =>
            t.mails (.tile a.tile) (.tile a.who.1) 7 .creditRequest { tile := a.who.1, ctx := a.who.2, lidx := a.lidx, ok := true } ∧
            (t.tile a.tile).share? a.lidx = some { h with credits := h.credits - 1 } ∧ t.mem = s.mem) ∧
          (h.credits = 0 → s.runsTo .creditRequest fun t =>
            (t.tile a.tile).share? a.lidx = some { h with creditQ := [a.who] } ∧ t.mem = s.mem)) ∧
        (h.creditQ = [] → s.runsTo .creditReturnMessage fun t => t.awaits .commitRequest { lidx := a.lidx } ∧
          (t.tile a.tile).share? a.lidx = some { h with credits := h.credits + 1 } ∧ t.mem = s.mem) ∧
        (∀ c rest, h.creditQ = (a.tile, c) :: rest → s.runsTo .creditReturnMessage fun t => s.hears t a.tile c [] ∧
          (t.tile a.tile).share? a.lidx = some { h with creditQ := rest } ∧ t.mem = s.mem)) ∧
      (a.ok = true → (s.runsTo .creditRequest fun t => s.hears t a.tile a.ctx [] ∧ t.mem = s.mem) ∧
        (s.runsTo .hitReservation fun t => s.hears t a.tile a.ctx [] ∧ t.mem = s.mem)) ∧
      (a.ok = false → a.req ≠ 1 → v.hitQ = [] →
        (v.hits.length + v.hitRes < 256 → a.who.1 = a.tile → s.runsTo .hitReservation fun t => s.hears t a.tile a.who.2 [] ∧
          (t.tile a.tile).trav.hitRes = v.hitRes + 1 ∧ (t.tile a.tile).trav.hitQ = [] ∧ t.mem = s.mem) ∧
        (256 ≤ v.hits.length + v.hitRes → s.runsTo .hitReservation fun t => (t.tile a.tile).trav.hitQ = [a.who] ∧
          (t.tile a.tile).trav.hitRes = v.hitRes ∧ t.mem = s.mem)) ∧
      (let live := s.indexLive ((a.words.getD 15 0#32).toNat % 2 ^ 13)
       (live = true → s.runsTo .hitRecordArrival fun t => (t.tile a.tile).trav.hits = v.hits ++ [(s.now, a.words)] ∧
          (t.tile a.tile).trav.hitRes = v.hitRes - 1 ∧ ∃ i, i < 256 ∧
          t.mem = { s.mem with scr := s.mem.scr.writeN (scrKey a.tile (0x4000 + 64 * i)) 64 (wordsNat a.words) }) ∧
       (live = false → v.hitQ = [] → s.runsTo .hitRecordArrival fun t => (t.tile a.tile).trav.hits = v.hits ∧
          (t.tile a.tile).trav.hitRes = v.hitRes - 1 ∧ t.mem = s.mem)) ∧
      (∀ ts, fget? s.freed a.lidx = some ts →
        ((∀ u ∈ ts, u = a.tile) → s.runsTo .indexConfirmation fun t => fget? t.freed a.lidx = none ∧ t.mem = s.mem) ∧
        ((∃ u ∈ ts, u ≠ a.tile) → s.runsTo .indexConfirmation fun t =>
          fget? t.freed a.lidx = some (ts.filter fun u => u ≠ a.tile) ∧ t.mem = s.mem)))

/-- R226 to R233, R241, R473: the directory at a segment's home and the route caches: a lookup is answered with the entry, a packet goes
to an owner, waits for the page-in of a COLD segment, or is dropped; a page-in and a replica fill their copy from the backing, and a
change of the owners is broadcast and acknowledged. Each change is written to the entry's 16 bytes in the home's directory slice. R224,
R227, R234 to R236, R243, R296: the supervisor's functions, each with its status in s0 and its context going on at the next instruction;
the change of a tile's partition once the tile is empty; and the move of a tile's context to a free tile, with the signpost left behind. -/
def Obligations.SegmentDirectory : Prop :=
  (∀ (s : State) (e : DirEntry),
      let a := s.arg
      let n := a.seg
      let h := s.segHome n
      let x := s.tile a.tile
      let entry := fun (t : State) (e : DirEntry) => t.dirEntry? n = some e
      let all := s.liveTiles
      (a.ok = false → s.runsTo .routeCacheMiss fun t => t.mem = s.mem ∧
        t.mails (.tile a.tile) (.tile a.who.1) 7 .routeCacheMiss
          { tile := a.who.1, ctx := a.who.2, seg := n, ok := true, words := ((s.dirEntry? n).map DirEntry.say).getD [] }) ∧
      (∀ o st ty size u os, a.ok = true → a.words = o :: st :: ty :: size :: u :: os → os.take u.toNat ≠ [] → st.toNat ≠ 4 → st.toNat ≠ 5 →
        s.runsTo .routeCacheMiss fun t => t.mem = s.mem ∧
          (t.tile a.tile).trav.route? n = some ((os.take u.toNat).map (·.toNat), st.toNat, ty.toNat, size.toNat) ∧
          (a.ctx ≠ noCtx → s.hears t a.tile a.ctx ([o, st, ty, size] ++ os.take u.toNat))) ∧
      (s.indexLive a.packet.lidx = true → a.packet.dest = n → h ≠ a.tile → s.runsTo .segmentForward fun t =>
        t.mails (.tile a.tile) (.tile h) 5 .segmentForward { a with tile := h } ∧ t.mem = s.mem) ∧
      (s.indexLive a.packet.lidx = true → a.packet.dest = n → h = a.tile →
        (s.dirEntry? n = none → s.runsTo .segmentForward fun t =>
          (t.launch a.packet.lidx).att.drops = min 0xFFFF ((s.launch a.packet.lidx).att.drops + 1) ∧ t.mem = s.mem) ∧
        (entry s e → e.state = 0 → a.packet.dkind = true → (∀ g ∈ x.trav.segs, g.seg ≠ n) → (x.share? a.packet.lidx).isSome = true →
          (∀ q ∈ x.trav.inbox, s.canStart h q = false ∧ s.indexLive q.lidx = true) → x.trav.layby = [] → x.trav.inbox.length < x.inboxCap →
          s.runsTo .segmentForward fun t => (t.tile h).trav.inbox = x.trav.inbox ++ [a.packet] ∧ t.mem.hbm = s.mem.hbm ∧
          ((∀ v ∈ s.pending ++ s.timers.map (·.2), v.what ≠ .pageIn ∧ v.what ≠ .pageInRetry) →
            t.awaits .pageIn { seg := n, tile := a.who.1 })) ∧
        (entry s e → (e.state = 4 ∨ e.state = 5) → s.runsTo .segmentForward fun t =>
          (t.launch a.packet.lidx).att.drops = min 0xFFFF ((s.launch a.packet.lidx).att.drops + 1) ∧ t.mem = s.mem) ∧
        (∀ o, entry s e → e.state = 2 → e.owners ≠ [] → e.owners[ownerIdx a.packet.thread e.owners.length]? = some o →
          (o = h → s.runsTo .segmentForward fun t => t.awaits .threadPacketArrival { tile := o, packet := a.packet }) ∧
          (o ≠ h → s.tileThere o = true → s.runsTo .segmentForward fun t =>
            t.mails (.tile h) (.tile o) 5 .threadPacketArrival { tile := o, packet := a.packet }))) ∧
      (entry s e → e.state = 0 → e.acks = [] → ∀ i, i = .pageIn ∨ i = .pageInRetry →
        (s.chooseOwner e.size a.tile [] = none → s.runsTo i fun t =>
          s.timed t 196608 .pageInRetry { seg := n, tile := a.tile } ∧ entry t e ∧ t.mem = s.mem) ∧
        (∀ o, s.chooseOwner e.size a.tile [] = some (o, true) → s.runsTo i fun t =>
          t.awaits .segmentEvict { tile := o, val := e.size } ∧ s.timed t 192 .pageIn { seg := n, tile := a.tile } ∧ t.mem = s.mem) ∧
        (∀ o, s.chooseOwner e.size a.tile [] = some (o, false) → s.runsTo i fun t =>
          s.dirWritten t n { e with state := 1, owners := [o], press := 0, noted := false, acks := all } ∧
          s.timed t (e.size * 192) .pageInDone { seg := n, tile := o } ∧
          (∃ c ∈ (t.tile o).trav.segs, c.seg = n ∧ c.size = e.size ∧ c.ready = false) ∧
          (o ≠ h → ∀ p ∈ (t.tile h).trav.inbox ++ (t.tile h).trav.layby, p.dkind = true → p.dest ≠ n))) ∧
      (entry s e → e.state = 1 → e.owners = [a.tile] →
        (∀ f, s.fillCopy a.tile n e = (true, f) → s.runsTo .pageInDone fun t => f.dirWritten t n { e with state := 2 } ∧
          t.awaits .slotClaim { tile := a.tile }) ∧
        (∀ f, s.fillCopy a.tile n e = (false, f) → e.acks = [] → s.runsTo .pageInDone fun t =>
          s.dirWritten t n { e with state := 5, owners := [], acks := all })) ∧
      (entry s e → e.state = 4 → e.owners = [a.tile] →
        (∀ f, s.fillCopy a.tile n e = (true, f) → s.runsTo .pageInDone fun t => entry t e ∧ t.mem = f.mem ∧
          t.awaits .slotClaim { tile := a.tile }) ∧
        (∀ f, s.fillCopy a.tile n e = (false, f) → s.runsTo .pageInDone fun t => entry t e ∧ t.mem = s.mem ∧
          (∀ g ∈ (t.tile a.tile).trav.segs, g.seg ≠ n) ∧ t.awaits .dropComplete { tile := h, seg := n })) ∧
      (entry s e → e.state = 3 → e.owners.getLast? = some a.tile → e.acks = [] →
        (∀ f, s.fillCopy a.tile n e = (true, f) → s.runsTo .replicaDone fun t => f.dirWritten t n { e with state := 2, acks := all }) ∧
        (∀ f, s.fillCopy a.tile n e = (false, f) → s.runsTo .replicaDone fun t =>
          s.dirWritten t n { e with state := 2, owners := e.owners.dropLast, acks := all })) ∧
      (∀ t base m f, s.mem.scr.wf = true → s.fillLines t base e m = (true, f) → ∀ i, i < m → ∃ k,
        s.poolKey e.home e.hsel (s.substFrame e.home e.hsel (e.back + 64 * i / 65536) * 65536 + 64 * i % 65536) = some k ∧
        s.linePoison (lineOf k) = false ∧ f.mem.scr.readN (scrKey t (base + 64 * i)) 64 = s.mem.hbm.readN k 64 ∧
        f.mem.hbm = s.mem.hbm) ∧
      (a.ok = true → entry s e → s.runsTo .pressureSample fun t => s.dirWritten t n { e with noted := true }) ∧
      (a.ok = false → s.runsTo .pressureSample fun t =>
        (t.tile a.tile).trav.sample = x.trav.inbox.length + x.trav.layby.length ∧ t.mem = s.mem) ∧
      (x.trav.dir = [(n, e)] → h = a.tile →
        let press := if e.noted then min 63 (e.press + 1) else 0
        (press < 16 ∨ e.state ≠ 2 → s.runsTo .pressureInterval fun t =>
          s.dirWritten t n { e with press := press, noted := false }) ∧
        (∀ o, 16 ≤ press → e.state = 2 → e.owners.length < 4 → e.acks = [] → s.chooseOwner e.size h e.owners = some (o, false) →
          s.runsTo .pressureInterval fun t =>
            s.dirWritten t n { e with state := 3, owners := e.owners ++ [o], press := 0, noted := false, acks := all } ∧
            s.timed t (e.size * 192) .replicaDone { seg := n, tile := o })) ∧
      (∀ g, a.ok = false → x.evictable = [g] → g.seg = n → (a.val = 0 ∨ (x.segPlace a.val = none ∧ ∀ c ∈ x.trav.segs, c.leaving = false)) →
        s.runsTo .segmentEvict fun t => (∀ c ∈ (t.tile a.tile).trav.segs, c.seg = n → c.leaving = true) ∧ t.mem = s.mem ∧
          t.mails (.tile a.tile) (.tile h) 7 .segmentEvict { tile := h, seg := n, ok := true, who := (a.tile, noCtx) }) ∧
      (a.ok = true → entry s e →
        (e.state = 4 ∨ a.who.1 ∉ e.owners → exec .segmentEvict s = .next s) ∧
        (e.state ≠ 4 → a.who.1 ∈ e.owners → e.state ≠ 2 ∨ e.acks ≠ [] → s.runsTo .segmentEvict fun t =>
          s.timed t 192 .segmentEvict a ∧ t.mem = s.mem ∧ t.tiles = s.tiles) ∧
        (e.state = 2 → a.who.1 ∈ e.owners → e.acks = [] → s.runsTo .segmentEvict fun t =>
          let left := e.owners.filter fun o => o != a.who.1
          s.dirWritten t n { e with owners := left, state := if left.isEmpty then 0 else 2, acks := all })) ∧
      (a.last = true → entry s e →
        (e.acks = [] → s.runsTo .ownerBroadcast fun t => s.dirWritten t n { e with acks := all }) ∧
        (e.acks ≠ [] → s.runsTo .ownerBroadcast fun t => s.timed t 192 .ownerBroadcast a ∧ t.tiles = s.tiles ∧ t.mem = s.mem)) ∧
      (a.last = false → a.ok = true → entry s e → s.runsTo .ownerBroadcast fun t =>
        s.dirWritten t n { e with acks := e.acks.filter fun u => u != a.who.1 } ∧
        ((∀ u ∈ e.acks, u = a.who.1) → e.state = 4 → t.awaits .dropComplete { tile := a.tile, seg := n })) ∧
      (a.last = false → a.ok = false → s.runsTo .ownerBroadcast fun t => t.mem = s.mem ∧
        t.mails (.tile a.tile) (.tile a.who.1) 7 .ownerBroadcast { tile := a.who.1, seg := n, ok := true, who := (a.tile, noCtx) } ∧
        (routeOf a.words = none → (t.tile a.tile).trav.route? n = none) ∧
        ((a.words.getD 1 0#32).toNat ≠ 4 → (∀ o ∈ a.words.drop 5, o.toNat ≠ a.tile) →
          ∀ g ∈ (t.tile a.tile).trav.segs, g.seg ≠ n)) ∧
      (entry s e → e.state = 4 → e.acks = [] → (∀ o ∈ e.owners, (s.tile o).bound n = false) → s.runsTo .dropComplete fun t =>
        t.dirEntry? n = none ∧ t.mem = { s.mem with scr := s.mem.scr.writeN (scrKey h (16 * e.slot)) 16 0 }) ∧
      (entry s e → e.state ≠ 4 → exec .dropComplete s = .next s)) ∧
  (∀ (s : State),
      let a := s.arg
      let k := s.ctx a.tile a.ctx
      let n := (k.raw 1).toNat
      let w := (k.raw 2).toNat
      let size := w / 256 % 256
      let x := s.tile a.tile
      let puts := fun (i : Instr) (st : Nat) (p : State → Prop) => s.runsTo i fun t => s.svcEnds t st ∧ p t
      let ends := fun (i : Instr) (st : Nat) (p : State → Prop) => puts i st fun t => t.mem = s.mem ∧ p t
      (s.svcReady →
        (let wrong := 2 ^ 24 ≤ n ∨ n = 0 ∨ w / 8 % 32 ≠ 0 ∨ w / 2 ^ 16 ≠ 0 ∨ size = 0 ∨ 96 < size
         let dir := (s.tile (s.segHome n)).trav.dir
         (wrong → ends .segdef 3 fun _ => True) ∧
         (¬ wrong → (s.dirEntry? n).isSome = true → ends .segdef 1 fun t => t.dirEntry? n = s.dirEntry? n) ∧
         (¬ wrong → s.dirEntry? n = none →
          (s.backing a.tile (s.asidOf k.lidx) (k.rawx 4).toNat size = none → ends .segdef 4 fun t => t.dirEntry? n = none) ∧
          (∀ home hsel back, s.backing a.tile (s.asidOf k.lidx) (k.rawx 4).toNat size = some (home, hsel, back) →
            (512 ≤ dir.length → ends .segdef 2 fun t => t.dirEntry? n = none) ∧
            (dir.length < 512 → puts .segdef 0 fun t => s.dirWritten t n
              { slot := (s.tile (s.segHome n)).trav.dirSlot, state := 0, ty := w % 4, pin := w.testBit 2, size := size, owners := [], press := 0, noted := false,
                     home := home, hsel := hsel, back := back, acks := [] })))) ∧
        (2 ^ 24 ≤ n ∨ n = 0 → ends .segdrop 3 fun _ => True) ∧
        (n < 2 ^ 24 → n ≠ 0 → s.dirEntry? n = none → ends .segdrop 5 fun _ => True) ∧
        (∀ e, n < 2 ^ 24 → n ≠ 0 → s.dirEntry? n = some e →
          (e.state = 4 → ends .segdrop 0 fun t => t.dirEntry? n = some e) ∧
          (e.state ≠ 4 → e.acks = [] → puts .segdrop 0 fun t => s.dirWritten t n { e with state := 4, acks := s.liveTiles } ∧
            let v := (t.tile (s.segHome n)).trav
            (s.segHome n ∉ e.owners → ∀ p ∈ v.inbox ++ v.layby, p.dkind = true → p.dest ≠ n)) ∧
          (e.state ≠ 4 → e.acks ≠ [] → s.runsTo .segdrop fun t => s.timed t 192 .segdrop a ∧ t.tiles = s.tiles)) ∧
        (s.asidOf k.lidx ≠ 0 → ends .scrset 6 fun t => (t.tile a.tile).scrset = x.scrset) ∧
        (s.asidOf k.lidx = 0 →
          let bad := n / 4 % 8 ≠ 0 ∨ n / 2 ^ 10 ≠ 0 ∨ 24 < n / 32 % 32
          (bad → ends .scrset 3 fun t => (t.tile a.tile).scrset = x.scrset) ∧
          (¬ bad → ends .scrset 0 fun t => (t.tile a.tile).scrset = some (n % 4, n / 32 % 32) ∧ t.awaits .scrsetApply { tile := a.tile })) ∧
        ends .nofunc 7 fun _ => True) ∧
      (k.status ≠ .trapped → ∀ i ∈ [Instr.segdef, .segdrop, .scrset, .nofunc], exec i s = .next s) ∧
      (∀ i g, x.scrset = some (i, g) →
        let empty := (∀ h ∈ x.shares, h.guest = true) ∧ x.trav.inbox = [] ∧ x.trav.layby = [] ∧ x.trav.segs = []
        (empty → s.runsTo .scrsetApply fun t => (t.tile a.tile).inboxU = i ∧ (t.tile a.tile).segU = g ∧
          (t.tile a.tile).scrset = none ∧ t.mem = s.mem) ∧
        (¬ empty → s.runsTo .scrsetApply fun t => t.tile a.tile = x ∧ s.timed t tileTicks .scrsetApply { tile := a.tile } ∧ t.mem = s.mem)) ∧
      (let from_ := a.tile
       let to_ := a.val
       from_ ≠ to_ → s.dieUp (dieOf from_) = true → s.dieUp (dieOf to_) = true →
        (∀ p ∈ s.exch, p.1 ≠ from_ ∧ p.2 ≠ from_ ∧ p.1 ≠ to_ ∧ p.2 ≠ to_) → (s.tile to_).isFree = true →
        (16 ≤ (s.tile to_).signposts.length → s.runsTo .liveMigration fun t => s.timed t 192 .liveMigration a ∧ t.exch = s.exch) ∧
        ((s.tile to_).signposts.length < 16 → s.exch.length < 8 → s.runsTo .liveMigration fun t => t.exch = s.exch ++ [(from_, to_)] ∧
          t.exchanged from_ = to_ ∧ t.exchanged to_ = from_ ∧
          (t.tile to_).signposts = (s.tile to_).signposts ++ [(from_, to_, s.now)] ∧ (t.tile from_).ctxs = (s.tile from_).ctxs ∧
          (t.tile from_).un.l1 = [] ∧ (t.tile from_).un.ic = [] ∧ (t.tile from_).un.tlb = [] ∧
          (∀ g ∈ (s.tile from_).trav.segs, t.awaits .ownerBroadcast { tile := s.segHome g.seg, seg := g.seg, last := true }) ∧ t.awaits .signpostRetire { tile := to_, val := from_ } ∧
          t.mem = s.mem)) ∧
      (s.runsTo .signpostForward fun t => t.mem = s.mem ∧
        t.msgs = s.msgs.map fun m => if m.id = a.id ∧ m.via = 1 ∧ m.at_ = m.to_ then { m with to_ := s.routerOf m.dst, via := 0 } else m) ∧
      ((∃ p ∈ x.signposts, p.1 = a.val) →
        ((∀ m ∈ s.msgs, m.dst = .tile a.val → m.to_ = s.routerOf m.dst) → s.runsTo .signpostRetire fun t => t.mem = s.mem ∧
          (t.tile a.tile).signposts = x.signposts.filter fun p => p.1 != a.val) ∧
        ((∃ m ∈ s.msgs, m.dst = .tile a.val ∧ m.to_ ≠ s.routerOf m.dst) → s.runsTo .signpostRetire fun t =>
          s.timed t 192 .signpostRetire a ∧ t.tile a.tile = x)))

/-- R41, R54, R88, R91, R93, R97 to R102, R105, R161: tokens at homes and holders: what a request takes from its home and from a holder
once the L1 copies are gone, what an arrival and a return leave, a retry that leads to a persistent request, and an eviction. R103 to
R105, R107 to R109, R116: persistent requests and censuses: a slice asks its die's unit for a credit of the line's arbiter and waits while
none is free; a request joins the arbiter's table, the oldest is activated everywhere, holders and the home send it their tokens, and once
what was linked is done it is deactivated everywhere and the next is activated; a time-out or the loss of a die puts a census before the
table, which collects the tokens and adds those that are missing. -/
def Obligations.TokenCoherence : Prop :=
  (∀ (s : State),
      let a := s.arg
      let line := a.line
      let h := s.home line
      let y := s.sliceLine a.die line
      let slice := s.slicePlace a.die line
      let arrival := fun (d tok : Nat) (own data : Bool) =>
        ({ tile := sliceTile d (s.keyAddr line), die := d, line := line, tok := tok, own := own, ok := data } : Arg)
      let same := fun (t : State) => t.mem.hbm = s.mem.hbm ∧ t.mem.scr = s.mem.scr
      let calm := ∀ q ∈ s.launches, q.2.matchable = true → q.2.vtag? = none
      let bare := y.acks = [] ∧ y.dstate = 0
      (s.retraining line = true → ∀ i, i = .transientRequest ∨ i = .memoryRead → s.runsTo i fun t => same t ∧ s.timed t 192 i a ∧
        t.mem = s.mem) ∧
      (s.retraining line = false → ∀ r, s.persistentFor line = some r → exec .transientRequest s = .next s) ∧
      (s.retraining line = false → s.persistentFor line = none →
        let hint := h.hint ||| BitVec.twoPow 4 a.req
        let ask := fun (t : State) => ∀ i, i < 4 → i ≠ a.req → h.hint.getLsbD i = true → t.mails (homePlace line) (s.slicePlace i line) 0
          .forwardedRequest { die := i, req := a.req, line := line, write := a.write, lidx := a.lidx }
        (a.write = true → h.hown = true → s.runsTo .transientRequest fun t => same t ∧ ask t ∧
          t.home line = { h with htok := 0, hown := false, hint := hint } ∧
          t.awaits .memoryRead { die := a.req, line := line, tok := h.htok, own := true, ok := true }) ∧
        (a.write = true → h.hown = false → s.runsTo .transientRequest fun t => same t ∧ ask t ∧
          t.home line = { h with htok := 0, hown := false, hint := hint } ∧
          (h.htok ≠ 0 → t.mails (homePlace line) (s.slicePlace a.req line) 1 .tokenArrival (arrival a.req h.htok false false))) ∧
        (a.write = false → h.hown = true → s.runsTo .transientRequest fun t => same t ∧
          t.home line = { h with htok := h.htok - 1, hown := h.htok != 1, hint := hint } ∧
          t.awaits .memoryRead { die := a.req, line := line, tok := 1, own := h.htok == 1, ok := true }) ∧
        (a.write = false → h.hown = false → s.runsTo .transientRequest fun t => same t ∧ ask t ∧ t.home line = { h with hint := hint })) ∧
      (s.retraining line = false → a.tok ≠ 0 → s.runsTo .memoryRead fun t => same t ∧
        t.mails (homePlace line) slice 1 .tokenArrival (arrival a.die a.tok a.own true)) ∧
      (a.ok = true → exec .memoryWrite s = .next s) ∧
      (a.ok = false → a.width = 0 → s.runsTo .memoryWrite fun t => t.mem = s.mem ∧ t.tiles = s.tiles ∧
        ∀ e ∈ t.pending, e ∈ s.pending ∧ ¬ (e.what = .memoryWrite ∧ e.arg.width = 0 ∧ e.arg.line / 4 = line / 4)) ∧
      (a.ok = false → a.width ≠ 0 → s.runsTo .memoryWrite fun t =>
        t.mem.hbm = s.mem.hbm.writeN a.off a.width (leNat a.data) ∧ t.mem.scr = s.mem.scr ∧
        t.mails (.slice (sliceTile a.die line)) (.tile a.tile) 1 .memoryWrite { tile := a.tile, ok := true }) ∧
      (a.ok = false →
        let holds := y.tok ≠ 0 ∧ y.lock = none ∧ y.persist = none ∧ (y.tok ≠ 4 ∨ (y.linked = [] ∧ y.kept = none))
        (y.tok = 0 → a.write = false ∨ calm → exec .forwardedRequest s = .next s) ∧
        (y.tok ≠ 0 → ¬ holds → exec .forwardedRequest s = .next s) ∧
        (holds → a.write = true → bare → calm → s.runsTo .forwardedRequest fun t => same t ∧
          (t.sliceLine a.die line).tok = 0 ∧ (t.sliceLine a.die line).own = false ∧ (t.sliceLine a.die line).dv = false ∧
          (a.req ≠ 4 → t.mails slice (s.slicePlace a.req line) 1 .tokenArrival (arrival a.req y.tok y.own y.own))) ∧
        (holds → a.write = true → y.acks = [] → y.clearing a.die (.only none) ≠ [] → s.runsTo .forwardedRequest fun t => t.mem = s.mem ∧
          (t.sliceLine a.die line).tok = y.tok ∧ (t.sliceLine a.die line).acks = (y.clearing a.die (.only none)).map (·.2) ∧
          ⟨.forwardedRequest, a⟩ ∈ (t.sliceLine a.die line).waits ∧ ∀ m ∈ y.clearing a.die (.only none),
            t.mails slice (.tile m.2) 0 m.1 { tile := m.2, die := a.die, line := line }) ∧
        (holds → a.write = false → y.own = false → exec .forwardedRequest s = .next s) ∧
        (holds → a.write = false → y.own = true → bare → s.runsTo .forwardedRequest fun t => same t ∧
          (t.sliceLine a.die line).tok = y.tok - 1 ∧ (t.sliceLine a.die line).own = (y.tok != 1) ∧
          (t.sliceLine a.die line).dv = (y.tok != 1) ∧
          t.mails slice (s.slicePlace a.req line) 1 .tokenArrival (arrival a.req 1 (y.tok == 1) true))) ∧
      (∀ r, y.persist = some r → r ≠ a.die → r ≠ 4 → y.lock = none → a.tok ≠ 0 → s.runsTo .tokenArrival fun t => same t ∧
        t.mails slice (s.slicePlace r line) 1 .tokenArrival (arrival r a.tok a.own a.own)) ∧
      (y.persist = none → s.dieUp a.die = false → s.runsTo .tokenArrival fun t => same t ∧ t.mails slice (homePlace line) 1 .tokenReturn
        { die := a.die, line := line, tok := a.tok, own := a.own, last := true }) ∧
      (y.persist = none → s.dieUp a.die = true → y.linked = [] → s.runsTo .tokenArrival fun t => same t ∧
        (t.sliceLine a.die line).tok = y.tok + a.tok ∧ (t.sliceLine a.die line).own = (y.own || a.own) ∧
        (t.sliceLine a.die line).dv = (y.dv || a.ok)) ∧
      (let stop := y.att ≠ a.val ∨ y.want = none ∨ y.satisfied = true ∨ y.linked = [] ∨ 2 ≤ y.pers
       (stop → exec .transientRetry s = .next s) ∧
       (¬ stop → s.runsTo .transientRetry fun t => same t ∧ (t.sliceLine a.die line).tries = y.tries + 1 ∧
          t.mails slice (homePlace line) 0 .transientRequest
            { die := a.die, req := a.die, line := line, write := y.want.getD false, lidx := a.lidx } ∧
          s.timed t 3072 .transientRetry a ∧
          (y.pers = 0 → 3 ≤ y.tries ∨ 12288 ≤ s.now - y.since → (t.sliceLine a.die line).pers = 1 ∧
            t.mails slice (creditPlace a.die line) 2 .persistentEscalate { die := a.die, line := line, lidx := a.lidx }))) ∧
      (let idle := y.linked = [] ∧ y.lock = none ∧ y.kept = none ∧ s.present a.die line = true
       let seen := s.launches.any fun p => p.2.matchable &&
         (match p.2.vtag? with | some g => s.seenOn a.die g (s.keyAddr line) | none => false)
       (¬ idle → exec .sliceEviction s = .next s) ∧
       (idle → bare → isDev line = true → y.persist = none → y.pers = 0 → s.persistentFor line = none → s.runsTo .sliceEviction fun t =>
          same t ∧ fget? (t.die a.die).slice line = none ∧ t.mails slice (homePlace line) 1 .tokenReturn
            { die := a.die, line := line, tok := y.tok, own := y.own, last := !seen }) ∧
       (idle → bare → isDev line = false → s.runsTo .sliceEviction fun t => t.mem = s.mem ∧
          fget? (t.die a.die).hostHeld (line - 2 ^ 50) = none)) ∧
      (let hint := if a.last then h.hint &&& ~~~BitVec.twoPow 4 a.die else h.hint
       ((∀ r, s.persistentFor line = some r → r = 4) → s.runsTo .tokenReturn fun t => same t ∧
          t.home line = { h with hint := hint, htok := h.htok + a.tok, hown := h.hown || a.own } ∧
          (a.own = true → t.awaits .memoryWrite { line := line })) ∧
       (∀ r, s.persistentFor line = some r → r ≠ 4 → a.tok ≠ 0 → s.runsTo .tokenReturn fun t => same t ∧
          (t.home line).hint = hint ∧ (t.home line).htok = h.htok ∧
          t.mails (homePlace line) (s.slicePlace r line) 1 .tokenArrival (arrival r a.tok a.own a.own)))) ∧
  (∀ (s : State),
      let a := s.arg
      let line := a.line
      let arb := lineArb line
      let x := s.arbOf line
      let y := s.sliceLine a.die line
      let slice := s.slicePlace a.die line
      let same := fun (t : State) => t.mem.hbm = s.mem.hbm ∧ t.mem.scr = s.mem.scr
      let calm := ∀ q ∈ s.launches, q.2.matchable = true → q.2.vtag? = none
      let from_ := if a.die = 4 then homePlace line else slice
      let tells := fun (t : State) (l : Nat) (i : Instr) (g : Arg) => ∀ d ∈ s.persistPlaces,
        t.mails (arbPlace l) (if d = 4 then homePlace l else s.slicePlace d l) 2 i { g with die := d, line := l }
      let activates := fun (t : State) (d l : Nat) => (fget t.arbs arb Arbiter.init).phase = 1 ∧
        tells t l .activation { req := d, lidx := orphanLaunch } ∧
        (t.die d).bar0.persist = min 0xFFFF ((s.die d).bar0.persist + 1)
      let used := fget (s.die a.die).arbUsed arb 0
      (a.ok = false →
        (y.pers ≠ 1 → exec .persistentEscalate s = .next s) ∧
        (y.pers = 1 → y.linked = [] → s.runsTo .persistentEscalate fun t => t.mem = s.mem ∧ t.sliceLine a.die line = { y with pers := 0 }) ∧
        (y.pers = 1 → y.linked ≠ [] → used < 4 → s.runsTo .persistentEscalate fun t => t.mem = s.mem ∧
          t.sliceLine a.die line = { y with pers := 2 } ∧ fget (t.die a.die).arbUsed arb 0 = used + 1 ∧
          t.mails (creditPlace a.die line) (arbPlace line) 2 .persistentRequest { die := a.die, line := line, lidx := a.lidx }) ∧
        (y.pers = 1 → y.linked ≠ [] → 4 ≤ used → s.runsTo .persistentEscalate fun t => t.mem = s.mem ∧ t.msgs = s.msgs ∧
          t.sliceLine a.die line = y ∧ fget (t.die a.die).arbWait arb [] = fget (s.die a.die).arbWait arb [] ++ [line])) ∧
      (a.ok = true → let left := (fget (s.die a.die).arbWait arb []).filter fun l => (s.sliceLine a.die l).pers == 1
        (left = [] → s.runsTo .persistentEscalate fun t => t.mem = s.mem ∧ fget (t.die a.die).arbUsed arb 0 = used - 1 ∧
          fget? (t.die a.die).arbWait arb = none) ∧
        (∀ l rest, left = l :: rest → s.runsTo .persistentEscalate fun t => t.mem = s.mem ∧
          fget (t.die a.die).arbWait arb [] = rest ∧ (t.sliceLine a.die l).pers = 2 ∧
          t.mails (creditPlace a.die l) (arbPlace l) 2 .persistentRequest { die := a.die, line := l, lidx := orphanLaunch })) ∧
      (x.quiet = false → s.runsTo .persistentRequest fun t => t.mem = s.mem ∧
        fget t.arbs arb Arbiter.init = { x with table := x.table ++ [(a.die, line)] }) ∧
      (x.quiet = true → x.census = [] → x.table = [] → s.runsTo .persistentRequest fun t => same t ∧
        (fget t.arbs arb Arbiter.init).table = [(a.die, line)] ∧ activates t a.die line ∧
        s.timed t 49152 .activationTimeout { id := arb, req := a.die, line := line, val := s.now }) ∧
      (a.ok = true → (x.walk ≠ 1 → exec .activation s = .next s) ∧
        (x.walk = 1 → s.runsTo .activation fun t => t.mem = s.mem ∧ t.arbOf line = { x with acks := x.acks.erase a.die } ∧
          (x.acks.erase a.die = [] → t.awaits .recreation { line := line }))) ∧
      (a.ok = false → s.persistentFor line ≠ some a.req → exec .activation s = .next s) ∧
      (a.ok = false → s.persistentFor line = some a.req →
        let h := s.home line
        let arrival := fun (tok : Nat) (own data : Bool) =>
          ({ tile := sliceTile a.req (s.keyAddr line), die := a.req, line := line, tok := tok, own := own, ok := data } : Arg)
        let said := fun (t : State) => a.req = 4 →
          t.mails from_ (arbPlace line) 2 .activation { die := a.die, line := line, ok := true }
        (a.die = 4 → a.req = 4 → s.runsTo .activation fun t => t.mem = s.mem ∧ said t) ∧
        (a.die = 4 → a.req ≠ 4 → s.runsTo .activation fun t => same t ∧
          t.home line = { h with htok := 0, hown := false, hint := h.hint ||| BitVec.twoPow 4 a.req } ∧
          (h.htok ≠ 0 → t.mails (homePlace line) (s.slicePlace a.req line) 1 .tokenArrival (arrival h.htok h.hown h.hown))) ∧
        (a.die ≠ 4 → a.req = a.die → y.linked = [] → s.runsTo .activation fun t => same t ∧
          t.mails slice (arbPlace line) 2 .deactivation { die := a.die, line := line }) ∧
        (a.die ≠ 4 → a.req ≠ a.die → y.lock.isSome = true → s.runsTo .activation fun t => t.mem = s.mem ∧ said t ∧
          t.sliceLine a.die line = { y with persist := some a.req }) ∧
        (a.die ≠ 4 → a.req ≠ a.die → y.lock = none → y.tok = 0 → calm → s.runsTo .activation fun t => t.mem = s.mem ∧ said t ∧
          t.sliceLine a.die line = { y with persist := some a.req }) ∧
        (a.die ≠ 4 → a.req ≠ a.die → y.lock = none → y.tok ≠ 0 → y.acks = [] → y.dstate = 0 → calm → s.runsTo .activation fun t =>
          same t ∧ said t ∧ (t.sliceLine a.die line).persist = some a.req ∧ (t.sliceLine a.die line).tok = 0 ∧
          (a.req ≠ 4 → t.mails slice (s.slicePlace a.req line) 1 .tokenArrival (arrival y.tok y.own y.own)) ∧
          (a.req = 4 → t.mails slice (homePlace line) 1 .tokenReturn { die := a.die, line := line, tok := y.tok, own := y.own }))) ∧
      (a.last = false → a.ok = false →
        (x.phase = 1 → x.table.head? = some (a.die, line) → s.runsTo .deactivation fun t => t.mem = s.mem ∧
          t.arbOf line = { x with phase := 2, acks := s.persistPlaces } ∧ tells t line .deactivation { ok := true }) ∧
        (x.phase ≠ 1 ∨ x.table.head? ≠ some (a.die, line) → exec .deactivation s = .next s)) ∧
      (a.last = false → a.ok = true → a.die = 4 ∨ y.linked = [] → s.runsTo .deactivation fun t => t.mem = s.mem ∧
        (a.die ≠ 4 → (t.sliceLine a.die line).persist = none) ∧
        t.mails from_ (arbPlace line) 2 .deactivation { die := a.die, line := line, last := true }) ∧
      (a.last = true →
        (x.acks.erase a.die ≠ [] → s.runsTo .deactivation fun t => t.mem = s.mem ∧ t.msgs = s.msgs ∧
          t.arbOf line = { x with acks := x.acks.erase a.die }) ∧
        (x.acks.erase a.die = [] → x.walk = 2 → s.runsTo .deactivation fun t => t.mem = s.mem ∧
          t.awaits .recreation { line := line, ok := true }) ∧
        (∀ d l rest, x.acks.erase a.die = [] → x.walk = 0 → x.phase = 2 → x.table = (d, l) :: rest → x.census = [] →
          let back := fun (t : State) => t.mails (arbPlace line) (creditPlace d line) 2 .persistentEscalate { die := d, line := line, ok := true }
          (rest = [] → s.runsTo .deactivation fun t => t.mem = s.mem ∧ back t ∧
            t.arbOf line = { table := [], phase := 0, acks := [], census := [], walk := 0 }) ∧
          (∀ d2 l2 more, rest = (d2, l2) :: more → s.runsTo .deactivation fun t => same t ∧ back t ∧ (t.arbOf line).table = rest ∧
            activates t d2 l2))) ∧
      (let z := fget s.arbs a.id Arbiter.init
       z.phase = 1 → z.table.head? = some (a.req, line) → (∀ e ∈ s.timers, e.2.what ≠ .activationTimeout) →
        s.runsTo .activationTimeout fun t => same t ∧ tells t line .activation { req := 4 } ∧
          fget t.arbs a.id Arbiter.init =
            { z with phase := 3, census := (line, none) :: z.census, walk := 1, acks := s.persistPlaces }) ∧
      (a.last = true → s.runsTo .recreation fun t => same t ∧ ∀ p ∈ s.mem.home, p.2.hint.getLsbD a.die = true →
        (p.1, some a.die) ∈ (t.arbOf p.1).census) ∧
      (a.last = false → x.census.head?.map (·.1) ≠ some line → exec .recreation s = .next s) ∧
      (∀ lost more, a.last = false → x.census = (line, lost) :: more →
        (a.ok = false → x.walk ≠ 1 → exec .recreation s = .next s) ∧
        (a.ok = false → x.walk = 1 → s.inFlight line = true → s.runsTo .recreation fun t => s.timed t 192 .recreation a ∧ t.mem = s.mem ∧
          t.arbs = s.arbs) ∧
        (a.ok = false → x.walk = 1 → s.inFlight line = false → s.runsTo .recreation fun t => t.mem = s.mem ∧
          t.arbOf line = { x with walk := 2, acks := s.persistPlaces } ∧ tells t line .deactivation { ok := true }) ∧
        (a.ok = true → x.walk ≠ 2 → exec .recreation s = .next s) ∧
        (a.ok = true → x.walk = 2 → s.runsTo .recreation fun t => same t ∧ (t.arbOf line).census = more ∧
          let h := s.home line
          t.home line = { h with htok := 4, hown := true, poison := h.poison || !h.hown,
                                 hint := (match lost with | some i => h.hint &&& ~~~BitVec.twoPow 4 i | none => 0#4) } ∧
          (t.die (lineDie line)).bar0.recreate = min 0xFFFF ((s.die (lineDie line)).bar0.recreate + 1))) ∧
      (let lost := if a.ok then (s.die a.die).evacT = some a.val ∧ s.heldLines a.die ≠ [] else s.dieUp a.die = false
       (¬ lost → exec .evacuationTimeout s = .next s) ∧
       (lost → s.runsTo .evacuationTimeout fun t => same t ∧ (t.die a.die).slice = [] ∧ (t.die a.die).hostHeld = [] ∧
          (∀ u, dieOf u = a.die → (t.tile u).un.l1 = [] ∨ fget? s.tiles u = none) ∧
          s.timed t 196608 .recreation { die := a.die, last := true })))

/-- R91, R92, R95, R96, R112, R160, R436: what the slices and L1 caches do: an invalidation, recall, share request or eviction of a copy,
each acknowledged, and what an acknowledgement does to the directory; a transactional read noted in the read set; and a load, store,
atomic or reduction of one lane of device memory, outside a transaction, performed at a slice that has the tokens for it and answered. -/
def Obligations.CachesAndSlices : Prop :=
  (∀ (s : State),
    let t := s.arg.tile
    let line := s.arg.line
    let x := s.l1 t line
    let d := dieOf t
    let y := s.sliceLine s.arg.die line
    let acks := fun (u : State) (i : Instr) (mark : Option Nat) => u.mails (.tile t) (s.slicePlace d line) 1 i
      { tile := t, die := d, line := line, ok := true, val := x.st, own := mark.isSome, slot := mark.getD 0 }
    let heard := fun (i : Instr) (p : SliceLine → Prop) => s.arg.ok = true → y.acks = [t] → s.runsTo i fun u =>
      u.mem = s.mem ∧ p (u.sliceLine s.arg.die line) ∧ (u.sliceLine s.arg.die line).acks = [] ∧
      (u.sliceLine s.arg.die line).waits = [] ∧ (∀ e ∈ y.waits, e ∈ u.pending) ∧ u.awaits .sliceRequest { die := s.arg.die, line := line }
    (s.arg.ok = false → s.runsTo .l1Invalidate fun u => u.mem = s.mem ∧ acks u .l1Invalidate x.mark ∧ (u.l1 t line).st = 0) ∧
    (heard .l1Invalidate fun z => y.but = none → z.dstate = 0 ∧ z.sharers = 0) ∧
    (∀ l g, s.arg.ok = true → s.arg.own = true → fget? s.txn.slots s.arg.slot = some l → (s.launch l).vtag? = some g →
      (s.launch l).matchable = true → s.runsTo .l1Invalidate fun u => u.mem = s.mem ∧ s.keyAddr line / 64 ∈ fget u.txn.readSet g []) ∧
    (s.arg.ok = false → s.runsTo .l1Recall fun u => u.mem = s.mem ∧ acks u .l1Recall none ∧
      (x.st ≠ 0 → u.l1 t line = { x with st := 1, dirty := 0 }) ∧ (x.st = 0 → u.l1 t line = x)) ∧
    (heard .l1Recall fun z => z.dstate = (if y.dstate = 0 then 0 else 1)) ∧
    (s.arg.ok = false → s.runsTo .l1ShareRequest fun u => u.mem = s.mem ∧ acks u .l1ShareRequest none ∧
      u.l1 t line = { x with st := if x.st = 4 then 3 else if x.st = 2 then 1 else x.st }) ∧
    (heard .l1ShareRequest fun z =>
      z.dstate = (if s.arg.val = 4 ∨ s.arg.val = 3 then 3 else if y.dstate = 0 then 0 else 1)) ∧
    (s.arg.ok = false → x.st = 0 → exec .l1Eviction s = .next s) ∧
    (s.arg.ok = false → x.st ≠ 0 → s.runsTo .l1Eviction fun u => u.mem = s.mem ∧ (u.l1 t line).st = 0 ∧
      (x.st ≠ 1 → line < 2 ^ 60 → acks u .l1Eviction none)) ∧
    (s.arg.ok = true →
      (2 ≤ y.dstate → y.ownerTile s.arg.die = t → s.runsTo .l1Eviction fun u => u.mem = s.mem ∧
        (u.sliceLine s.arg.die line).dstate = (if y.dstate = 2 then 0 else 1)) ∧
      (y.dstate < 2 ∨ y.ownerTile s.arg.die ≠ t → exec .l1Eviction s = .next s)) ∧
    (∀ l g, fget? s.txn.slots s.arg.slot = some l → (s.launch l).vtag? = some g → (s.launch l).matchable = true →
      s.runsTo .readNote fun u => u.mem = s.mem ∧ s.arg.val / 64 ∈ fget u.txn.readSet g [] ∧
        sigHas (fget (u.die d).sigs (sigKey g s.arg.val) 0#1024) s.arg.val = true)) ∧
  (∀ (s : State) (o : Op) (e : Elem) (k p : Nat),
    let a := s.arg
    let line := k / 64
    let y := s.sliceLine a.die line
    a.id ≠ 0 → a.ok = false → s.op? a.id = some o → o.elems = [e] → e.done = false → e.loc = some (.dev k p) → isDev line = true →
    s.sliceOf o e = some a.tile → dieOf a.tile = a.die → s.shTag o.lidx e.cls = none → (s.launch o.lidx).sheltered = false →
    y.dstate = 0 → y.acks = [] → y.waits = [] → y.kept = none → y.linked = [] → y.lock = none →
    (∀ q ∈ s.launches, q.2.matchable = true → q.2.vtag? = none) →
    let old := s.mem.hbm.readN k e.n
    let ends := fun (u : State) (i : Instr) (f : Elem) => u.op? a.id = some { o with elems := [f] } ∧
      u.mails (.slice (sliceTile a.die (s.keyAddr line))) (.tile o.tile) 1 i { tile := o.tile, ctx := o.ctx, id := a.id, lanes := laneMask [f] }
    let got := { e with done := true, res := BitVec.ofNat 64 old, rpois := poisOf (s.linePoison line) e.n }
    (o.kind = .load → 1 ≤ y.tok → y.dv = true → s.runsTo .sliceRequest fun u => ends u .loadReply got ∧ u.mem = s.mem) ∧
    (y.tok = 4 → y.dv = true →
      (o.kind = .store → s.runsTo .sliceRequest fun u => ends u .storeAck { e with done := true } ∧
        u.mem.hbm = s.mem.hbm.writeN k e.n e.data.toNat ∧ u.mem.scr = s.mem.scr) ∧
      (o.kind = .atom → s.runsTo .farAtomic fun u => ends u .loadReply got ∧
        u.mem.hbm = s.mem.hbm.writeN k e.n (atomNew o.aop o.ty e.n old e.data.toNat e.cmp.toNat) ∧ u.mem.scr = s.mem.scr) ∧
      (o.kind = .red → s.runsTo .reductionMessage fun u => ends u .storeAck { e with done := true } ∧
        u.mem.hbm = s.mem.hbm.writeN k e.n (atomNew o.aop o.ty e.n old e.data.toNat 0) ∧ u.mem.scr = s.mem.scr)))

/-- R142, R150, R154, R156, R162, R165, R166, R170, R173, R174, R178, R482: a launch whose contexts have all arrived asks for its commit,
is granted it, and commits: its lines are locked, gathered and written, and it completes or passes its milestone, the interrupt of its
completion behind the posted writes of its port; a sweep removes what a slot held, and a full set of shadow lines moves its least recently
used line to the detour area. -/
def Obligations.Commits : Prop :=
  ∀ (s : State),
    let l := s.arg.lidx
    let x := s.launch l
    let asks := s.indexLive l = true ∧ x.run = 1 ∧ x.commit < 3 ∧ s.atBarrier l = true
    let completes := fun (t : State) (l : Nat) => fget? t.launches l = none ∧ (fget? t.freed l).isSome = true ∧
      (∀ u, (t.tile u).share? l = none) ∧
      let q := (s.launch l).queue
      ((s.launch l).r.msix = true → (queueDie q, (s.queue q).cvec) ∈ t.irqs ∨
        ∃ w ∈ t.mem.posted, w.port = queueDie q ∧ w.vector = some (s.queue q).cvec)
    let goesOn := fun (t : State) (l : Nat) =>
      (t.launch l).att.milestone = ((s.launch l).att.milestone + 1) % 2 ^ 32 ∧ (t.launch l).commit = 0 ∧
      ∀ u c, (s.ctx u c).lidx = l → (s.ctx u c).status = .mstone → (t.ctx u c).status = .ready
    (¬ asks → exec .commitRequest s = .next s) ∧
    (asks → x.sticky = true → x.r.lenient = false → (x.r.txn = true ∨ (s.noneHeld l = true ∧ s.allArrived l = true)) → s.runsTo .commitRequest fun t =>
      fget? t.launches l = none) ∧
    (asks → x.sticky = false ∨ x.r.lenient = true → s.allArrived l = false → s.runsTo .commitRequest fun t => t.mem = s.mem ∧
      t.tiles = s.tiles ∧ (t.launch l).commit = if x.r.txn then 2 else x.commit) ∧
    (asks → x.sticky = false ∨ x.r.lenient = true → s.allArrived l = true →
      (s.outstanding l = true → s.runsTo .commitRequest fun t => t.mem = s.mem ∧ t.tiles = s.tiles ∧
        (t.launch l).commit = if x.r.txn then 2 else x.commit) ∧
      (s.outstanding l = false → x.r.txn = false → s.noneHeld l = true → s.runsTo .commitRequest fun t => completes t l) ∧
      (s.outstanding l = false → x.r.txn = false → s.noneHeld l = false → x.later = none → x.tier < 2 → s.heldOf l = 0 → x.commit = 0 →
        s.runsTo .commitRequest fun t => goesOn t l ∧ t.mem = s.mem) ∧
      (∀ k g, s.outstanding l = false → x.r.txn = true → x.slot = some k → x.vtag? = some g → s.runsTo .commitRequest fun t =>
        t.mem = s.mem ∧ (t.launch l).commit = 3 ∧ (t.launch l).final = s.noneHeld l ∧ t.txn.waiting = s.txn.waiting ++ [k] ∧
        s.timed t 12 .commitGrant { slot := k } ∧
        ∀ p ∈ s.writeSet g, sigHas (fget t.txn.wsig g 0#1024) (addrOf p.2.loc) = true)) ∧
    (∀ l g, s.slotTag s.arg.slot = some (l, g) →
      let k := s.arg.slot
      let d := (s.launch l).shadowDie
      (s.mayGrant k l = false → exec .commitGrant s = .next s) ∧
      (s.mayGrant k l = true → (∀ q ∈ s.launches, q.1 ≠ l → q.2.matchable = true → q.2.vtag? = none) → s.runsTo .commitGrant fun t =>
        (t.launch l).commit = 4 ∧ k ∈ t.txn.committing ∧ k ∉ t.txn.waiting ∧ t.awaits .commitEnd { slot := k } ∧
        ∀ p ∈ s.writeSet g, (∀ i, i < 4 → s.dieUp i = true → (t.sliceLine i p.1).lock = some k) ∧
          (isDev p.1 = true → (t.sliceLine d p.1).tok = 4 ∧ (t.sliceLine d p.1).own = true ∧
            ∀ i, i < 4 → i ≠ d → (t.sliceLine i p.1).tok = 0)) ∧
      (let x := s.launch l
       x.commit ≠ 4 → exec .commitEnd s = .next s) ∧
      (let x := s.launch l
       x.commit = 4 → s.noneLinked →
        (x.final = true → s.runsTo .commitEnd fun t => completes t l) ∧
        (x.final = false → x.later = none → x.tier < 2 → s.heldOf l = 0 → s.stageQs = [] → fget? s.txn.detPages g = none →
          s.runsTo .commitEnd fun t => goesOn t l ∧ (∀ p ∈ t.txn.shadow, p.1 / 2 ^ 60 ≠ g) ∧ k ∉ t.txn.committing ∧
            (s.writeSet g = [] → t.mem.hbm = s.mem.hbm) ∧
            (∀ ln y key a, s.writeSet g = [(ln, y)] → y.loc = .dev key a → y.delta = [] →
              t.mem.hbm = s.mem.hbm.writeN key 64 (leNat (y.merge (leBytes 64 (s.mem.hbm.readN key 64)))))))) ∧
    (let g := vtag s.arg.slot s.arg.gen
     (s.arg.ok = false → s.runsTo .sweep fun t => t.mem = s.mem ∧ fget? t.txn.detPages g = none ∧ fget? t.txn.readSet g = none ∧
        ∀ d, d < 4 → (s.die d).leftOut = false → t.mails (.mgmt 0) (.slice (tileAt d 0 0)) 7 .sweep { s.arg with die := d, ok := true }) ∧
     (s.arg.ok = true → s.noneLinked → s.runsTo .sweep fun t => t.mem = s.mem ∧ (∀ e ∈ (t.die s.arg.die).sigs, e.1 / 256 ≠ g) ∧
        (s.arg.die = s.arg.val → ∀ p ∈ t.txn.shadow, p ∈ s.txn.shadow ∧ p.1 / 2 ^ 60 ≠ g))) ∧
    (let d := s.arg.die
     let a := s.arg.off
     ((∃ m ∈ s.txn.moving, m.2.die = d ∧ m.2.val = s.arg.val) → exec .shadowMove s = .next s) ∧
     (s.noneLinked → (∀ m ∈ s.txn.moving, ¬ (m.2.die = d ∧ m.2.val = s.arg.val)) →
      ((s.setLines d a).length < s.shadowWays → s.runsTo .shadowMove fun t => t.mem = s.mem ∧ t.txn = { s.txn with wayWait := [] } ∧
        ∀ e ∈ s.txn.wayWait, e ∈ t.pending) ∧
      (∀ key y l g, s.shadowWays ≤ (s.setLines d a).length → oldestLine (s.setLines d a) = some (key, y) →
        s.slotTag (key / 2 ^ 60 / 1024) = some (l, g) → (s.launch l).commit ≠ 4 →
        let x := s.launch l
        let pages := fget s.txn.detPages (key / 2 ^ 60) []
        let page := (s.frameOf y.loc, !y.delta.isEmpty)
        let va := x.detourVa (pages.findIdx (· == page)) (addrOf y.loc)
        (page ∈ pages → ∀ p, s.detourPlace d (s.queue x.queue).asid va = .ok p → s.runsTo .shadowMove fun t =>
          fget? t.txn.shadow key = some { y with detour := true } ∧ (∀ e ∈ s.txn.wayWait, e ∈ t.pending) ∧
          ∀ q b, p = .dev q b → t.mem.hbm = s.mem.hbm.writeN q 64 (leNat y.data)) ∧
        (page ∉ pages → x.r.detsize ≤ mapPages x.r.detsize + pages.length ∨ va / 65536 ∈ x.imgPages → x.run = 1 →
          s.runsTo .shadowMove fun t => fget? t.launches l = none))))

/-- R11, R31 to R36, R38, R80: start-up: a package cold reset, the verification of the image, recovery state, and the passes of a die's
bring-up with their BOOTSTEP records; the dies enter service together once every one has ended its bring-up. The value of the event that
verifies is that of the strap pins (log 49), and the records of a die that stays out are the model's reading (log 50). R38 to R41, R108,
R145, R297: die resets: one at a time, by a function-level reset, the PERST of a function or a trap that no supervisor takes in time; the
queues of the function are aborted, its tiles come up empty, and its bring-up begins. -/
def Obligations.StartUpAndDieResets : Prop :=
  (∀ (s : State),
      let d := s.arg.die
      let x := s.die d
      let others := ∀ i, i < 4 → i ≠ d → (s.die i).booting = false ∧ ((s.die i).leftOut = true ∨ (s.die i).passes ≠ 0)
      let serves := fun (t : State) => (t.die d).booting = false ∧ (t.die d).leftOut = false ∧ (t.die d).bar0.pkg = s.strap ∧ t.mem = s.mem ∧
        (d < 4 → others → s.listed = false → t.listed = true ∧ (t.die d).inService = !s.recovery ∧
          ∀ i, i < 4 → i ≠ d → (t.die i).inService = (!(s.die i).leftOut && !s.recovery))
      let isOut := fun (t : State) => (t.die d).inService = false ∧ (t.die d).booting = false ∧ (t.die d).leftOut = true ∧
        (d = 0 → t.recovery = true ∧ ∀ i, i < 4 → (t.die i).inService = false) ∧ t.mem = s.mem
      (s.runsTo .packageColdReset fun t => t.power = true ∧ t.now = 0 ∧ t.launches = [] ∧ t.queues = [] ∧ t.tiles = [] ∧ t.msgs = [] ∧
        t.ops = [] ∧ t.mem.hbm = [] ∧ t.mem.scr = [] ∧ t.mem.sys = s.mem.sys ∧ t.flash = s.flash ∧ t.rollback = s.rollback ∧
        t.awaits .firmwareVerify {} ∧ ∀ i, (t.die i).inService = false ∧ (t.die i).bar0.qtbase = 0 ∧
          (t.die i).bar0.bootstep = (s.die i).bar0.bootstep) ∧
      (s.recovery = true ∨ s.verified = true → exec .firmwareVerify s = .next s) ∧
      (s.recovery = false → s.verified = false → s.imageGood s.flash = true → s.runsTo .firmwareVerify fun t => t.verified = true ∧
        t.meas2 = (Config.sha256 s.flash, Config.imageVersion s.flash) ∧ t.recovery = false ∧ t.strap = s.arg.val % 256 ∧
        ∀ i, i < 4 → (t.die i).booting = true ∧ (t.die i).bar0.pkg = s.arg.val % 256 ∧ t.awaits .bringupPass { die := i }) ∧
      (s.recovery = false → s.verified = false → s.imageGood s.flash = false → exec .firmwareVerify s = .next { s with recovery := true }) ∧
      (s.recovery = true → s.imageGood s.window = true → s.runsTo .recoveryImage fun t => t.flash = s.window ∧
        t.rollback = Config.imageVersion s.window ∧ t.recovery = false ∧ t.launches = [] ∧ t.awaits .firmwareVerify {}) ∧
      (s.recovery = false ∨ s.imageGood s.window = false → exec .recoveryImage s = .next s) ∧
      (x.booting = false ∨ x.passes ≠ 0 → exec .bringupPass s = .next s) ∧
      (x.booting = true → x.passes = 0 →
        (x.bar0.wasOut = true → s.runsTo .bringupPass fun t => isOut t ∧ fget (t.die d).bar0.bootstep 0 0#32 = bootRecord d 1 0 3 6 0) ∧
        (x.bar0.wasOut = false → x.bar0.measured = [] → x.broken = [] → s.arg.fails = [] → x.fails = 0 → x.resetting = false →
          s.runsTo .bringupPass fun t => serves t ∧ fget (t.die d).bar0.bootstep 0 0#32 = bootRecord d 1 0 0 0 0 ∧
            (t.die d).rowq = x.rowq ∧ (t.die d).chans = [] ∧ (t.die d).absent = []) ∧
        (x.bar0.wasOut = false → (1, 0) ∈ s.arg.fails → s.runsTo .bringupPass fun t => (t.die d).booting = true ∧ (t.die d).passes = 1 ∧
          (t.die d).fails = x.fails + 1 ∧ fget (t.die d).bar0.bootstep 0 0#32 = bootRecord d 1 0 1 0 (x.fails + 1) ∧
          t.awaits .secondPass { die := d } ∧ t.mem = s.mem)) ∧
      (x.booting = false ∨ x.passes ≠ 1 → exec .secondPass s = .next s) ∧
      (x.booting = true → x.passes = 1 →
        (x.broken = [] → s.arg.fails = [] → dieFails d x.bar0.measured [] = false → x.fails ≤ 1 → x.resetting = false →
          s.runsTo .secondPass serves) ∧
        ((1, 0) ∈ s.arg.fails → x.fails = 1 → s.runsTo .secondPass isOut))) ∧
  (∀ (s : State),
      let d := s.arg.die
      let x := s.die d
      let busy := s.recovery = true ∨ s.listed = false
      let begins := fun (t : State) (n : Nat) => (t.die n).resetting = true ∧ (t.die n).evacuating = true ∧ (t.die n).tdi = 3 ∧
        (t.die n).ideX = none ∧ (t.die n).ideLink = none ∧ (t.die n).ideSel = [] ∧ (t.die n).passes = 0 ∧ (t.die n).fails = 0 ∧ t.awaits .functionLevelReset { die := n, ok := true }
      let asks := fun (i : Instr) (n : Nat) =>
        (busy → exec i s = .next s) ∧
        (¬ busy → s.resets = [] → s.runsTo i fun t => t.resets = [n] ∧ begins t n ∧
          (s.launches = [] → s.requeued = [] → ∀ q, queueDie q = n →
            (t.queue q).qstate = 0 ∧ (t.queue q).readIdx = (s.queue q).writeIdx)) ∧
        (¬ busy → s.resets ≠ [] → n ∉ s.resets → exec i s = .next { s with resets := s.resets ++ [n] }) ∧
        (¬ busy → n ∈ s.resets → (s.resets.head? ≠ some n ∨ (s.die n).booting = false) → exec i s = .next s) ∧
        (¬ busy → s.resets.head? = some n → (s.die n).booting = true → s.runsTo i fun t => t.resets = s.resets ∧ t.dies = s.dies ∧
          t.awaits (if (s.die n).passes = 0 then .bringupPass else .secondPass) { die := n })
      asks .diePerst d ∧
      (s.arg.ok = false → asks .functionLevelReset d) ∧
      (let c := s.ctx s.arg.tile s.arg.ctx
       (s.arg.ok = true ∨ c.trapT = some s.arg.val → asks .supervisorTimeout (dieOf s.arg.tile)) ∧
       (s.arg.ok = false → c.trapT ≠ some s.arg.val → exec .supervisorTimeout s = .next s)) ∧
      (s.arg.ok = true → (s.resets.head? ≠ some d ∨ x.evacuating = false) → exec .functionLevelReset s = .next s) ∧
      (s.arg.ok = true → s.resets.head? = some d → x.evacuating = true →
        (s.txn.committing ≠ [] → s.runsTo .functionLevelReset fun t => t.dies = s.dies ∧ t.tiles = s.tiles ∧
          s.timed t againTicks .functionLevelReset { die := d, ok := true }) ∧
        (s.txn.committing = [] → s.runsTo .functionLevelReset fun t => (t.die d).evacuating = false ∧ (t.die d).booting = true ∧
          (t.die d).bar0 = { Bar0.init with bootstep := x.bar0.bootstep, qlogidx := x.bar0.qlogidx, qlog := x.bar0.qlog } ∧
          (t.die d).cycle0 = s.now ∧ (t.die d).l2tlb = [] ∧ (t.die d).sigs = [] ∧ t.awaits .bringupPass { die := d } ∧
          (∀ q, queueDie q = d → t.queue q = Queue.init) ∧ ∀ u, u < 1024 → dieOf u = d → t.tile u = Tile.init)) ∧
      (s.resets.head? ≠ some d ∨ x.booting = true ∨ x.resetting = false → exec .dieResetEnd s = .next s) ∧
      (s.resets.head? = some d → x.booting = false → x.resetting = true →
        (s.resets.tail = [] → s.runsTo .dieResetEnd fun t => t.resets = [] ∧ (t.die d).resetting = false ∧
          (t.die d).inService = (!x.leftOut && !s.recovery) ∧ (t.die d).tdi = 0) ∧
        (∀ n rest, s.resets.tail = n :: rest → s.runsTo .dieResetEnd fun t => t.resets = n :: rest ∧ begins t n)))

/-- R19 to R23, R148, R234, R315: a tile quarantine takes one physical column of a row out, and a second one in a row takes the die out of
service; corrected errors lead to a quarantine once the tile's context has moved. R28 to R30, R37, R145, R147: a throttle step moves the
level by one; a thermal stop, its end, and power-off; the responses of a function that enumerates to SPDM requests, the keys of its link
and streams, and its TDISP state. The codes of SPDM are PRESUMED (logs 52, 58), and which launches a stop kills is a DESIGN CHOICE (log
59). -/
def Obligations.QuarantineAndPower : Prop :=
  (∀ (s : State),
      (let t := s.arg.tile
       let e := s.exchanged t
       let d := dieOf e
       let x := s.die d
       let row := locY e
       let q := x.physCol row (locX e)
       (x.resetting = true → s.runsTo .tileQuarantine fun u => (u.die d).broken = x.broken ++ [(5, row * 17 + q)] ∧ u.tiles = s.tiles ∧
         u.launches = s.launches) ∧
       (x.resetting = false → x.inService = false → exec .tileQuarantine s = .next s) ∧
       (x.resetting = false → x.inService = true →
         (fget? x.rowq row = none → s.runsTo .tileQuarantine fun u => fget? (u.die d).rowq row = some q ∧
           ((∀ h ∈ (s.tile t).shares, h.away = false) → u.tile t = Tile.init) ∧ (u.die d).bar0.qlogidx = (x.bar0.qlogidx + 1) % 2 ^ 32) ∧
         ((fget? x.rowq row).isSome = true → s.arg.unit = 1 → exec .tileQuarantine s = .next s) ∧
         ((fget? x.rowq row).isSome = true → s.arg.unit ≠ 1 → s.runsTo .tileQuarantine fun u => (u.die d).inService = false ∧
           (u.die d).broken = x.broken ++ [(5, row * 17 + q)] ∧ (∀ y, y < 1024 → dieOf y = d → u.tile y = Tile.init) ∧
           (s.launches = [] → ∀ n, queueDie n = d → (s.queue n).qstate = 1 → (u.queue n).qstate = 2 ∧ (u.queue n).qerr = 7)))) ∧
      (let t := s.arg.tile
       let n := s.arg.val + if s.arg.last then 0 else (s.tile t).corrected
       let free := fun (b : Nat) => b < 1024 ∧ b ≠ t ∧ s.dieUp (dieOf b) = true ∧ (s.tile b).isFree = true ∧ ∀ p ∈ s.exch, p.1 ≠ b ∧ p.2 ≠ b
       (n ≤ 64 ∨ s.dieUp (dieOf t) = false → exec .predictiveQuarantine s = .next (s.updTile t fun x => { x with corrected := n })) ∧
       (64 < n → s.dieUp (dieOf t) = true → (∀ p ∈ s.exch, p.1 ≠ t ∧ p.2 ≠ t) →
         ((∀ b, ¬ free b) → s.runsTo .predictiveQuarantine fun u => u.pending = s.pending ∧
           s.timed u againTicks .predictiveQuarantine { s.arg with val := 0, last := false }) ∧
         ((∃ b, free b) → s.runsTo .predictiveQuarantine fun u => ∃ b, free b ∧ u.awaits .liveMigration { tile := t, val := b } ∧
           s.timed u againTicks .predictiveQuarantine { s.arg with val := 0, last := false, ok := true, req := b })) ∧
       (64 < n → s.dieUp (dieOf t) = true → (∃ p ∈ s.exch, p.1 = t) → s.arg.ok = true → s.runsTo .predictiveQuarantine fun u =>
         (u.tile t).corrected = 0 ∧ u.awaits .tileQuarantine { tile := s.arg.req, unit := 1 }))) ∧
  (∀ (s : State),
      let d := s.arg.die
      let x := s.die d
      (let tj := s.arg.val
       let capped := x.bar0.powercap < s.arg.off
       s.runsTo .throttleStep fun t => t.mem = s.mem ∧ t.tiles = s.tiles ∧ (t.die d).bar0.tj = min 255 tj ∧
        ((t.die d).bar0.capped = true ↔ capped) ∧
        (95 < tj ∨ capped → (t.die d).bar0.level = min 8 (x.bar0.level + 1)) ∧
        (¬ capped → 92 ≤ tj → tj ≤ 95 → (t.die d).bar0.level = x.bar0.level) ∧
        (¬ capped → tj < 92 → (t.die d).bar0.level = x.bar0.level - 1) ∧
        (120 ≤ tj → t.awaits .thermalPowerOff { die := d }) ∧
        (110 ≤ tj → tj < 120 → x.stopped = false → t.awaits .thermalStop { die := d })) ∧
      (x.stopped = true → exec .thermalStop s = .next s) ∧
      (x.stopped = false → s.runsTo .thermalStop fun t => (t.die d).stopped = true ∧ (t.die d).bar0.hot = true ∧
        t.hostEvents = s.hostEvents ++ [(d, 1)] ∧
        ∀ l y, s.launches = [(l, y)] → (y.tiles.any fun u => dieOf u == d) = true → y.run = 1 → y.commit ≠ 4 → fget? t.launches l = none) ∧
      exec .thermalPowerOff s = .next { s with power := false } ∧
      (∀ c, x.stopped = true → x.cool = some c → c + 60000000 ≤ s.now → s.runsTo .thermalResume fun t => (t.die d).stopped = false ∧
        (t.die d).bar0.level = 8 ∧ t.hostEvents = s.hostEvents ++ [(d, 2)] ∧ t.tiles = s.tiles) ∧
      (x.stopped = false ∨ x.cool = none → exec .thermalResume s = .next s) ∧
      (∀ i ∈ [Instr.getVersion, .getCapabilities, .negotiateAlgorithms, .getDigests, .getCertificate, .challenge, .getMeasurements, .keyExchange,
          .unsupportedRequest, .tdispErrorEvent, .tdispRequest], s.enumerated d = false → exec i s = .next s) ∧
      (s.enumerated d = true →
        (∀ p ∈ [(Instr.getCapabilities, 0x61), (.getDigests, 0x01), (.getCertificate, 0x02), (.challenge, 0x03), (.keyExchange, 0x64)],
          s.runsTo p.1 fun t => (∃ body, (t.die d).spdm = some (p.2, body)) ∧ t.mem = s.mem ∧ t.tiles = s.tiles) ∧
        (∀ p ∈ [(Instr.getVersion, 0x04, [0x13]), (.negotiateAlgorithms, 0x63, [0x10, 0x01]), (.getMeasurements, 0x60, s.measurements d),
            (.unsupportedRequest, 0x7F, [7])],
          s.runsTo p.1 fun t => (t.die d).spdm = some (p.2.1, p.2.2) ∧ t.mem = s.mem ∧ t.tiles = s.tiles) ∧
        (s.runsTo .keyExchange fun t => (t.die d).ideX = some s.free) ∧
        (∀ n, x.ideX = some n → s.runsTo .finish fun t => (t.die d).ideX = none ∧ (∃ body, (t.die d).spdm = some (0x65, body)) ∧
          (s.arg.idx = 0 → (t.die d).ideLink = some (Config.ideKey (d + 4 * n)) ∧ (t.die d).ideSel = x.ideSel) ∧
          (1 ≤ s.arg.idx → s.arg.idx ≤ 4 → (t.die d).ideLink = x.ideLink ∧
            fget? (t.die d).ideSel (s.arg.idx - 1) = some (Config.ideKey (d + 4 * n)))) ∧
        (x.ideX = none → s.runsTo .finish fun t => (t.die d).ideX = none ∧ (t.die d).ideLink = x.ideLink ∧
          (t.die d).ideSel = x.ideSel ∧ (t.die d).spdm = some (0x7F, [4])) ∧
        (s.runsTo .tdispErrorEvent fun t => (t.die d).tdi = 3) ∧
        (s.runsTo .tdispRequest fun t =>
          (x.tdi = 0 → s.arg.val = 1 → (t.die d).tdi = 1) ∧ (x.tdi = 1 → s.arg.val = 2 → (t.die d).tdi = 2) ∧
          (x.tdi = 1 ∨ x.tdi = 2 → s.arg.val = 3 → (t.die d).tdi = 0) ∧ (3 ≤ x.tdi → (t.die d).tdi = x.tdi))))

/-- R5, R6, R11, R28, R36, R55, R60, R78, R84, R115, R130, R131, R138, R145, R147: reads and writes of BAR 0: which ones are dropped or
refused and counted, what a read returns and clears, what a write of 1 clears, and what the package and TLB settings do. That each die has
its own POWERCAP is read from R131 (log 61). R90, R130, R143, R144, R162, R165: the window of BAR 2: an access outside its size reaches
nothing, one that its configuration or translation refuses is counted, a write stores and a read returns the bytes once the slice of the
port's die has the line's tokens, and until then the access waits there. -/
def Obligations.HostRegistersAndWindow : Prop :=
  (∀ (s : State),
      let a := s.arg
      let d := a.die
      let b := (s.die d).bar0
      let v := BitVec.ofNat 64 a.val
      let inBar := a.off + a.width ≤ if a.unit = 4 then 2 ^ 27 else 2 ^ 25
      let opens := s.enumerated d = true ∧ s.recovery = false ∧ (s.die d).tdi = 0
      let justNow := fun (x : Option Nat) => ∃ u, x = some u ∧ u / 3 = s.now / 3
      let refused := fun (t : State) => t.mem = s.mem ∧ t.tiles = s.tiles ∧ (t.die d).bar0 = { b with badreg := min 255 (b.badreg + 1) }
      let sets := fun (off width : Nat) (p : State → Prop) =>
        a.unit ≠ 4 → a.unit ≠ 2 → a.off = off → a.width = width → s.runsTo .registerWrite fun t => t.mem = s.mem ∧ t.tiles = s.tiles ∧ p t
      let reads := fun (off width n : Nat) (p : Bar0) =>
        a.unit ≠ 4 → a.off = off → a.width = width → s.runsTo .readClear fun t => t.mem = s.mem ∧ t.tiles = s.tiles ∧
          t.hostRead = s.hostRead ++ [some n] ∧ (t.die d).bar0 = p
      (s.enumerated d = false → exec .registerWrite s = .next s ∧ exec .readClear s = .next s) ∧
      (¬ inBar → a.unit ≠ 2 → exec .registerWrite s = .next s ∧ exec .readClear s = .next s) ∧
      (a.unit = 2 → a.val ≤ 9 → s.enumerated d = true → s.runsTo .registerWrite fun t => t.mem = s.mem ∧
        (t.die d).bar0 = { b with bar2Log := 30 + a.val }) ∧
      (s.enumerated d = true → s.recovery = false → (s.die d).tdi = 3 → inBar → a.unit ≠ 2 → exec .registerWrite s = .next s ∧
        exec .readClear s = .next { s with hostRead := s.hostRead ++ [some (2 ^ (8 * a.width) - 1)] }) ∧
      (s.enumerated d = true → s.recovery = false → (s.die d).tdi ≠ 3 → (s.die d).tdi ≠ 0 →
        sets 0x08 8 fun t => (t.die d).bar0 = { b with tdisprej := min 255 (b.tdisprej + 1) }) ∧
      (opens →
        (a.unit ≠ 4 → a.unit ≠ 2 → inBar → okAccess a.off a.width = false → s.runsTo .registerWrite refused ∧
          s.runsTo .readClear fun t => refused t ∧ t.hostRead = s.hostRead ++ [some 0]) ∧
        (a.unit = 4 → okAccess a.off a.width = false → exec .registerWrite s = .next s) ∧
        sets 0x00 4 refused ∧ sets 0x6C 4 refused ∧ sets 0x08 4 refused ∧
        sets 0x08 8 (fun t => (t.die d).bar0 = { b with qtbase := v &&& ~~~0xE000#64 }) ∧
        sets 0x40 8 (fun t => (t.die d).bar0 = { b with bar2cfg := v &&& 0xFFFFC00001FF#64 }) ∧
        sets 0x28 8 (fun t => (t.die d).bar0 = { b with tlbBase := v }) ∧
        (∀ i, i < 256 → sets (0x1000 + 8 * i) 8 fun t => fget? (t.die d).bar0.asroot i = some (v &&& ~~~0xE000#64)) ∧
        (∀ i, i < 32 → sets (0x2000 + 4 * i) 4 fun t => fget? (t.die d).bar0.portmap i = some (BitVec.ofNat 32 a.val)) ∧
        reads 0x00 4 (b.pkg % 256 * 16 + d % 4 * 5) b ∧
        reads 0x08 8 b.qtbase.toNat b ∧
        reads 0x20 4 s.zonecfg.toNat b ∧
        reads 0x50 4 b.powercap b ∧
        reads 0x60 4 (b.badreg % 256 * 2 ^ 24 + b.baddoor % 256 * 2 ^ 16 + b.bar2flt % 256 * 2 ^ 8 + b.tdisprej % 256)
          { b with badreg := 0, baddoor := 0, bar2flt := 0, tdisprej := 0 } ∧
        reads 0x68 4 (b.recreate % 2 ^ 16 * 2 ^ 16 + b.poisoned % 256 * 2 ^ 8 + b.atomerr % 256) { b with recreate := 0, poisoned := 0, atomerr := 0 } ∧
        (a.off = 0x58 → s.runsTo .writeOneClear fun t => t.mem = s.mem ∧
          (¬ justNow b.hotT → (t.die d).bar0 = { b with hot := b.hot && !bitB a.val 16 }) ∧ (justNow b.hotT → (t.die d).bar0 = b)) ∧
        (a.off = 0x70 → s.runsTo .writeOneClear fun t => t.mem = s.mem ∧ (justNow b.cohT → (t.die d).bar0 = b) ∧
          (¬ justNow b.cohT → (t.die d).bar0.cohlog.getLsbD 63 = (b.cohlog.getLsbD 63 && !bitB a.val 63) ∧
            ∀ i, i < 63 → (t.die d).bar0.cohlog.getLsbD i = b.cohlog.getLsbD i)) ∧
        (∀ n, n < 272 → a.off = 0x20004 + 16 * n → bitB a.val 31 = true → s.runsTo .writeOneClear fun t => t.mem = s.mem ∧
          (justNow (fget? b.errT n) → (t.die d).bar0 = b) ∧
          (¬ justNow (fget? b.errT n) → fget (t.die d).bar0.errlog n 0#32 = fget b.errlog n 0#32 &&& 0x7FFFFFFF#32)) ∧
        (24 < bits a.val 4 0 + bits a.val 12 8 ∨ s.launches ≠ [] → s.runsTo .zonecfgWrite fun t => refused t ∧ t.zonecfg = s.zonecfg) ∧
        (bits a.val 4 0 + bits a.val 12 8 ≤ 24 → s.launches = [] → s.runsTo .zonecfgWrite fun t => t.mem = s.mem ∧ t.dies = s.dies ∧
          t.zonecfg = BitVec.ofNat 32 (bits a.val 12 8 * 256 + bits a.val 4 0) ∧ t.txn.tcacfg = none) ∧
        exec .powercapWrite s = .next (s.updBar0 d fun b => { b with powercap := max 1200 (min 2000 (bits a.val 11 0)) }) ∧
        (let i := a.idx % 256
         let hosts := (s.tile (tileAt d (i % 16) (i / 16))).shares.any fun h => !h.ended && !h.guest
         (hosts = true → s.runsTo .laybyEntryWrite refused) ∧
         (hosts = false → a.off ≠ 8 → s.runsTo .laybyEntryWrite fun t => t.mem = s.mem ∧
            (fget (t.die d).bar0.layby i 0#128).setWidth 64 = v &&& 0x000FFFFFFFFF0000#64)) ∧
        (bits a.val 7 0 = 1 → s.runsTo .clearBootstep fun t => t.mem = s.mem ∧ (t.die (bits a.val 9 8)).bar0.bootstep = []) ∧
        (bits a.val 7 0 ≠ 1 → s.runsTo .clearBootstep refused) ∧
        (b.tlbBusy = true → s.runsTo .tlbinv refused) ∧
        (b.tlbBusy = false → s.runsTo .tlbinv fun t => t.mem = s.mem ∧ (t.die d).bar0.tlbBusy = true ∧
          t.awaits .tlbinvDone { die := d, id := s.nextId } ∧
          (bitB a.val 8 = true → b.tlbSize = 0 → ∀ u, (t.tile u).un.tlb = []) ∧
          ∀ u, (t.tile u).ctxs = (s.tile u).ctxs)) ∧
      (s.invPending b.tlbRange a.id = true → exec .tlbinvDone s = .next (s.after againTicks .tlbinvDone a)) ∧
      (s.invPending b.tlbRange a.id = false → exec .tlbinvDone s = .next (s.updBar0 d fun b => { b with tlbBusy := false }))) ∧
  (∀ (s : State),
      let a := s.arg
      let d := a.die
      let b := (s.die d).bar0
      let cfg := b.bar2cfg.toNat
      let va := bits cfg 47 30 * 2 ^ 30 + a.off
      let opens := s.enumerated d = true ∧ s.recovery = false ∧ (s.die d).tdi ≠ 3
      let id := if a.id = 0 then s.nextId else a.id
      let counted := fun (t : State) => t.mem = s.mem ∧ (t.die d).bar0 = { b with bar2flt := min 255 (b.bar2flt + 1) }
      let place := fun (n acc k : Nat) => bitB cfg 8 = true ∧ 0 < n ∧ a.off + n ≤ 2 ^ b.bar2Log ∧ globalVa (va + n - 1) = true ∧
        va % 64 + n ≤ 64 ∧ k % 64 + n ≤ 64 ∧ (∃ lf p, s.translate d (bits cfg 7 0) va acc false true = .ok (lf, .dev k p) ∧ lf.cls < 2) ∧
        isDev (lineOf k) = true ∧ s.postedAhead d id = false
      let ready := fun (k : Nat) (w : Bool) => let y := s.sliceLine d (lineOf k)
        y.free true w = true ∧ y.kept = none ∧ y.linked = []
      (s.enumerated d = false ∨ 2 ^ b.bar2Log < a.off + a.data.length → exec .bar2Write s = .next s) ∧
      (s.enumerated d = false ∨ 2 ^ b.bar2Log < a.off + a.width → exec .bar2Read s = .next s) ∧
      (opens →
        (a.data ≠ [] → a.off + a.data.length ≤ 2 ^ b.bar2Log → bitB cfg 8 = false → s.runsTo .bar2Write counted) ∧
        (a.off + a.width ≤ 2 ^ b.bar2Log → bitB cfg 8 = false → s.runsTo .bar2Read fun t => counted t ∧ t.hostRead = s.hostRead ++ [none]) ∧
        (∀ k, place a.data.length 1 k →
          (ready k true → (∀ p ∈ s.launches, p.2.matchable = true → p.2.vtag? = none) → s.runsTo .bar2Write fun t =>
            t.mem.hbm = s.mem.hbm.writeN k a.data.length (leNat a.data) ∧ t.mem.scr = s.mem.scr ∧ t.tiles = s.tiles) ∧
          ((s.sliceLine d (lineOf k)).free true true = false → s.runsTo .bar2Write fun t => t.mem = s.mem ∧
            .unit true ⟨.bar2Write, { a with id := id }⟩ ∈ (t.sliceLine d (lineOf k)).linked ∧
            t.awaits .sliceRequest { die := d, line := lineOf k })) ∧
        (∀ k, place a.width 0 k → ready k false → s.linePoison (lineOf k) = false → s.runsTo .bar2Read fun t => t.mem = s.mem ∧
          t.hostRead = s.hostRead ++ [some (s.devRead k a.width)])))

/-- R23, R86, R133 to R137, R140, R528: the commands on a queue: LOAD reads its entry, DISABLE and ABORT end it, an answer to a fault
record, the write-back of its entry, and the doorbell. -/
def Obligations.QueueCommands : Prop :=
  ∀ (s : State),
    let a := s.arg
    let d := a.die
    let q := d * 32768 + a.q % 32768
    let b := (s.die d).bar0
    let x := s.queue q
    let opens := s.enumerated d = true ∧ s.recovery = false ∧ (s.die d).tdi = 0
    let refused := fun (t : State) => t.mem = s.mem ∧ t.tiles = s.tiles ∧ t.queues = s.queues ∧
      (t.die d).bar0 = { b with badreg := min 255 (b.badreg + 1) }
    let busy := fun (t : State) => (t.die d).bar0.qcmdBusy = true ∧ t.awaits .load { die := d, ok := true }
    let runs := fun (i : Instr) (p : State → Prop) => s.runsTo i fun t => busy t ∧ t.mem = s.mem ∧ p t
    let bad := fun (t : State) => t.tiles = s.tiles ∧ t.queues = s.queues ∧ (t.die d).bar0.badreg = min 255 (b.badreg + 1)
    let writesBack := fun (t : State) => t.awaits .queueEntryWriteback { q := q }
    (a.ok = true → exec .load s = .next (s.updBar0 d fun b => { b with qcmdBusy := false })) ∧
    (opens → a.ok = false → b.qcmdBusy = true → ∀ i ∈ [Instr.load, .disable, .abort], s.runsTo i refused) ∧
    (opens → a.ok = false → b.qcmdBusy = false →
      (s.entryKey d (a.q % 32768) = none → runs .load bad) ∧
      (∀ k, s.entryKey d (a.q % 32768) = some k →
        let v := s.devRead k 64
        (s.linePoison (lineOf k) = true ∨ entryBad v = true → runs .load bad) ∧
        (s.linePoison (lineOf k) = false → entryBad v = false →
          (x.qstate = 0 ∨ (x.qstate = 2 ∧ (s.die d).inService = true) → runs .load fun t => writesBack t ∧
            let y := t.queue q
            y.qstate = 1 ∧ y.qerr = 0 ∧ y.readIdx = bits v 255 224 ∧ y.writeIdx = bits v 255 224 ∧ y.ringbase = bits v 47 0 ∧
            y.ringlog = bits v 52 48 ∧ y.asid = bits v 71 64 ∧ y.weight = bits v 79 72 ∧ y.attlim = bits v 83 80 ∧
            y.detcap = bits v 119 88 ∧ y.fqbase = bits v 171 128 * 16 ∧ y.fqlog = bits v 175 172 ∧ y.prioceil = bits v 58 56 ∧
            y.feed = bitB v 53 ∧ y.order = bitB v 54 ∧ y.deleg = bitB v 55 ∧ y.cvec = bits v 186 176 ∧ y.evec = bits v 202 192 ∧
            y.fvec = bits v 218 208) ∧
          (x.qstate = 2 → (s.die d).inService = false → runs .load fun t => t.queues = s.queues) ∧
          (x.qstate = 1 → runs .load fun t =>
            t.queue q = { x with prioceil := bits v 58 56, weight := bits v 79 72, attlim := bits v 83 80, detcap := bits v 119 88,
                                 cvec := bits v 186 176, evec := bits v 202 192, fvec := bits v 218 208 }))) ∧
      (x.qstate = 0 → runs .disable fun t => t.queues = s.queues) ∧
      (x.qstate ≠ 0 → runs .disable fun t => t.queue q = { x with disabling := true } ∧
        (s.queueBusy q = false → t.awaits .queueDisabled { q := q })) ∧
      (s.requeued = [] → (s.launches = [] → runs .abort fun t => (t.queue q).qstate = 0 ∧
          (t.queue q).readIdx = x.writeIdx ∧ t.irqs = s.irqs ∧ (x.qstate ≠ 0 ∨ x.readIdx ≠ x.writeIdx → writesBack t)) ∧
        ∀ l y, s.launches = [(l, y)] → y.queue = q → y.run = 1 → y.commit ≠ 4 → s.runsTo .abort fun t => busy t ∧
          fget? t.launches l = none ∧ (t.queue q).qstate = 0 ∧ fget? t.requeued y.tag = none)) ∧
    (opens →
      (let gone := x.pending.find? fun p => p.1 == a.idx % 2 ^ 32
       (gone = none ∨ x.deleg = true → s.runsTo .retry refused ∧ s.runsTo .fail refused) ∧
       (∀ i f, gone = some (i, f) → x.deleg = false → f.ctx ≠ 255 →
         (s.tiles = [] → s.runsTo .retry fun t => t.mem = s.mem ∧ t.launches = s.launches ∧
           (t.queue q).pending = x.pending.filter fun p => p.1 != a.idx % 2 ^ 32) ∧
         (∀ u c k, s.tiles = [(u, { s.tile u with ctxs := [(c, k)] })] → (s.tile u).un.susp = [] → k.onFault = some (q, i) →
           k.ctl.trapcause.toNat % 32 = causePageFault → k.deferred = [] → k.mst = false → k.ring = [] →
           s.runsTo .retry fun t => (t.ctx u c).status = .ready ∧ (t.ctx u c).regs = k.regs ∧ (t.ctx u c).onFault = none) ∧
         (∀ l y, s.launches = [(l, y)] → l = f.launch % 2 ^ 13 → y.run = 1 → y.commit ≠ 4 → s.runsTo .fail fun t =>
           fget? t.launches l = none))) ∧
      (let w := a.val % 2 ^ 32
       let q := a.q
       let x := s.queue q
       let dist := fun (i : Nat) => (i + 2 ^ 32 - x.readIdx) % 2 ^ 32
       queueDie q = d → a.q < 131072 → s.postedAhead d a.id = false →
         (x.feed = false → x.qstate = 1 → w ≠ x.writeIdx → dist x.writeIdx ≤ dist w → dist w ≤ 2 ^ x.ringlog →
           s.runsTo .doorbellWrite fun t => t.mem = s.mem ∧ t.queue q = { x with writeIdx := w } ∧ t.awaits .admissionDecision { die := d }) ∧
         (x.feed = false → x.qstate = 1 → w ≠ x.writeIdx → 2 ^ x.ringlog < dist w →
           s.runsTo .doorbellWrite fun t => t.mem = s.mem ∧ t.queue q = { x with qstate := 2, qerr := 1 } ∧ (d, x.evec) ∈ t.irqs) ∧
         (x.feed = false → x.qstate = 1 → w ≠ x.writeIdx → dist w ≤ 2 ^ x.ringlog → dist w < dist x.writeIdx →
           s.runsTo .doorbellWrite fun t => t.mem = s.mem ∧ t.queue q = { x with qerr := 6 } ∧ (t.die d).bar0.baddoor = min 255 (b.baddoor + 1)) ∧
         (x.feed = true → s.runsTo .doorbellWrite fun t => t.mem = s.mem ∧ (t.queue q).writeIdx = x.writeIdx ∧ (t.queue q).qstate = x.qstate ∧
           (t.die d).bar0.baddoor = min 255 (b.baddoor + 1)) ∧
         (x.feed = false → x.qstate ≠ 1 → s.runsTo .doorbellWrite fun t => t.mem = s.mem ∧ t.queues = s.queues ∧
           (t.die d).bar0.baddoor = min 255 (b.baddoor + 1)) ∧
         (s.runsTo .fqreadWrite fun t => t.mem = s.mem ∧ t.queue q = { x with fqRead := w })) ∧
      (queueDie a.q = d → a.q < 131072 → s.postedAhead d a.id = true → s.runsTo .doorbellWrite fun t => t.mem = s.mem ∧ t.queues = s.queues ∧
        ∃ n, s.timed t 192 .doorbellWrite { die := d, q := a.q, val := a.val % 2 ^ 32, id := n })) ∧
    (let x := s.queue a.q
     (x.disabling = false ∨ s.queueBusy a.q = true → exec .queueDisabled s = .next s) ∧
     (x.disabling = true → s.queueBusy a.q = false → s.runsTo .queueDisabled fun t => t.mem = s.mem ∧
       t.queue a.q = { x with qstate := 0, disabling := false, failT := none } ∧ t.awaits .queueEntryWriteback { q := a.q }) ∧
     (∀ k, s.entryKey (queueDie a.q) (a.q % 32768) = some k → s.linePoison (lineOf k) = false → s.runsTo .queueEntryWriteback fun t =>
       t.mem.hbm = (s.mem.hbm.writeN (k + 28) 4 x.readIdx).writeN (k + 36) 2 (x.qerr % 256 * 256 + x.qstate % 256) ∧ t.queues = s.queues) ∧
     (s.entryKey (queueDie a.q) (a.q % 32768) = none → s.runsTo .queueEntryWriteback fun t => t.mem = s.mem ∧
       t.queue a.q = { x with qstate := 2, qerr := 8 } ∧ t.irqs = s.irqs ++ [(queueDie a.q, x.evec)]))

/-- R15, R16, R42 to R52, R58 to R68, R529: the mesh: which node a message goes to and when, credits, what damage of a flit does, a failed
bridge module, and the frames and links of the ports to other packages. The order of grants at one output is log 6's reading of R48. R61,
R72, R82, R83, R85, R86, R140, R294 to R297, R300, R316: a TLB miss goes to a slice of its die and to a walk, which fills or faults the
tiles that wait; a trap in hand does what its cause asks; a late fault; a record that firmware answers; an operation that is never
answered. -/
def Obligations.TransportAndTranslation : Prop :=
  (∀ (s : State),
      let a := s.arg
      let id := a.id
      let gone := fun (t : State) => ∀ o ∈ t.msgs, o.id ≠ id
      let found := s.msgs.find? fun m => m.id == id
      ((∀ d, (s.die d).rowq = []) → ∀ yFirst start p q, p < 1024 → q < 1024 →
        s.hop yFirst start (s.nodeOf p) (s.nodeOf q) = (towards yFirst p q).map s.nodeOf) ∧
      (∀ d row q x, d < 4 → row < 16 → 0 < q → q ≤ x → x < 16 → fget? (s.die d).rowq row = some q → ∀ yFirst,
        (∀ start, s.hop yFirst start (s.nodeOf (tileAt d (q - 1) row)) (s.nodeOf (tileAt d x row)) = some (nodeAt d q row)) ∧
        s.hop yFirst false (nodeAt d q row) (s.nodeOf (tileAt d x row)) = some (nodeAt d (q + 1) row)) ∧
      (found = none → ∀ i, i = .flitForward ∨ i = .flitDamaged ∨ i = .unattributedDrop ∨ i = .forwardDiscard → exec i s = .next s) ∧
      (∀ m, found = some m →
        let takes := s.destGone m = false ∧ m.to_ = s.routerOf m.dst ∧ s.pairAhead m = false
        (m.via = 1 → s.pairAhead m = true → exec .flitForward s = .next s) ∧
        (m.via ≠ 1 → s.granted m = none → exec .flitForward s = .next s) ∧
        (∀ o lane, m.via ≠ 1 → s.granted m = some (o, lane) → o.2 ≠ 4096 → s.runsTo .flitForward fun t => t.mem = s.mem ∧
          t.pending = s.pending ∧
          t.msgs = (s.msgs.filter fun o => o.id != id) ++
            [{ m with at_ := o.2, via := linkOf o.1 o.2 + 2, hops := m.hops + if o.1 = o.2 then 0 else 1 }] ∧
          (2 ≤ m.via → s.timed t (2 * meshTicks) .creditReturn { link := m.via - 2, vc := m.vc, cls := m.cls, val := m.flits }) ∧
          (m.payload.what = .forwardedRequest → o.2 = m.to_ → s.timed t (64 * meshTicks) .forwardDiscard { id := id })) ∧
        (∀ o lane, m.via ≠ 1 → s.granted m = some (o, lane) → o.2 = 4096 → m.pkg = none → takes → s.runsTo .flitForward fun t =>
          t.mem = s.mem ∧ gone t ∧ t.pending = s.pending ∧ t.agenda = .act m.payload :: s.agenda) ∧
        (m.via = 1 → takes → s.runsTo .flitForward fun t => t.mem = s.mem ∧ gone t ∧ t.pending = s.pending ∧
          t.agenda = .act m.payload :: s.agenda) ∧
        (∀ o lane, m.via ≠ 1 → s.granted m = some (o, lane) → o.2 = 4096 → m.pkg = none → s.destGone m = false → m.to_ ≠ s.routerOf m.dst →
          s.runsTo .flitForward fun t => t.mem = s.mem ∧ t.awaits .signpostForward { id := id } ∧ { m with via := 1 } ∈ t.msgs) ∧
        (∀ o lane g, m.via ≠ 1 → s.granted m = some (o, lane) → o.2 = 4096 → m.pkg = some g →
          let p := m.at_ - 1088
          fget? s.portDown p = none → s.runsTo .flitForward fun t => t.mem = s.mem ∧ gone t ∧
            (t.port p).replay = (s.port p).replay ++ [((s.port p).txSeq, g, m.payload)] ∧ (t.port p).txSeq = (s.port p).txSeq + 1) ∧
        (∀ o, s.msgs = [m] → s.asksFor m = some o → s.granted m = some (o, 0)) ∧
        (∀ b c, s.asksFor m = some (b, c) → c ≠ 4096 → s.creditsUsed (linkOf b c) m.vc m.cls + m.flits ≤ linkDepth b c)) ∧
      (let k := bufKey a.link a.vc a.cls
       s.runsTo .creditReturn fun t => t.mem = s.mem ∧ t.msgs = s.msgs ∧ fget t.links k 0 = fget s.links k 0 - a.val) ∧
      (∀ m, found = some m →
        let d := nodeDie m.router
        let i := routerIdx m.router
        let errs := fun (t : State) (hi lo : Nat) => bits (fget (t.die d).bar0.errcnt i 0#32).toNat hi lo
        let counts := fun (t : State) (hi lo : Nat) => errs t hi lo = min (2 ^ (hi + 1 - lo) - 1) (errs s hi lo + 1)
        (a.unit = 0 ∨ a.unit = 1 → s.runsTo .flitDamaged fun t => t.mem = s.mem ∧ t.msgs = s.msgs ∧ counts t 11 0 ∧ errs t 23 12 = errs s 23 12) ∧
        (a.unit = 2 → exec .flitDamaged s = .next s) ∧
        (2 < a.unit → s.runsTo .flitDamaged fun t => t.mem = s.mem ∧ gone t ∧ counts t 23 12 ∧ errs t 11 0 = errs s 11 0 ∧
          (fget (t.die d).bar0.errlog i 0#32).getLsbD 31 = true ∧
          ((fget (s.die d).bar0.errlog i 0#32).getLsbD 31 = true →
            fget (t.die d).bar0.errlog i 0#32 = fget (s.die d).bar0.errlog i 0#32)) ∧
        (m.vc ≠ 5 → s.runsTo .unattributedDrop fun t => t.mem = s.mem ∧ gone t ∧ counts t 27 24 ∧ t.launches = s.launches) ∧
        (∀ l x, m.vc = 5 → s.launches = [(l, x)] → (x.tiles.any fun u => dieOf u == d) = true → x.run = 1 → x.commit ≠ 4 →
          s.runsTo .unattributedDrop fun t => gone t ∧ fget? t.launches l = none) ∧
        (m.payload.what = .forwardedRequest → m.at_ = m.to_ → s.runsTo .forwardDiscard fun t => t.mem = s.mem ∧ gone t) ∧
        (m.payload.what ≠ .forwardedRequest ∨ m.at_ ≠ m.to_ → exec .forwardDiscard s = .next s)) ∧
      (s.recovery = false → s.listed = true → s.resets = [] → s.runsTo .bridgeModuleFail fun t =>
        t.resets = [a.die] ∧ (t.die a.die).resetting = true ∧ (3, moduleUnit (2 * a.unit)) ∈ (t.die a.die).broken ∧
        ∀ m ∈ t.msgs, 2 ≤ m.via → m.via - 2 ∉ s.laneLinks a.die (2 * a.unit) ∧ m.via - 2 ∉ s.laneLinks a.die (2 * a.unit + 1)) ∧
      (let p := a.port
       let opens := fget? s.portDown p = none ∧ s.dieHost (p / 2) = true
       let at_ := portNode p a.tile
       let room := s.creditsUsed (entryLink p) (frameEvent a.unit).2 ((s.yFirst at_ (s.routerOf (.tile a.tile))).toNat + 2) + 1 ≤ 256
       let inOrder := a.ok = true ∧ a.seq = (s.port p).rxSeq
       (¬ opens → exec .portFrame s = .next s) ∧
       (opens → a.unit = 8 → s.runsTo .portFrame fun t => t.mem = s.mem ∧ t.msgs = s.msgs ∧
         (t.port p).replay = (s.port p).replay.filter (fun f => a.seq < f.1) ∧
         t.sent = s.sent ++ ((s.port p).replay.filter fun f => f.1 ≤ a.seq).map fun (f : Nat × Nat × Event) => (p, f.2.1, f.2.2)) ∧
       (opens → a.unit = 9 → (s.port p).fails < 15 → s.runsTo .portFrame fun t => t.mem = s.mem ∧ t.msgs = s.msgs ∧
         (t.port p).fails = (s.port p).fails + 1 ∧ (t.port p).replay = (s.port p).replay) ∧
       (opens → a.unit = 9 → 15 ≤ (s.port p).fails → s.runsTo .portFrame fun t => (fget? t.portDown p).isSome = true ∧
         t.hostEvents = s.hostEvents ++ [(p / 2, 16 + p)]) ∧
       (a.unit < 8 → ¬ inOrder → exec .portFrame s = .next s) ∧
       (opens → a.unit < 8 → inOrder → a.gen ≠ s.pkgOf (p / 2) → s.runsTo .portFrame fun t => t.mem = s.mem ∧ t.msgs = s.msgs ∧
         t.pending = s.pending ∧ (t.port p).rxSeq = (s.port p).rxSeq + 1) ∧
       (opens → a.unit < 8 → inOrder → a.gen = s.pkgOf (p / 2) → ¬ room → exec .portFrame s = .next s) ∧
       (opens → a.unit < 8 → inOrder → a.gen = s.pkgOf (p / 2) → room → s.runsTo .portFrame fun t => t.mem = s.mem ∧
         t.mails (.port p) (.tile a.tile) (frameEvent a.unit).2 (frameEvent a.unit).1
           { a with req := 1, ok := a.last, port := 0, gen := 0, unit := 0, seq := 0 } ∧ (t.port p).rxSeq = (s.port p).rxSeq + 1) ∧
       (fget? s.portDown p = none → s.runsTo .portLinkDown fun t => (fget? t.portDown p).isSome = true ∧ fget? t.ports p = none ∧ t.mem = s.mem ∧
         t.hostEvents = s.hostEvents ++ [(p / 2, 16 + p)]) ∧
       ((fget? s.portDown p).isSome = true → exec .portLinkDown s = .next s) ∧
       s.runsTo .portLinkRetrain fun t => fget? t.portDown p = none ∧ fget? t.ports p = none ∧ t.mem = s.mem ∧ t.tiles = s.tiles)) ∧
  (∀ (s : State),
      let a := s.arg
      let u := a.tile
      let d := dieOf u
      let va := a.vpn * 4096
      let slice := l2TlbSlice d a.asid a.vpn
      let wants := (s.tile u).un.wants a.asid a.vpn
      let hit := tlbFind (fget (s.die d).l2tlb slice []) a.asid va
      let walks := (s.die d).walkers
      let walking := walks.contains (a.asid, a.vpn) || (s.die d).walkQ.contains (a.asid, a.vpn)
      (wants = false → exec .l1TlbMiss s = .next s ∧ exec .l2TlbLookup s = .next s) ∧
      (wants = true →
        (s.runsTo .l1TlbMiss fun t => t.mem = s.mem ∧ t.tiles = s.tiles ∧ t.mails (.tile u) (.slice slice) 0 .l2TlbLookup { a with die := d }) ∧
        (a.ok = false → hit.isSome = true → s.runsTo .l2TlbLookup fun t => t.mem = s.mem ∧ t.tiles = s.tiles ∧
          t.mails (.slice slice) (.tile u) 1 .l2TlbLookup { a with ok := true }) ∧
        (a.ok = false → hit = none → walking = true → exec .l2TlbLookup s = .next s) ∧
        (a.ok = false → hit = none → walking = false → walks.length < walkerCount → s.runsTo .l2TlbLookup fun t => t.mem = s.mem ∧
          t.tiles = s.tiles ∧ (t.die d).walkers = walks ++ [(a.asid, a.vpn)] ∧
          t.awaits .pageWalk { die := d, asid := a.asid, vpn := a.vpn }) ∧
        (a.ok = false → hit = none → walking = false → walkerCount ≤ walks.length → s.runsTo .l2TlbLookup fun t => t.mem = s.mem ∧
          t.tiles = s.tiles ∧ t.pending = s.pending ∧ (t.die d).walkers = walks ∧ (t.die d).walkQ = (s.die d).walkQ ++ [(a.asid, a.vpn)]) ∧
        (a.ok = true → hit = none → s.runsTo .l2TlbLookup fun t => t.mem = s.mem ∧ t.tiles = s.tiles ∧ t.awaits .l1TlbMiss { a with ok := false }) ∧
        (∀ lf, a.ok = true → hit = some lf → s.ops = [] → s.runsTo .l2TlbLookup fun t => t.mem = s.mem ∧
          fget? (t.tile u).un.tlb (tlbKey a.asid va lf.span) = some { lf with since := s.nextId } ∧ (t.tile u).un.wants a.asid a.vpn = false ∧
          (t.tile u).un.stalled = false ∧ (t.tile u).ctxs = (s.tile u).ctxs)) ∧
      (walks.contains (a.asid, a.vpn) = false → a.die = d → exec .pageWalk s = .next s) ∧
      (wants = true → a.die = d → walks.contains (a.asid, a.vpn) = true →
        (s.linesFor d ((s.walkLines d a.asid va).map fun l => (l, false)) ⟨.pageWalk, a⟩).1 = true → s.ops = [] → s.tiles = [(u, s.tile u)] →
        (∀ lf, s.walk d a.asid va = .ok lf →
          let whole := s.wholePage d a.asid va lf
          let key := tlbKey a.asid va whole.span
          s.runsTo .pageWalk fun t => t.mem = s.mem ∧ fget? (t.tile u).un.tlb key = some { whole with since := s.nextId + 1 } ∧
            (t.tile u).un.wants a.asid a.vpn = false ∧ fget? (fget (t.die d).l2tlb slice []) key = some { whole with since := s.nextId }) ∧
        (∀ kind level root, s.walk d a.asid va = .bad kind level root →
          s.runsTo .pageWalk fun t => t.mem = s.mem ∧ (t.tile u).un.wants a.asid a.vpn = false ∧
            ∃ x ∈ (t.tile u).un.xfault, x.1 = a.asid ∧ x.2.1 = a.vpn ∧ x.2.2.2.kind = kind ∧ x.2.2.2.level = level ∧ x.2.2.2.root = root)) ∧
      (let c := a.ctx
       let k := s.ctx u c
       let cause := k.ctl.trapcause.toNat % 32
       let q := (s.launchOf u c).queue
       let x := s.queue q
       (k.status ≠ .trapped ∨ (k.trapT = none ∧ a.ok = false) → exec .trapHandling s = .next s) ∧
       (k.status = .trapped → k.trapT.isSome = true →
         (c = sysCtx → s.runsTo .trapHandling fun t => t.tiles = s.tiles ∧ t.awaits .supervisorTimeout { tile := u, ctx := c, ok := true }) ∧
         (c ≠ sysCtx →
           (cause = causeSvc → s.runsTo .trapHandling fun t => t.mem = s.mem ∧ (t.tile u).hand = some { ctx := c, cause := causeSvc } ∧
             (t.ctx u c).trapT = none ∧ (t.ctx u c).regs = k.regs ∧
             t.awaits (svcEvent (fget k.waitOn k.regs.pc.toNat 0)) { tile := u, ctx := c }) ∧
           (cause = causeUncorrectable → s.runsTo .trapHandling fun t => t.mem = s.mem ∧
             t.awaits .tileQuarantine { tile := u, val := bits k.ctl.trapcause.toNat 11 8 }) ∧
           (∀ y, cause = causePoison ∨ cause = causeIllegal ∨ cause = causePageFault ∧ x.qstate = 2 → s.launches = [(k.lidx, y)] →
             y.run = 1 → y.commit ≠ 4 → s.runsTo .trapHandling fun t => fget? t.launches k.lidx = none) ∧
           (∀ f p, cause = causePageFault → k.frec = some f → f.kind ≠ 3 → x.qstate ≠ 2 →
             (x.pending.find? fun (p : Nat × FaultRec) => p.2.launch == f.launch && p.2.asid == f.asid && p.2.va / 4096 == f.va / 4096 &&
               p.2.kind == f.kind && p.2.acc == f.acc) = some p → s.runsTo .trapHandling fun t => t.mem = s.mem ∧
                 (t.ctx u c).onFault = some (q, p.1) ∧ (t.ctx u c).regs = k.regs) ∧
           (∀ f k1 k2 p1 p2 lf1 lf2, cause = causePageFault → k.frec = some f → f.kind ≠ 3 → x.qstate ≠ 2 → x.pending = [] →
             (x.fqWrite + 2 ^ 32 - x.fqRead) % 2 ^ 32 ≠ 2 ^ x.fqlog →
             let va := x.fqbase + 32 * (x.fqWrite % 2 ^ x.fqlog)
             s.translate (queueDie q) x.asid va 1 false true = .ok (lf1, .dev k1 p1) → lf1.cls = 1 → s.linePoison (lineOf k1) = false →
             s.translate (queueDie q) x.asid (va + 16) 1 false true = .ok (lf2, .dev k2 p2) → lf2.cls = 1 → s.linePoison (lineOf k2) = false →
             s.runsTo .trapHandling fun t => (t.ctx u c).onFault = some (q, x.fqWrite) ∧
               t.mem.hbm = (s.mem.hbm.writeN k1 16 (f.word % 2 ^ 128)).writeN k2 16 (f.word / 2 ^ 128) ∧
               (t.queue q).fqWrite = (x.fqWrite + 1) % 2 ^ 32 ∧ (queueDie q, x.fvec) ∈ t.irqs))) ∧
       (k.status = .trapped ∨ k.status = .idle ∨ k.earliestFault = none → exec .lateFault s = .next s) ∧
       (∀ e f, k.status ≠ .trapped → k.status ≠ .idle → k.earliestFault = some e → e.fault = some f → s.runsTo .lateFault fun t =>
         t.mem = s.mem ∧ (t.ctx u c).status = .trapped ∧ (t.ctx u c).regs = k.regs ∧ (t.ctx u c).frec = some f ∧
         (t.ctx u c).ctl.trapcause = trapcauseWord (if e.unit = 2 then causeLateMatrix else causeLateVector) f.acc f.kind ∧
         (t.ctx u c).ctl.trapaddr = BitVec.ofNat 64 (f.va % 2 ^ 48) ∧ (t.ctx u c).ctl.trapseq = BitVec.ofNat 32 (2 ^ 16 + e.seq) ∧
         t.awaits .trapHandling { tile := u, ctx := c })) ∧
      (let q := a.q
       let x := s.queue q
       let rec? := x.pending.find? fun p => p.1 == a.idx
       (rec? = none → exec .delegatedFault s = .next s) ∧
       (∀ i f lf, rec? = some (i, f) → s.walk (dieOf f.tile) f.asid f.va = .ok lf → lf.permits f.acc = true → s.tiles = [] → f.ctx ≠ 255 →
         s.runsTo .delegatedFault fun t => t.mem = s.mem ∧ t.launches = s.launches ∧ (t.queue q).pending = x.pending.filter fun p => p.1 != a.idx) ∧
       (∀ i f kind level root l y, rec? = some (i, f) → s.walk (dieOf f.tile) f.asid f.va = .bad kind level root → l = f.launch % 2 ^ 13 →
         s.launches = [(l, y)] → y.run = 1 → y.commit ≠ 4 → s.runsTo .delegatedFault fun t => fget? t.launches l = none)) ∧
      (a.ok = true →
        let asked := a.val = s.pkgOf d ∧ s.asked u a.ctx = true
        let told := (fget? (s.ctx u (a.ctx % 256)).answer (a.ctx / 256 % 2 ^ 48)).isSome
        (asked → exec .responseTimeout s = .next (s.after plainTimeout .responseTimeout a)) ∧
        (¬ asked → told = true → exec .responseTimeout s = .next s) ∧
        (¬ asked → told = false → s.runsTo .responseTimeout fun t => t.mem = s.mem ∧ s.hears t u a.ctx [1#32])) ∧
      (a.ok = false → s.op? a.id = none → exec .responseTimeout s = .next s) ∧
      (∀ o, a.ok = false → s.op? a.id = some o →
        ((o.elems.any fun e => !e.done && e.loc.isNone) = true → exec .responseTimeout s = .next (s.after plainTimeout .responseTimeout a)) ∧
        (∀ e, o.elems = [e] → e.loc.isSome = true → e.back = false → o.kind = .load → o.vec = false → o.w64 = false → o.dest < 63 →
          o.seq = none → o.aux = [] → o.ctx < 192 → (s.ctx o.tile o.ctx).status ≠ .trapped → s.runsTo .responseTimeout fun t =>
            t.mem = s.mem ∧ t.op? a.id = none ∧ (t.ctx o.tile o.ctx).raw o.dest = 0 ∧ (t.ctx o.tile o.ctx).psn o.dest = true)))

/-- R61, R71, R245, R264 to R267, R430, R431: requests to another tile's scratch and their replies; the park table: what a pass performs,
and a time-out; a local block that a launch has left. -/
def Obligations.RemoteScratch : Prop :=
  ∀ (s : State),
    let a := s.arg
    let u := a.tile
    let parks := (s.tile u).sync.park
    let replies := fun (t : State) (o : Op) (id st lanes : Nat) =>
      t.mails (.tile u) (.tile o.tile) 4 .remoteScratchReply { tile := o.tile, ctx := o.ctx, id := id, val := st, off := u, lanes := lanes }
    (a.unit ≠ 1 → exec .remoteScratchRequest s = .next (s.after (tileTicks - s.now % tileTicks) .remoteScratchRequest { a with unit := 1 })) ∧
    (s.op? a.id = none → a.unit = 1 → a.req ≠ 1 → exec .remoteScratchRequest s = .next s) ∧
    (s.op? a.id = none → ∀ i, i = .remoteScratchReply ∨ i = .parkRetryResend → exec i s = .next s) ∧
    (∀ o e off, a.unit = 1 → a.req ≠ 1 → s.op? a.id = some o → o.elems = [e] → e.done = false → e.loc = some (.scr u off) → o.tile ≠ u → o.tile < 1024 →
      (∀ p ∈ parks, p.op ≠ a.id) →
      (∀ e' s', s.scrAttempt o e u off false = some (e', s') → s.runsTo .remoteScratchRequest fun t => t.mem = s'.mem ∧
        t.op? a.id = some (o.setElem { e' with back := false }) ∧ replies t o a.id 0 (2 ^ e.lane)) ∧
      (s.scrAttempt o e u off false = none → parks.length < 64 → s.runsTo .remoteScratchRequest fun t => t.mem = s.mem ∧
        (t.tile u).sync.park = parks ++ [⟨(s.tile u).sync.parkId, a.id, e.lane, off / 4 * 4⟩] ∧
        s.timed t (s.fetmo u * tileTicks) .syncTimeout { tile := u, id := (s.tile u).sync.parkId }) ∧
      (s.scrAttempt o e u off false = none → parks.length = 64 → s.runsTo .remoteScratchRequest fun t => t.mem = s.mem ∧
        (t.tile u).sync.park = parks ∧ replies t o a.id 1 0)) ∧
    (∀ p, a.unit = 1 → a.req = 1 → a.cls = 0 → u < 1024 → a.who.1 < 1024 → parks = [] → (s.tile u).allows a.lidx a.off a.width false false = true →
      s.portTo (dieOf u) a.idx = some p → s.runsTo .remoteScratchRequest fun t => t.mem = s.mem ∧
        t.mails (.tile u) (.port p) 4 .remoteScratchReply
          { tile := a.who.1, id := a.id, val := 0, off := a.who.2, tok := (s.scrPoisN u a.off a.width).toNat,
            acc := (BitVec.ofNat 64 (s.scrRead u a.off a.width)).toNat }) ∧
    (∀ o, s.op? a.id = some o → a.req ≠ 1 →
      let k := s.ctx o.tile o.ctx
      (a.val = 1 → exec .remoteScratchReply s = .next (s.after 256 .parkRetryResend { a with tile := o.tile, ctx := o.ctx })) ∧
      (∀ e, a.val = 2 → o.elems = [e] → e.done = false → o.seq = none → s.runsTo .remoteScratchReply fun t => t.mem = s.mem ∧
        (t.ctx o.tile o.ctx).status = .trapped ∧ (t.ctx o.tile o.ctx).regs = k.regs ∧ t.op? a.id = none ∧
        (t.ctx o.tile o.ctx).ctl.trapcause = trapcauseWord causeSyncTimeout o.kind.scrAcc 0xF ∧
        (t.ctx o.tile o.ctx).ctl.trapaddr = BitVec.ofNat 64 (e.va % 2 ^ 48)) ∧
      (a.val = 0 → (o.returned a.lanes).allBack = true → o.kind.isCopy = false → o.seq = none → o.aux = [] → o.ctx < 192 → k.status ≠ .trapped →
        s.runsTo .remoteScratchReply fun t => t.mem = s.mem ∧ t.op? a.id = none ∧ (t.ctx o.tile o.ctx).regs = (k.deliver (o.returned a.lanes)).regs) ∧
      (a.val = 0 → (o.returned a.lanes).allBack = false → exec .remoteScratchReply s = .next (s.setOp a.id (o.returned a.lanes))) ∧
      (a.off < 1024 → s.tilesGone (dieOf a.off) = false → s.runsTo .parkRetryResend fun t => t.mem = s.mem ∧ t.tiles = s.tiles ∧
        t.mails (.tile o.tile) (.tile a.off) 3 .remoteScratchRequest { tile := a.off, id := a.id })) ∧
    (parks = [] → s.ops = [] → exec .parkPass s = .next s) ∧
    (∀ p o e, parks = [p] → p.off = a.off / 4 * 4 → s.ops = [(p.op, o)] → o.elems = [e] → e.lane = p.lane → e.loc = some (.scr u a.off) → e.done = false →
      (s.scrAttempt o e u a.off true = none → s.runsTo .parkPass fun t => t.mem = s.mem ∧ (t.tile u).sync.park = parks) ∧
      (∀ e' s', o.tile < 1024 → s.scrAttempt o e u a.off true = some (e', s') → s.runsTo .parkPass fun t => t.mem = s'.mem ∧
        (t.tile u).sync.park = [] ∧ t.op? p.op = some (o.setElem { e' with back := o.tile == u }) ∧ (o.tile ≠ u → replies t o p.op 0 (2 ^ e.lane)))) ∧
    ((∀ p ∈ parks, p.id ≠ a.id) → exec .syncTimeout s = .next s) ∧
    (∀ p o e, parks = [p] → p.id = a.id → s.ops = [(p.op, o)] → o.elems = [e] → e.lane = p.lane → e.loc = some (.scr u p.off) → e.done = false →
      p.off % 4 = 0 → s.scrAttempt o e u p.off true = none →
      (o.tile = u → o.seq = none → s.runsTo .syncTimeout fun t => t.mem = s.mem ∧ (t.tile u).sync.park = [] ∧ t.op? p.op = none ∧
        (t.ctx u o.ctx).status = .trapped ∧ (t.ctx u o.ctx).ctl.trapcause = trapcauseWord causeSyncTimeout o.kind.scrAcc 0xF) ∧
      (o.tile ≠ u → o.tile < 1024 → s.runsTo .syncTimeout fun t => t.mem = s.mem ∧ (t.tile u).sync.park = [] ∧ replies t o p.op 2 0)) ∧
    ((∀ h ∈ (s.tile u).shares, h.lidx ≠ a.lidx ∨ h.ended = false) → exec .localBlockZero s = .next s) ∧
    (∀ h, (s.tile u).shares.find? (fun h => h.lidx == a.lidx && h.ended) = some h → s.runsTo .localBlockZero fun t =>
      t.mem.hbm = s.mem.hbm ∧ t.mem.scr = s.mem.scr.clear (scrKey u h.lbase) h.lsize ∧
      (∀ i, scrKey u h.lbase / 4 ≤ i → i < (scrKey u h.lbase + h.lsize) / 4 → fget t.mem.full i false = false ∧ fget t.mem.spois i false = false) ∧
      (∀ g ∈ (t.tile u).shares, g ∈ (s.tile u).shares ∧ ¬ (g.lidx = a.lidx ∧ g.ended = true ∧ g.lbase = h.lbase)))

/-- R117 to R124, R148, R308: a request joins the queue of its unit or is refused, its reply reaches its record and lowers SVC, and a
reply that does not come in time frees the record. R117, R120 to R129: what the units do with the request at the head of their queue: its
checks, its inputs and outputs, its status, the stream contexts of the decoders, and, for a rasteriser, one triangle at a time. -/
def Obligations.Services : Prop :=
  (∀ (s : State),
      let a := s.arg
      let word := fun (i : Nat) => (a.words.getD i 0#32).toNat
      let kind := word 1 % 16
      let refuses := fun (t : State) (src : Place) (st : Nat) => ∃ b : Arg, t.mails src (.tile a.tile) 6 .serviceReply b ∧ b.tile = a.tile ∧
        b.ctx = a.ctx ∧ b.id = a.id ∧ b.q = word 0 % 8 ∧ bits (b.words.getD 1 0#32).toNat 11 8 = st
      let rq := fget (s.tile a.tile).un.replies a.q []
      let k := s.ctx a.tile a.ctx
      (s.indexLive a.lidx = true → (s.launch a.lidx).tag = a.val → a.words.length = 16 →
        (kind = 0 ∨ 4 < kind → s.runsTo .serviceRequest fun t => t.mem = s.mem ∧ t.svc = s.svc ∧ refuses t (.service a.die a.unit) 2) ∧
        (0 < kind → kind ≤ 4 → selOk (word 1) = false → s.runsTo .serviceRequest fun t => t.mem = s.mem ∧ t.svc = s.svc ∧
          refuses t (if a.ok then .service a.die a.unit else .tile a.tile) 3) ∧
        (0 < kind → kind ≤ 4 → selOk (word 1) = true → a.ok = false → s.runsTo .serviceRequest fun t => t.mem = s.mem ∧ t.svc = s.svc ∧ refuses t (.tile a.tile) 1)) ∧
      (0 < kind → kind ≤ 4 → a.words.length = 16 → selOk (word 1) = true → a.ok = true → s.runsTo .serviceRequest fun t => t.mem = s.mem ∧
        ∃ r, t.svc = s.svc ++ [r] ∧ r.id = a.id ∧ r.tile = a.tile ∧ r.ctx = a.ctx ∧ r.lidx = a.lidx ∧ r.die = a.die ∧ r.unit = a.unit ∧
          r.words = a.words ∧ (r.dead = true ↔ s.indexLive a.lidx = false ∨ (s.launch a.lidx).tag ≠ a.val) ∧
          (s.pending = [] → (∀ x ∈ s.svc, x.die ≠ a.die ∨ x.unit ≠ a.unit) → ∃ i, t.awaits i { die := a.die, unit := a.unit, id := a.id })) ∧
      (rq.find? (fun r => r.id == a.id && r.words.isNone) = none → exec .serviceReply s = .next s ∧ exec .serviceTimeout s = .next s) ∧
      (∀ r, rq.find? (fun r => r.id == a.id && r.words.isNone) = some r →
        let holds := fun (t : State) => (t.ctx a.tile a.ctx).regs = k.regs ∧
          (k.status = .trapped → (t.ctx a.tile a.ctx).deferred = k.deferred ++ [⟨.serviceReply, a⟩]) ∧
          (k.status ≠ .trapped → (t.ctx a.tile a.ctx).flight = (k.lower a.id).flight)
        let places := fun (t : State) (x : Reply) => fget (t.tile a.tile).un.replies a.q [] = (rq.filter fun x => x.id != a.id) ++ [x]
        (s.runsTo .serviceReply fun t => t.mem = s.mem ∧ holds t ∧ places t { r with words := some a.words, t := s.now }) ∧
        (s.runsTo .serviceTimeout fun t => t.mem = s.mem ∧ holds t ∧
          places t { r with words := some [0#32, 0#32, 0#32, 0#32], t := s.now, bad := true }))) ∧
  ((∀ (s : State) (r : SvcReq),
      let a := s.arg
      let finishes := fun (u t : State) (st result detail : Nat) => t.mem = u.mem ∧ t.tiles = u.tiles ∧
        t.svc = u.svc.filter (fun x => x.id != r.id) ∧ (∀ k, (t.stream k).lock ≠ some (r.die * 16 + r.unit)) ∧
        (r.dead = false → t.mails (.service r.die r.unit) (.tile r.tile) 6 .serviceReply
          { tile := r.tile, ctx := r.ctx, id := r.id, q := r.field 0 4 % 8, words := r.reply st result detail }) ∧
        (fget (t.die r.die).bar0.svccnt r.unit 0#64).toNat / 2 ^ 32 = min 0xFFFFFFFF ((fget (u.die r.die).bar0.svccnt r.unit 0#64).toNat / 2 ^ 32 + 1)
      let ends := fun (i : Instr) (st : Nat) => s.runsTo i fun t => finishes s t st 0 0
      let refused := fun (u : State) (gs : List (Nat × Nat)) (write : Bool) => gs.findSome? fun p => u.svcRefused r p.1 p.2 write
      let runs := fun (i : Instr) (v : State) (ins ranges : List (Nat × Nat)) (more : List Byte → List (List (Nat × Nat)))
          (out : List Byte → Bool → List (List Byte × Bool) → SvcOut) (keeps : State → State → Prop) =>
        (∀ va, refused v ins false = some (5, va) → s.runsTo i fun t => finishes v t 5 0 0) ∧
        (∀ va, refused v ins false = none → refused v ranges true = some (5, va) → s.runsTo i fun t => finishes v t 5 0 0) ∧
        (refused v ins false = none → refused v ranges true = none →
          (∀ u, v.svcReach r ins false = (false, u) → exec i s = .next u) ∧
          (∀ u, v.svcReach r ins false = (true, u) →
            (∀ e u', u.svcGets r ins = (.error e, u') → s.runsTo i fun t => finishes u' t e 0 0) ∧
            (∀ bs bad u', u.svcGets r ins = (.ok (bs, bad), u') →
              let rest := (more bs).flatten
              (∀ va, refused u' rest false = some (5, va) → s.runsTo i fun t => finishes u' t 5 0 0) ∧
              (∀ u2 groups u3, refused u' rest false = none → u'.svcReach r rest false = (true, u2) → u2.svcGroups r (more bs) = (.ok groups, u3) →
                let o := out bs bad groups
                let outs := o.regions.map fun p => (p.1, p.2.length)
                (∀ u4, u3.svcReach r outs true = (false, u4) → exec i s = .next u4) ∧
                (∀ u4 n w, u3.svcReach r outs true = (true, u4) → u4.svcPuts r o.pois 0 o.regions = (n, none, w) →
                  s.runsTo i fun t => finishes (w.svcTests r outs) t o.status o.result n ∧ keeps w t)))))
      let poisons := fun (bad : Bool) (i : Nat) => bad && Config.outPoison r.id i
      (s.svcHead = none → ∀ i, i = .decode ∨ i = .emitPicture ∨ i = .clearContext ∨ i = .resize ∨ i = .textureSample ∨ i = .rasterise →
        exec i s = .next s) ∧
      (s.svcHead = some r →
        (let key := r.contextKey
         let me := r.die * 16 + r.unit
         let x := s.stream key
         (∀ i, i = .decode ∨ i = .emitPicture ∨ i = .clearContext →
           (∀ e, r.decodeFields = some e → ends i e) ∧
           (r.decodeFields = none →
             (∀ u, x.lock = some u → u ≠ me → ends i 8) ∧
             (x.lock = none → s.contextOk r (r.field 8 8) = none → s.runsTo i fun t => t.mem = s.mem ∧ t.svc = s.svc ∧
               t.stream key = { x with lock := some me } ∧ s.timed t (64 * meshTicks) r.event { die := r.die, unit := r.unit, id := r.id }) ∧
             (x.lock = none → s.contextOk r (r.field 8 8) = some 5 → ends i 5))) ∧
         (r.decodeFields = none → x.lock = some me →
           let context := (r.field 8 8, contextBytes)
           let slot := Config.frameSlot r.id % 32
           let buffer := fun j => (r.field 52 8 + j * Config.bufferBytes r.id, Config.bufferBytes r.id)
           let pics := fun (t : State) (l : List Picture) => (t.stream key).pics = l
           let missing := fun (t : State) (l : List Nat) => (t.stream key).missing = l
           (r.decodeErr x = true → runs .decode s [context, (r.field 16 8, r.field 24 4)] [] (fun _ => [])
             (fun _ bad _ => { regions := [r.contextOut], pois := poisons bad, result := r.picResult none, status := 6 })
             (fun w t => w.stream key = x → pics t x.pics ∧ missing t (slot :: x.missing.filter (· != slot)))) ∧
           (∀ pic, r.decodeErr x = false → pic = (if Config.frameEmits r.id then nextPicture (x.pics ++ r.newPics) else none) →
             let rows := r.pictureOut pic
             runs .decode s ([context, (r.field 16 8, r.field 24 4)] ++ (Config.frameRefs r.id).map fun j => buffer (j % 32)) (rows ++ [buffer slot])
               (fun _ => [])
               (fun _ bad _ => { regions := fillRegions (r.pictureByte pic) 0 rows ++
                                   fillRegions (fun i => BitVec.ofNat 8 (Config.pictureSample r.id (2 ^ 16) i)) 0 [buffer slot] ++ [r.contextOut],
                                 pois := poisons bad, result := r.picResult pic, status := poisStatus bad })
               (fun w t => w.stream key = x → pics t ((x.pics ++ r.newPics).filter fun p => some p != pic) ∧
                 missing t (if Config.frameKey r.id then [] else x.missing.filter (· != slot)))) ∧
           (∀ pic, pic = nextPicture x.pics → runs .emitPicture s [context] (r.pictureOut pic) (fun _ => [])
             (fun _ bad _ => { regions := fillRegions (r.pictureByte pic) 0 (r.pictureOut pic) ++ [r.contextOut], pois := poisons bad,
                               result := r.picResult pic, status := poisStatus bad })
             (fun w t => w.stream key = x → pics t (x.pics.filter fun p => some p != pic) ∧ missing t x.missing)) ∧
           runs .clearContext s [] [] (fun _ => [])
             (fun _ _ _ => { regions := [r.contextOut], pois := fun _ => false, result := 0, status := 0 })
             (fun _ t => pics t [] ∧ missing t []))) ∧
        (let (cx, cy, cw, ch) := (r.field 36 2, r.field 38 2, r.field 40 2, r.field 42 2)
         let (w, h) := (r.field 44 2, r.field 46 2)
         let reserved := r.op ≠ 0 ∨ bitB (r.field 4 4) 14 = true ∨ r.field 53 1 ≠ 0 ∨ r.field 56 8 ≠ 0
         let outside := w = 0 ∨ 8192 < w ∨ h = 0 ∨ 8192 < h ∨ 2 < r.field 48 1 ∨ 3 < r.field 49 1 ∨ 2 < r.field 50 1 ∨ 5 < r.field 51 1 ∨
           1 < r.field 52 1 ∨ cw = 0 ∨ ch = 0 ∨ r.field 32 2 < cx + cw ∨ r.field 34 2 < cy + ch
         (reserved → ends .resize 2) ∧ (¬ reserved → outside → ends .resize 3) ∧
         (¬ reserved → ¬ outside → runs .resize s r.resizeIn r.resizeRanges (fun _ => [])
           (fun bs bad _ => { regions := r.resizeOut bs, pois := poisons bad, status := poisStatus bad,
                              result := r.letterbox.1.1 * 2 ^ 48 + r.letterbox.1.2 * 2 ^ 32 })
           (fun _ _ => True))) ∧
        (let n := r.field 24 1
         let size := if r.field 25 1 = 0 then 8 else 16
         let reserved := r.op ≠ 0 ∨ bitB (r.field 4 4) 14 = true ∨ r.field 26 6 ≠ 0 ∨ r.field 40 24 ≠ 0
         let outside := n = 0 ∨ 32 < n ∨ 1 < r.field 25 1
         (reserved → ends .textureSample 2) ∧ (¬ reserved → outside → ends .textureSample 3) ∧
         (¬ reserved → ¬ outside →
           (∀ va, s.svcRefused r (r.field 8 8) 32 false = some (5, va) → ends .textureSample 5) ∧
           (∀ v desc p, s.svcRefused r (r.field 8 8) 32 false = none → s.svcReach r [(r.field 8 8, 32)] false = (true, v) →
             (v.svcGet r (r.field 8 8) 32).1 = .ok (desc, p) →
             (Config.descBad desc = true → s.runsTo .textureSample fun t => finishes v t 3 0 0) ∧
             (Config.descBad desc = false → runs .textureSample v [(r.field 8 8, 32), (r.field 16 8, 32 * n)] [(r.field 32 8, n * size)]
               (fun bs => (List.range n).map fun i => Config.texels (bs.take 32) (texSample bs i))
               (fun bs bad groups =>
                 let of := fun i => groups.getD i ([], false)
                 { regions := [(r.field 32 8, (List.range (n * size)).map fun j =>
                     Config.textureByte (bs.take 32) (texSample bs (j / size)) (of (j / size)).1 (j % size))],
                   pois := fun i => (of (4 * i / size)).2 || poisons bad i,
                   result := ((List.range n).filter fun i => (of i).2).length, status := poisStatus (bad || groups.any (·.2)) })
               (fun _ _ => True))))) ∧
        (∀ e, r.rasterFields = some e → ends .rasterise e) ∧
        (r.rasterFields = none → 0 < r.disc →
          (r.field 16 4 ≤ r.tri → s.runsTo .rasterise fun t => finishes s t (if r.pois then 7 else 0) r.rasterResult (16 * r.recs)) ∧
          (∀ v bs bad v', r.tri < r.field 16 4 → s.svcReach r [(r.field 8 8 + 48 * r.tri, 48)] false = (true, v) →
            v.svcGet r (r.field 8 8 + 48 * r.tri) 48 = (.ok (bs, bad), v') →
            let again := fun (u t : State) => u.timed t meshTicks .rasterise { die := r.die, unit := r.unit, id := r.id }
            (r.triBlocks bs = none → s.runsTo .rasterise fun t => t.mem = v'.mem ∧ again v' t ∧
              t.svc = v'.svc.map fun x => if x.id == r.id then { r with pois := r.pois || bad, tri := r.tri + 1, blk := 0, disc := r.disc + 1, wait := none }
                else x) ∧
            (∀ blocks r' u, r.triBlocks bs = some blocks →
              v'.rasterBlocks { r with pois := r.pois || bad } bad (blocks.drop r.blk) = (r', none, u) → s.runsTo .rasterise fun t =>
                t.mem = u.mem ∧ again u t ∧ t.svc = u.svc.map fun x => if x.id == r'.id then { r' with tri := r'.tri + 1, blk := 0, wait := none } else x)))) ∧
      (s.svcReq? a.id = some r → r.wait = some a.val → s.runsTo .rasterOverflow fun t => finishes s t 9 r.rasterResult r.tri) ∧
      (s.svcReq? a.id = some r → r.wait ≠ some a.val → exec .rasterOverflow s = .next s) ∧
      (s.svcReq? a.id = none → exec .rasterOverflow s = .next s)) ∧
    (∀ a b p : Int × Int, a ≠ b → insideEdge a b p = !insideEdge b a p))

/-- R133, R137, R139, R140, R183 to R197, R213, R246, R327, R481: a dispatcher decides, reserves and admits; a claim of another die's
tiles; a LAUNCH message; the start of a launch's waves; and the hold of a record that has failed placement for long. -/
def Obligations.Dispatchers : Prop :=
  ∀ (s : State),
    let a := s.arg
    let d := a.die
    let y := s.die d
    let blocked := s.dieHost d = false ∨ y.stopped = true ∨ (fget? s.placing d).isSome = true
    let early := y.decided ≠ 0 ∧ s.now < y.decided + 96
    let tells := fun (t : State) (i n : Nat) (u : Nat) (w : Instr) => t.mails (.mgmt i) (.tile u) 7 w { tile := u, lidx := n }
    (blocked → exec .admissionDecision s = .next s) ∧
    (¬ blocked → early → (∀ e ∈ s.timers, e.2.what ≠ .admissionDecision) →
      exec .admissionDecision s = .next (s.after (y.decided + 96 - s.now) .admissionDecision { die := d })) ∧
    (¬ blocked → ¬ early → s.queues = [] → exec .admissionDecision s = .next s) ∧
    (∀ q x v, ¬ blocked → ¬ early → s.queues = [(q, x)] → queueDie q = d → x.qstate = 1 → x.disabling = false →
      x.writeIdx = (x.readIdx + 1) % 2 ^ 32 → x.readIdx < 2 ^ 32 → x.readIdx ∉ x.ended → s.launches = [] → s.requeued = [] → s.freed = [] →
      s.placing = [] → fget? s.copies (tagOf q x.readIdx) = some v →
      let r := recOf v
      let n : Launch := { Launch.init with queue := q, idx := x.readIdx, r := r }
      let u := r.y0 * 32 + r.x0
      recBad v x.prioceil q x.readIdx = false → r.txn = false → r.ndep = 0 → r.w = 1 → r.h = 1 → dieOf u = d →
      s.impossible n = false → s.originOk n (r.x0, r.y0) = true → s.fitsOn (s.atOrigin n (r.x0, r.y0)) d = true →
      s.runsTo .admissionDecision fun t => (∃ m, fget? t.launches 0 = some m ∧ m.run = 1 ∧ m.queue = q ∧ m.idx = x.readIdx ∧ m.r = r ∧ m.slot = none) ∧
        ((t.tile u).share? 0).isSome = true ∧ tells t d 0 u .launchStart ∧ (t.die d).decided = s.now ∧
        fget? t.copies (tagOf q x.readIdx) = none) ∧
    (let q := a.q
     let x := s.queue q
     let i := queueDie q
     let sends := fun (t : State) (st tag : Nat) => t.mails (.mgmt i) (.tile a.tile) 7 .launchMessage
       { tile := a.tile, ctx := a.ctx, lidx := a.lidx, ok := true, words := [BitVec.ofNat 32 st, BitVec.ofNat 32 tag] }
     let takes := x.qstate = 1 ∧ x.feed = true ∧ s.dieHost i = true
     let full := 2 ^ x.ringlog ≤ (x.writeIdx + 2 ^ 32 - x.readIdx) % 2 ^ 32
     let v := wordsNat a.words % 2 ^ 1792
     let k := s.ctx a.tile (a.ctx % 256)
     (a.ok = false →
       (¬ takes → s.runsTo .launchMessage fun t => t.mem = s.mem ∧ t.queues = s.queues ∧ sends t 1 0) ∧
       (takes → full → s.runsTo .launchMessage fun t => t.mem = s.mem ∧ t.queues = s.queues ∧ sends t 2 0) ∧
       (takes → ¬ full → x.asid ≠ a.asid → s.runsTo .launchMessage fun t => t.mem = s.mem ∧ t.queues = s.queues ∧ sends t 3 0) ∧
       (takes → ¬ full → x.asid = a.asid → s.writeRecord q x.writeIdx v = none → s.runsTo .launchMessage fun t => t.mem = s.mem ∧ sends t 4 0 ∧
         (t.queue q).qstate = 2 ∧ (t.queue q).qerr = 9) ∧
       (∀ s', takes → ¬ full → x.asid = a.asid → s.writeRecord q x.writeIdx v = some s' → s.runsTo .launchMessage fun t => t.mem = s'.mem ∧
         sends t 0 (tagOf q x.writeIdx) ∧ (t.queue q).writeIdx = (x.writeIdx + 1) % 2 ^ 32 ∧ fget? t.copies (tagOf q x.writeIdx) = some v ∧
         t.awaits .admissionDecision { die := i })) ∧
     (a.ok = true → k.status = .idle ∨ k.lidx ≠ a.lidx → exec .launchMessage s = .next s) ∧
     (a.ok = true → k.status ≠ .idle → k.lidx = a.lidx → s.runsTo .launchMessage fun t => t.mem = s.mem ∧ s.hears t a.tile a.ctx a.words)) ∧
    (a.ok = false → a.unit ≠ 1 → s.runsTo .tileClaim fun t => t.mem = s.mem ∧ t.tiles = s.tiles ∧ t.msgs = s.msgs ∧
      (t.die d).claims = y.claims ++ [(s.now / meshTicks, a.idx, a.lidx)] ∧ s.timed t meshTicks .tileClaim { die := d, unit := 1 }) ∧
    (a.ok = false → a.unit = 1 →
      let next := nextClaim (y.claims.filter fun c => c.1 < s.now / meshTicks)
      (next = none → exec .tileClaim s = .next s) ∧
      ∀ c, next = some c →
        let left := fun (t : State) => t.mem = s.mem ∧ (t.die d).claims = y.claims.erase c
        let answers := fun (t : State) (yes : Bool) => t.mails (.mgmt d) (.mgmt c.2.1) 7 .tileClaim
          { die := c.2.1, req := d, lidx := c.2.2, ok := true, last := yes }
        (fget? s.placing c.2.1 = none → s.runsTo .tileClaim fun t => left t ∧ t.tiles = s.tiles ∧ t.msgs = s.msgs) ∧
        ∀ p, fget? s.placing c.2.1 = some p →
          let fits := p.lidx = c.2.2 ∧ s.dieUp d = true ∧ y.stopped = false ∧ s.fitsOn p.launch d = true
          (¬ fits → s.runsTo .tileClaim fun t => left t ∧ t.tiles = s.tiles ∧ answers t false) ∧
          (fits → s.runsTo .tileClaim fun t => left t ∧ answers t true ∧
            (p.launch.run ≠ 2 → ∀ u ∈ p.launch.tilesOn d, ∃ h ∈ (t.tile u).shares, h.lidx = p.lidx ∧ h.waves = p.launch.r.waves))) ∧
    (∀ (at_ die lidx : Nat) (c : Nat × Nat × Nat), die < c.2.1 ∧ at_ = c.1 ∨ at_ < c.1 →
      nextClaim [c, (at_, die, lidx)] = some (at_, die, lidx) ∧ nextClaim [(at_, die, lidx), c] = some (at_, die, lidx)) ∧
    (a.ok = true →
      (fget? s.placing d = none → exec .tileClaim s = .next s) ∧
      ∀ p, fget? s.placing d = some p →
        (p.lidx ≠ a.lidx → exec .tileClaim s = .next s) ∧
        (∀ i rest, p.lidx = a.lidx → a.last = true → p.ask.tail = i :: rest → s.runsTo .tileClaim fun t => t.mem = s.mem ∧ t.tiles = s.tiles ∧
          fget? t.placing d = some { p with ask := i :: rest } ∧
          t.mails (.mgmt d) (.mgmt i) 7 .tileClaim { die := i, idx := d, lidx := p.lidx }) ∧
        (p.lidx = a.lidx → a.last = true → p.ask.tail = [] → s.mayAdmit d p.launch = false → s.runsTo .tileClaim fun t => t.mem = s.mem ∧
          fget? t.placing d = none ∧ t.launches = s.launches ∧ t.awaits .admissionDecision { die := d }) ∧
        (p.lidx = a.lidx → a.last = true → p.ask.tail = [] → (∀ u ∈ p.launch.tiles, ((s.tile u).share? p.lidx).isSome = true) →
          s.mayAdmit d p.launch = true →
          p.launch.run ≠ 2 → p.launch.r.txn = false → s.runsTo .tileClaim fun t => fget? t.placing d = none ∧
            (∃ m, fget? t.launches p.lidx = some m ∧ m.run = 1 ∧ m.r = p.launch.r) ∧ ∀ u ∈ p.launch.tiles, tells t d p.lidx u .launchStart) ∧
        (p.lidx = a.lidx → a.last = false → p.launch.origins.length ≤ p.next → s.runsTo .tileClaim fun t => t.mem = s.mem ∧ fget? t.placing d = none ∧
          t.awaits .admissionDecision { die := d })) ∧
    (let u := a.tile
     let l := a.lidx
     let x := s.launch l
     let waves := ((s.tile u).ctxs.filter fun p => !isPath p.1 && p.2.lidx == l).map (·.1)
     let regs := s.giveRegs u l (waves.map fun c => (c, [x.r.waveGrans]))
     ((s.tile u).share? l = none → exec .launchStart s = .next s) ∧
     (∀ h, (s.tile u).share? l = some h →
       (h.started = true ∨ h.guest = true ∨ x.run ≠ 1 ∨ s.indexLive l = false → exec .launchStart s = .next s) ∧
       (h.started = false → h.guest = false → x.run = 1 → s.indexLive l = true →
         (regs.1 = false → s.runsTo .launchStart fun t => t.mem = s.mem ∧ s.timed t (2 * tileTicks) .launchStart a) ∧
         (regs.1 = true → s.runsTo .launchStart fun t => t.mem = s.mem ∧ t.awaits .classTableRead { tile := u, lidx := l } ∧
           ∀ c ∈ waves,
             let k := t.ctx u c
             let seed := x.r.lodseed ^^^ BitVec.ofNat 32 (u * 2 ^ 20) ^^^ BitVec.ofNat 32 (k.windex * 2 ^ 8)
             k.status = .ready ∧ k.lidx = (s.ctx u c).lidx ∧ k.windex = (s.ctx u c).windex ∧ k.regs.pc = BitVec.ofNat 48 x.r.entry ∧ k.rawx 0 = BitVec.ofNat 64 x.r.args ∧
             (∀ r, 2 ≤ r → k.raw r = 0) ∧ (∀ r, k.psn r = false) ∧ k.regs.v = [] ∧ k.regs.m = [] ∧ k.regs.exec = 0xFFFFFFFF#32 ∧
             k.regs.dstack = [] ∧ k.regs.q = 8 * 2 ^ x.r.quota ∧ k.ctl.rngseed = if seed = 0 then 1 else seed)))) ∧
    (let q := a.q
     let mine := (s.queue q).failT = some (a.off, a.val)
     let later := exec .placementHold s = .next (s.after (1024 * meshTicks) .placementHold a)
     (¬ mine → exec .placementHold s = .next s) ∧
     (mine → s.candidates (queueDie q) = ([], s) → later) ∧
     (∀ x n, mine → s.candidates (queueDie q) = ([(x, n)], s) → x.tag = a.off →
       (s.holds = [] → s.runsTo .placementHold fun t => t.mem = s.mem ∧ t.holds = [⟨x.tag, x.r.prio, x.r.x0, x.r.y0, x.r.w, x.r.h⟩]) ∧
       ((∃ h ∈ s.holds, h.tag = x.tag) → later)))

/-- R198, R201, R206 to R210, R253, R267, R309 to R313: how a launch yields: the end of the tier-1 window and of the grace, its switch-out
to the detour area and its restoration; the compactor, which changes no register; and a wave that becomes urgent. -/
def Obligations.Yielding : Prop :=
  ∀ (s : State),
    let a := s.arg
    let mine := s.preempts.find? fun p => p.tag == a.val && p.t == a.off
    (mine = none → exec .tier1WindowClose s = .next s ∧ exec .preemptgrace s = .next s) ∧
    (∀ l rest, mine = some { tag := a.val, victims := [l], t := a.off } → s.preempts = { tag := a.val, victims := [l], t := a.off } :: rest →
      let x := s.launch l
      (x.run ≠ 1 ∨ x.tier ≠ 1 ∨ s.allStopped l = true → exec .tier1WindowClose s = .next s) ∧
      (x.run = 1 → x.tier = 1 → s.indexLive l = true → s.allStopped l = false → s.runsTo .tier1WindowClose fun t => t.mem = s.mem ∧
        (t.launch l).tier = 2 ∧ ∀ u c, (s.ctx u c).lidx = l → (s.ctx u c).status = .stopped → (t.ctx u c).status = .ready) ∧
      (x.run = 1 → x.r.persist = false → x.r.txn = false → rest = [] → s.indexLive l = true → s.runsTo .preemptgrace fun t => t.mem = s.mem ∧
        t.preempts = [] ∧ (t.launch l).tier = 0 ∧ (t.launch l).run = 1 ∧ (a.val, x.tag) ∈ t.outlast ∧
        (∀ u c, (s.ctx u c).lidx = l → (s.ctx u c).status = .stopped → (t.ctx u c).status = .ready) ∧ ∀ h ∈ t.holds, h.tag ≠ a.val) ∧
      (x.run = 1 → x.r.persist = false → x.r.txn = true → x.commit ≠ 4 → s.indexLive l = true → s.runsTo .preemptgrace fun t =>
        fget? t.launches l = none)) ∧
    (let l := a.lidx
     let x := s.launch l
     let fit := s.indexLive l = true ∧ x.run = 1 ∧ x.tier = 1 ∧ x.commit = 0 ∧ s.allStopped l = true
     let d := x.shadowDie
     let all := x.tiles.map fun t => let y := s.saveTile x l t; (y, y.stream l y.nth y.mask)
     let shared := sharePages ((s.freeDetour x).filter fun p => s.detourWritable d (s.asidOf l) p) all
     (¬ fit → exec .switchOut s = .next s) ∧
     (fit → s.canLeave l = false → (∀ e ∈ s.timers, e.2.what ≠ .switchOut) →
       exec .switchOut s = .next (s.after (16 * tileTicks) .switchOut { lidx := l })) ∧
     (fit → s.canLeave l = true → shared.2 = [] → s.runsTo .switchOut fun t => (t.launch l).run = 2 ∧ (t.launch l).tier = 0 ∧
       (t.launch l).swouts = x.swouts + 1 ∧ (t.launch l).saved = shared.1.map (·.1) ∧
       (∀ p ∈ t.tiles, ∀ c ∈ p.2.ctxs, c.2.lidx ≠ l) ∧ (∀ o ∈ t.ops, o.2.lidx ≠ l)) ∧
     (fit → s.canLeave l = true → shared.2 ≠ [] → s.runsTo .switchOut fun t => t.mem = s.mem ∧ (t.launch l).run = 1 ∧
       ∀ u c, u ∈ shared.2 → (s.ctx u c).lidx = l → (s.ctx u c).status = .stopped → (t.ctx u c).status = .ready)) ∧
    (let u := a.tile
     let l := a.lidx
     let x := s.launch l
     let saved := x.saved.find? fun y => y.tile == u
     (saved = none ∨ (s.tile u).share? l = none → exec .restore s = .next s) ∧
     (∀ y h, saved = some y → (s.tile u).share? l = some h →
       let fit := h.started = false ∧ h.away = false ∧ x.run = 1 ∧ s.indexLive l = true
       let regs := s.giveRegs u l ((y.ctxs.filter fun c => !isPath c.1).map fun c => (c.1, c.2.regs.blocks.map (·.2)))
       (¬ fit → exec .restore s = .next s) ∧
       (∀ pa, fit → a.ok = false → s.checkImage x.shadowDie (s.asidOf l) l y = some pa → x.commit ≠ 4 → s.runsTo .restore fun t =>
         fget? t.launches l = none) ∧
       (fit → a.ok = false → s.checkImage x.shadowDie (s.asidOf l) l y = none → regs.1 = false → s.runsTo .restore fun t => t.mem = s.mem ∧
         s.timed t (2 * tileTicks) .restore { a with ok := true }) ∧
       (fit → a.ok = true ∨ s.checkImage x.shadowDie (s.asidOf l) l y = none → regs.1 = true → y.gangs = [] → s.runsTo .restore fun t =>
         t.mem.hbm = s.mem.hbm ∧
         (∀ c k, c < 192 → fget? y.ctxs c = some k → (s.ctx u c).lidx = l → (s.ctx u c).status = .stopped →
           (t.ctx u c).status = .ready ∧ (t.ctx u c).regs.pc = (s.ctx u c).regs.pc ∧ (t.ctx u c).regs.s = (s.ctx u c).regs.s) ∧
         (y.bytes = [] → t.mem.scr = s.mem.scr.clear (scrKey u y.lbase) y.lsize) ∧ t.awaits .arrayGrant { tile := u }))) ∧
    (let u := a.tile
     ((s.tile u).un.compact = [] → exec .compactorMove s = .next s) ∧
     (∀ e rest, (s.tile u).un.compact = e :: rest → s.runsTo .compactorMove fun t => t.mem = s.mem ∧ (t.tile u).un.compact = rest ∧
       (rest ≠ [] → t.awaits .compactorMove { tile := u }) ∧
       ∀ c, (t.ctx u c).regs.v = (s.ctx u c).regs.v ∧ (t.ctx u c).regs.s = (s.ctx u c).regs.s ∧ (t.ctx u c).status = (s.ctx u c).status) ∧
     (let k := s.ctx u a.ctx
      let due := a.ctx < 192 ∧ k.status = .ready ∧ k.urgent = false ∧ ∃ n, k.readyT = some n ∧ n + 256 ≤ s.now
      (¬ due → exec .waveUrgent s = .next s) ∧
      (due → s.runsTo .waveUrgent fun t => t.mem = s.mem ∧ t.ctx u a.ctx = { k with urgent := true })))

/-- R250, R274, R275, R362, R382, R394, R395: KGET and KSET in both lengths, and CTLR, CTLW, CTLS and CTLC of every control register that
the context may read or write, complete: the next instruction follows, memory is as it was, and the value read, and its upper half where a
pair takes it, is in the register named. R262, R263, R280, R298, R300, R423 to R429, R434 to R436, R444: an access to global memory that
is aligned, in the translated addresses, and held by nothing completes as an instruction: the next one follows, its counter is one higher,
and its operation is in flight, with the lanes, addresses, widths and data of the instruction. A scalar access goes on only with its
translation; the lanes of a vector access are translated after it has been dispatched. R180, R181, R442, R443: the stage queue
instructions complete: QSTAT with the counts of an enabled queue; QPUSH and QPOP with the answer of the transfer, and a QPUSH that finds
the queue full at once; and a transfer whose entry and lines are at hand answers the context that waits for it. -/
def Obligations.AccessCompletion : Prop :=
  (∀ (s : State) (d n : Nat), d < 64 →
      let ends := fun (i : Instr) (len : Nat) (p : State → Prop) => ∃ t, exec i s = .next t ∧ t.me.regs.pc = (s.me.retire len).regs.pc ∧
        t.me.status = s.me.status ∧ t.mem = s.mem ∧ p t
      (s.fits .A (sr d) [] →
        let p := fun (t : State) => d ≠ 63 → t.me.raw d = s.myTile.sync.kget s.tileCycle n ∧ t.me.psn d = false
        ends (.kget d n) 4 p ∧ ends (.kget16 d n) 2 p) ∧
      (s.fits .A (sr d) [sr d] →
        ends (.kset n d) 4 (fun t => t.me.regs = (s.me.retire 4).regs) ∧ ends (.kset16 d n) 2 fun t => t.me.regs = (s.me.retire 2).regs) ∧
      (∀ rs, ctlRegs n d s.cur.2 false = some rs → s.fits .A rs [] → s.me.ctlWaits n false = false →
        ends (.ctlr d n) 4 fun t => d ≠ 63 → t.me.raw d = (s.ctlVal n).extractLsb' 0 32 ∧ t.me.psn d = false ∧
          (rs.length = 2 → t.me.raw (d + 1) = (s.ctlVal n).extractLsb' 32 32)) ∧
      (∀ rs, ctlWritable n s.cur.2 = true → ctlRegs n d s.cur.2 true = some rs → s.fits .A rs [rs] → s.me.ctlWaits n true = false →
        (∀ e ∈ s.myTile.sync.mbWait, e.1 ≠ s.cur.2) → ∀ i ∈ [Instr.ctlw n d, .ctls n d, .ctlc n d],
          ends i 4 fun t => t.me.regs = (s.me.retire 4).regs) ∧
      ((n ≤ 0x01C ∨ (0x100 ≤ n ∧ n ≤ 0x17F)) ↔ (ctlRegs n 63 s.cur.2 false).isSome = true)) ∧
  (∀ (s : State) (ty : Ty) (w : Bool) (o : MemOrd) (m : MaskOp) (d a b c sc : Nat) (off : BitVec 16) (op : AtomOp),
      let n := accWidth ty w
      let va := (s.me.rawx a + off.signExtend 64).toNat
      let base := (s.me.rawx a).toNat
      let src := fun r => if w then s.me.rawx r else (s.me.raw r).setWidth 64
      let one := fun (i : Instr) (k : OpKind) (ord : MemOrd) (form : Bool) (dest n va : Nat) (data cmp : Dword) =>
        s.mayIssue k ord form n va → ∃ t, exec i s = .next t ∧ s.hasIssued t k dest fun q =>
          q.vec = false ∧ q.elems.map (fun e => (e.lane, e.va, e.n, e.data, e.cmp)) = [(0, va, n, data, cmp)]
      let act := s.me.active m
      let disp := fun l => (s.me.rawx a + off.signExtend 64 + BitVec.ofNat 64 (l * n)).toNat
      let index := fun l => (s.me.rawx a + ((s.me.vreg b).lane l).setWidth 64 <<< sc).toNat
      let many := fun (i : Instr) (k : OpKind) (dest n : Nat) (va : Nat → Nat) (data : Nat → Dword) =>
        s.mayIssueLanes k o act n va → ∃ t, exec i s = .next t ∧ s.hasIssued t k dest fun q => q.vec = true ∧
          q.seq = some s.me.dseq ∧ q.elems.map (fun e => (e.lane, e.va, e.data)) = (lanesOf act).map fun l => (l, va l, data l)
      let lane := fun r l => ((s.me.vreg r).lane l).setWidth 64
      (s.fits .A (sxr w d ++ xr a) [xr a] →
        one (.ld ty w o d a off) .load o true d n va 0 0 ∧ one (.st ty w o d a off) .store o true d n va (src d) 0) ∧
      (s.fits .A (xr a) [xr a] →
        one (.cinv a off) .cinv ⟨0, 0⟩ true 63 1 va 0 0 ∧ one (.cflush a off) .cflush ⟨0, 0⟩ true 63 1 va 0 0 ∧
        one (.pref a off) .pref ⟨0, 0⟩ true 63 1 va 0 0) ∧
      (s.fits .A (sxr w b ++ xr a) [xr a, sxr w b] →
        one (.red op ty w o a b) .red o (atomForm op ty) 0 n base (src b) 0 ∧
        (op ≠ .cas → one (.atom op true ty w o d a b c) .red o (atomForm op ty) d n base (src b) 0)) ∧
      (s.fits .A (sxr w d ++ sxr w b ++ (if op = .cas then sxr w c else []) ++ xr a) [xr a, sxr w b, if op = .cas then sxr w c else []] →
        one (.atom op false ty w o d a b c) .atom o (atomForm op ty) d n base (src b) (if op = .cas then src c else 0)) ∧
      (s.attachesMem { s := xr a, v := vyr w d, m := [m.k] } (s.me.poisonedUses [xr a]) →
        many (.vld ty w o m d a off) .load d n disp (fun _ => 0) ∧
        many (.vst ty w o m d a off) .store d n disp fun l => (s.me.laneData d w l).1) ∧
      (s.attachesMem { s := xr a, v := b :: vyr w d, m := [m.k] } (s.me.poisonedUses [xr a] + s.me.vecUses [b] act) →
        (∀ nf, many (.vgather nf ty w sc o m d a b) .load d n index fun _ => 0) ∧
        many (.vscatter ty w sc o m d a b) .store d n index fun l => (s.me.laneData d w l).1) ∧
      (w = false → s.attachesMem { s := xr a, v := [b, c, d], m := [m.k] }
          (s.me.poisonedUses [xr a] + s.me.vecUses (b :: c :: if op = .cas then [d] else []) act) →
        many (.vatom op false ty sc o m d a b c) .atom d n index (lane c)) ∧
      (w = false → op ≠ .cas → s.attachesMem { s := xr a, v := [b, c], m := [m.k] } (s.me.poisonedUses [xr a] + s.me.vecUses [b, c] act) →
        many (.vatom op true ty sc o m d a b c) .red d n index (lane c)) ∧
      (w = false → s.attachesMem { s := xr a, v := [b, c], m := [m.k] } (s.me.poisonedUses [xr a] + s.me.vecUses [b, c] act) →
        s.mayIssueLanes .red o act n index → ∃ t, exec (.vredm op ty sc o m a b c) s = .next t ∧ s.hasIssued t .red 0 fun q =>
          q.vec = true ∧ q.elems.map (fun e => (e.lane, e.va)) = (lanesOf act).map fun l => (l, index l))) ∧
  (∀ (s : State) (d a b : Nat), d < 64 →
      let n := (s.me.raw b).toNat
      let x := (s.stageCopy n).1
      (s.fits .A (sr d ++ sr b) [sr b] → n < 256 → x.en = true → ∃ t, exec (.qstat d b) s = .next t ∧ t.mem = s.mem ∧
        t.me.regs.pc = (s.me.retire 8).regs.pc ∧ (d ≠ 63 → t.me.raw d = BitVec.ofNat 32 (stageDiff x.readyix x.popped % 2 ^ 16 +
          (2 ^ x.dlog - stageDiff x.pushed x.freed) * 2 ^ 16) ∧ t.me.psn d = false)) ∧
      (s.fits .A (sr d ++ xr a ++ sr b) [xr a, sr b] → s.waited = 1 → ∀ w ws, s.answered = some (w :: ws) →
        ∀ i ∈ [Instr.qpush d a b, .qpop d a b], ∃ t, exec i s = .next t ∧ t.mem = s.mem ∧ t.me.regs.pc = (s.me.retire 8).regs.pc ∧
          t.me.status = s.me.status ∧ (d ≠ 63 → t.me.raw d = w ∧ t.me.psn d = false)) ∧
      (∀ o e off key p, s.op? s.arg.id = some o → o.elems = [e] → e.loc = some (.scr o.tile off) → (o.kind = .qpush ∨ o.kind = .qpop) →
        let m := s.arg.val
        let y := fget s.stageQs m StageQ.init
        let push := o.kind == .qpush
        let bound := if push then y.ptag else y.ctag
        let idx := if push then y.pushed else y.popped
        let place := s.stageLoc m y e.lane idx
        y.en = true → (bound = 0 ∨ bound = (s.launch o.lidx).tag + 1) → place = some (.dev key p) →
        (push = true → stageDiff y.pushed y.freed ≠ 2 ^ y.dlog) → (push = false → y.readyix ≠ y.popped) →
        (s.stageReach m o [place] ⟨.stageQueueTransfer, s.arg⟩).1 = true → s.matched (m / 64) p (some o.lidx) = [] →
        (s.tile o.tile).allows o.lidx off 64 (!push) (o.ctx == sysCtx) = true →
        ∃ t, exec .stageQueueTransfer s = .next t ∧ t.op? s.arg.id = none ∧
          fget? (t.ctx o.tile o.ctx).answer o.pc.toNat = some [if push then 0#32 else BitVec.ofNat 32 idx] ∧
          (t.ctx o.tile o.ctx).regs = (s.ctx o.tile o.ctx).regs))

/-- R29, R32, R37, R44, R47, R66, R76, R84, R131, R136, R145: these events of the management processor, of the host's registers, of the
links and of translation have no effect on any tile or on memory when they take place. -/
def Obligations.QuietEvents : Prop :=
  ∀ (i : Instr) (s : State),
    i ∈ [Instr.getVersion, .getCapabilities, .negotiateAlgorithms, .getDigests, .getCertificate, .challenge, .getMeasurements,
      .keyExchange, .finish, .tdispRequest, .firmwareVerify, .throttleStep, .thermalPowerOff, .readClear, .tlbinvDone, .queueDisabled,
      .creditReturn, .portLinkDown, .portLinkRetrain, .portFrame, .l1TlbMiss] →
    ∃ t, exec i s = .next t ∧ t.tiles = s.tiles ∧ t.mem = s.mem

end
end

