-- ==== Sys2Proof/Laws/PerInstr.lean ====
section
/-! SUPPORT. Statements made of every instruction as syntax, one lemma for each constructor of the set.  Encoding: the length that the decoder
reads in the first halfword of an encoding is the length of the instruction (R340, R341). -/
namespace Sys2Proof.Laws

/-- A 16-bit form is even. -/
theorem length_enc16 (op r s : Nat) : lengthOf (enc16 op r s % 2 ^ 16) = 2 := by
  simp only [lengthOf, enc16, beq_iff_eq]; rw [if_pos (by omega)]
/-- A 32-bit form of S3 is 1 modulo 4. -/
theorem length_encS3 (m f b a d : Nat) : lengthOf (encS3 m f b a d % 2 ^ 16) = 4 := by
  simp only [lengthOf, encS3, beq_iff_eq]; rw [if_neg (by omega), if_pos (by omega)]
/-- A 32-bit form of SI is 1 modulo 4. -/
theorem length_encSI (m i a d : Nat) : lengthOf (encSI m i a d % 2 ^ 16) = 4 := by
  simp only [lengthOf, encSI, beq_iff_eq]; rw [if_neg (by omega), if_pos (by omega)]
/-- A 32-bit branch is 1 modulo 4. -/
theorem length_encB (m c u a : Nat) (o : BitVec 14) : lengthOf (encB m c u a o % 2 ^ 16) = 4 := by
  simp only [lengthOf, encB, beq_iff_eq]; rw [if_neg (by omega), if_pos (by omega)]
/-- A 64-bit form is 3 modulo 4. -/
theorem length_pack64 (f : F64) : lengthOf (pack64 f % 2 ^ 16) = 8 := by
  simp only [lengthOf, pack64, beq_iff_eq]; rw [if_neg (by omega), if_neg (by omega)]
/-- A scratch access is a 64-bit form. -/
theorem length_encSM (op d a : Nat) (m : SMem) (ty mod aux : Nat) : lengthOf (encSM op d a m ty mod aux % 2 ^ 16) = 8 := by
  cases m <;> exact length_pack64 _
/-- A shift is a 64-bit form. -/
theorem length_encSh (op d a : Nat) (k : MaskOp) (n : ShAmt) : lengthOf (encSh op d a k n % 2 ^ 16) = 8 := by
  cases n <;> exact length_pack64 _
/-- VSHUF is a 64-bit form. -/
theorem length_encShuf (d a : Nat) (k : MaskOp) (n : ShufMode) : lengthOf (encShuf d a k n % 2 ^ 16) = 8 := by
  cases n <;> exact length_pack64 _
/-- VLANE is a 64-bit form. -/
theorem length_encLane (n : LaneForm) : lengthOf (encLane n % 2 ^ 16) = 8 := by
  cases n <;> exact length_pack64 _
/-- A mask operation is a 64-bit form. -/
theorem length_encMS (op d a : Nat) (n : MaskSrc) : lengthOf (encMS op d a n % 2 ^ 16) = 8 := by
  cases n <;> exact length_pack64 _

namespace Encoding

/-- The length field of an instruction's encoding, where it has one, is the instruction's own length. -/
def Statement (i : Instr) : Prop := i.len ≠ 0 → lengthOf (encodeNat i % 2 ^ 16) = i.len

theorem add16 (r s : Nat) : Statement (.add16 r s) := fun _ => length_enc16 ..
theorem sub16 (r s : Nat) : Statement (.sub16 r s) := fun _ => length_enc16 ..
theorem and16 (r s : Nat) : Statement (.and16 r s) := fun _ => length_enc16 ..
theorem or16 (r s : Nat) : Statement (.or16 r s) := fun _ => length_enc16 ..
theorem xor16 (r s : Nat) : Statement (.xor16 r s) := fun _ => length_enc16 ..
theorem shl16 (r s : Nat) : Statement (.shl16 r s) := fun _ => length_enc16 ..
theorem shr16 (r s : Nat) : Statement (.shr16 r s) := fun _ => length_enc16 ..
theorem sra16 (r s : Nat) : Statement (.sra16 r s) := fun _ => length_enc16 ..
theorem mul16 (r s : Nat) : Statement (.mul16 r s) := fun _ => length_enc16 ..
theorem min16 (r s : Nat) : Statement (.min16 r s) := fun _ => length_enc16 ..
theorem max16 (r s : Nat) : Statement (.max16 r s) := fun _ => length_enc16 ..
theorem slt16 (r s : Nat) : Statement (.slt16 r s) := fun _ => length_enc16 ..
theorem addSz16 (r s : Nat) : Statement (.addSz16 r s) := fun _ => length_enc16 ..
theorem addi16 (r : Nat) (i : BitVec 5) : Statement (.addi16 r i) := fun _ => length_enc16 ..
theorem addiSz16 (r : Nat) (i : BitVec 5) : Statement (.addiSz16 r i) := fun _ => length_enc16 ..
theorem andi16 (r : Nat) (i : BitVec 5) : Statement (.andi16 r i) := fun _ => length_enc16 ..
theorem shli16 (r i : Nat) : Statement (.shli16 r i) := fun _ => length_enc16 ..
theorem shri16 (r i : Nat) : Statement (.shri16 r i) := fun _ => length_enc16 ..
theorem srai16 (r i : Nat) : Statement (.srai16 r i) := fun _ => length_enc16 ..
theorem slti16 (r : Nat) (i : BitVec 5) : Statement (.slti16 r i) := fun _ => length_enc16 ..
theorem kget16 (r k : Nat) : Statement (.kget16 r k) := fun _ => length_enc16 ..
theorem kset16 (r k : Nat) : Statement (.kset16 r k) := fun _ => length_enc16 ..
theorem clz16 (r s : Nat) : Statement (.clz16 r s) := fun _ => length_enc16 ..
theorem popc16 (r s : Nat) : Statement (.popc16 r s) := fun _ => length_enc16 ..
theorem nop16 : Statement .nop16 := fun _ => length_enc16 ..
theorem yield16 : Statement .yield16 := fun _ => length_enc16 ..
theorem exit16 : Statement .exit16 := fun _ => length_enc16 ..
theorem bkpt16 : Statement .bkpt16 := fun _ => length_enc16 ..
theorem uiret16 : Statement .uiret16 := fun _ => length_enc16 ..
theorem ret16 : Statement .ret16 := fun _ => length_enc16 ..
theorem add (d a b : Nat) : Statement (.add d a b) := fun _ => length_encS3 ..
theorem sub (d a b : Nat) : Statement (.sub d a b) := fun _ => length_encS3 ..
theorem and (d a b : Nat) : Statement (.and d a b) := fun _ => length_encS3 ..
theorem or (d a b : Nat) : Statement (.or d a b) := fun _ => length_encS3 ..
theorem xor (d a b : Nat) : Statement (.xor d a b) := fun _ => length_encS3 ..
theorem shl (d a b : Nat) : Statement (.shl d a b) := fun _ => length_encS3 ..
theorem shr (d a b : Nat) : Statement (.shr d a b) := fun _ => length_encS3 ..
theorem sra (d a b : Nat) : Statement (.sra d a b) := fun _ => length_encS3 ..
theorem mul (d a b : Nat) : Statement (.mul d a b) := fun _ => length_encS3 ..
theorem mulh (d a b : Nat) : Statement (.mulh d a b) := fun _ => length_encS3 ..
theorem mulhn (d a b : Nat) : Statement (.mulhn d a b) := fun _ => length_encS3 ..
theorem div (d a b : Nat) : Statement (.div d a b) := fun _ => length_encS3 ..
theorem divn (d a b : Nat) : Statement (.divn d a b) := fun _ => length_encS3 ..
theorem rem (d a b : Nat) : Statement (.rem d a b) := fun _ => length_encS3 ..
theorem remn (d a b : Nat) : Statement (.remn d a b) := fun _ => length_encS3 ..
theorem min (d a b : Nat) : Statement (.min d a b) := fun _ => length_encS3 ..
theorem max (d a b : Nat) : Statement (.max d a b) := fun _ => length_encS3 ..
theorem minn (d a b : Nat) : Statement (.minn d a b) := fun _ => length_encS3 ..
theorem maxn (d a b : Nat) : Statement (.maxn d a b) := fun _ => length_encS3 ..
theorem slt (d a b : Nat) : Statement (.slt d a b) := fun _ => length_encS3 ..
theorem sltn (d a b : Nat) : Statement (.sltn d a b) := fun _ => length_encS3 ..
theorem clz (d a : Nat) : Statement (.clz d a) := fun _ => length_encS3 ..
theorem popc (d a : Nat) : Statement (.popc d a) := fun _ => length_encS3 ..
theorem brev (d a : Nat) : Statement (.brev d a) := fun _ => length_encS3 ..
theorem add64 (d a b : Nat) : Statement (.add64 d a b) := fun _ => length_encS3 ..
theorem sub64 (d a b : Nat) : Statement (.sub64 d a b) := fun _ => length_encS3 ..
theorem shl64 (d a b : Nat) : Statement (.shl64 d a b) := fun _ => length_encS3 ..
theorem lea (d a b scale : Nat) : Statement (.lea d a b scale) := fun _ => length_encS3 ..
theorem sel (d c a b : Nat) : Statement (.sel d c a b) := fun _ => length_encS3 ..
theorem mad64 (d a b c : Nat) : Statement (.mad64 d a b c) := fun _ => length_encS3 ..
theorem bfx (d a pos width : Nat) : Statement (.bfx d a pos width) := fun _ => length_encS3 ..
theorem bfi (d a pos width : Nat) : Statement (.bfi d a pos width) := fun _ => length_encS3 ..
theorem cmp (c : CmpCond) (d a b : Nat) : Statement (.cmp c d a b) := fun _ => length_encS3 ..
theorem pand (d a b : Nat) : Statement (.pand d a b) := fun _ => length_encS3 ..
theorem por (d a b : Nat) : Statement (.por d a b) := fun _ => length_encS3 ..
theorem pnot (d a : Nat) : Statement (.pnot d a) := fun _ => length_encS3 ..
theorem addi (d a : Nat) (i : BitVec 12) : Statement (.addi d a i) := fun _ => length_encSI ..
theorem andi (d a : Nat) (i : BitVec 12) : Statement (.andi d a i) := fun _ => length_encSI ..
theorem ori (d a : Nat) (i : BitVec 12) : Statement (.ori d a i) := fun _ => length_encSI ..
theorem xori (d a : Nat) (i : BitVec 12) : Statement (.xori d a i) := fun _ => length_encSI ..
theorem slti (d a : Nat) (i : BitVec 12) : Statement (.slti d a i) := fun _ => length_encSI ..
theorem shli (d a n : Nat) : Statement (.shli d a n) := fun _ => length_encSI ..
theorem shri (d a n : Nat) : Statement (.shri d a n) := fun _ => length_encSI ..
theorem srai (d a n : Nat) : Statement (.srai d a n) := fun _ => length_encSI ..
theorem addi64 (d a : Nat) (i : BitVec 12) : Statement (.addi64 d a i) := fun _ => length_encSI ..
theorem lui (d : Nat) (i : BitVec 18) : Statement (.lui d i) := by
  intro _; simp only [encodeNat, lengthOf, beq_iff_eq]; rw [if_neg (by omega), if_pos (by omega)]; rfl
theorem br (c : BrCond) (a : Nat) (off : BitVec 14) : Statement (.br c a off) := fun _ => length_encB ..
theorem brp (f : Bool) (a : Nat) (off : BitVec 14) : Statement (.brp f a off) := fun _ => length_encB ..
theorem brm (c : BrmCond) (a : Nat) (off : BitVec 14) : Statement (.brm c a off) := fun _ => length_encB ..
theorem vbr (f u : Bool) (a : Nat) (off : BitVec 14) : Statement (.vbr f u a off) := fun _ => length_encB ..
theorem jmp (off : BitVec 24) : Statement (.jmp off) := by
  intro _; simp only [encodeNat, lengthOf, beq_iff_eq]; rw [if_neg (by omega), if_pos (by omega)]; rfl
theorem call (off : BitVec 24) : Statement (.call off) := by
  intro _; simp only [encodeNat, lengthOf, beq_iff_eq]; rw [if_neg (by omega), if_pos (by omega)]; rfl
theorem kget (d k : Nat) : Statement (.kget d k) := fun _ => length_encSI ..
theorem kset (k a : Nat) : Statement (.kset k a) := fun _ => length_encSI ..
theorem ctlr (d n : Nat) : Statement (.ctlr d n) := fun _ => length_encSI ..
theorem ctlw (n a : Nat) : Statement (.ctlw n a) := fun _ => length_encSI ..
theorem ctls (n a : Nat) : Statement (.ctls n a) := fun _ => length_encSI ..
theorem ctlc (n a : Nat) : Statement (.ctlc n a) := fun _ => length_encSI ..
theorem trap (code : Nat) : Statement (.trap code) := fun _ => length_encSI ..
theorem svc (fn : Nat) : Statement (.svc fn) := fun _ => length_encSI ..
theorem qgive (d j : Nat) : Statement (.qgive d j) := fun _ => length_encSI ..
theorem qtake (d j : Nat) : Statement (.qtake d j) := fun _ => length_encSI ..
theorem gjoin (d n : Nat) : Statement (.gjoin d n) := fun _ => length_encSI ..
theorem gleave (d : Nat) : Statement (.gleave d) := fun _ => length_encSI ..
theorem nop : Statement .nop := fun _ => length_encSI ..
theorem yield : Statement .yield := fun _ => length_encSI ..
theorem exit : Statement .exit := fun _ => length_encSI ..
theorem bkpt : Statement .bkpt := fun _ => length_encSI ..
theorem uiret : Statement .uiret := fun _ => length_encSI ..
theorem ret : Statement .ret := fun _ => length_encSI ..
theorem jr (a : Nat) : Statement (.jr a) := fun _ => length_encSI ..
theorem vreconv : Statement .vreconv := fun _ => length_encSI ..
theorem resume : Statement .resume := fun _ => length_encSI ..
theorem li (d : Nat) (i : Word) : Statement (.li d i) := by
  intro _; simp only [encodeNat, lengthOf, beq_iff_eq]; rw [if_neg (by omega), if_neg (by omega)]; rfl
theorem vadd (t : Ty) (rm : Nat) (k : MaskOp) (d a b : Nat) : Statement (.vadd t rm k d a b) := fun _ => length_pack64 _
theorem vsub (t : Ty) (rm : Nat) (k : MaskOp) (d a b : Nat) : Statement (.vsub t rm k d a b) := fun _ => length_pack64 _
theorem vmul (t : Ty) (rm : Nat) (k : MaskOp) (d a b : Nat) : Statement (.vmul t rm k d a b) := fun _ => length_pack64 _
theorem vmin (t : Ty) (k : MaskOp) (d a b : Nat) : Statement (.vmin t k d a b) := fun _ => length_pack64 _
theorem vfma (t : Ty) (rm : Nat) (k : MaskOp) (d a b c : Nat) : Statement (.vfma t rm k d a b c) := fun _ => length_pack64 _
theorem vmax (t : Ty) (k : MaskOp) (d a b : Nat) : Statement (.vmax t k d a b) := fun _ => length_pack64 _
theorem vabs (t : Ty) (k : MaskOp) (d a : Nat) : Statement (.vabs t k d a) := fun _ => length_pack64 _
theorem vneg (t : Ty) (k : MaskOp) (d a : Nat) : Statement (.vneg t k d a) := fun _ => length_pack64 _
theorem vrcp (rm : Nat) (k : MaskOp) (d a : Nat) : Statement (.vrcp rm k d a) := fun _ => length_pack64 _
theorem vrsq (rm : Nat) (k : MaskOp) (d a : Nat) : Statement (.vrsq rm k d a) := fun _ => length_pack64 _
theorem vsqrt (rm : Nat) (k : MaskOp) (d a : Nat) : Statement (.vsqrt rm k d a) := fun _ => length_pack64 _
theorem vexp2 (rm : Nat) (k : MaskOp) (d a : Nat) : Statement (.vexp2 rm k d a) := fun _ => length_pack64 _
theorem vlog2 (rm : Nat) (k : MaskOp) (d a : Nat) : Statement (.vlog2 rm k d a) := fun _ => length_pack64 _
theorem viadd (sat : Bool) (t : Ty) (k : MaskOp) (d a b : Nat) : Statement (.viadd sat t k d a b) := fun _ => length_pack64 _
theorem visub (sat : Bool) (t : Ty) (k : MaskOp) (d a b : Nat) : Statement (.visub sat t k d a b) := fun _ => length_pack64 _
theorem vimul (hi : Bool) (t : Ty) (k : MaskOp) (d a b : Nat) : Statement (.vimul hi t k d a b) := fun _ => length_pack64 _
theorem vimad (t : Ty) (k : MaskOp) (d a b c : Nat) : Statement (.vimad t k d a b c) := fun _ => length_pack64 _
theorem vimin (t : Ty) (k : MaskOp) (d a b : Nat) : Statement (.vimin t k d a b) := fun _ => length_pack64 _
theorem vimax (t : Ty) (k : MaskOp) (d a b : Nat) : Statement (.vimax t k d a b) := fun _ => length_pack64 _
theorem vand (k : MaskOp) (d a b : Nat) : Statement (.vand k d a b) := fun _ => length_pack64 _
theorem vor (k : MaskOp) (d a b : Nat) : Statement (.vor k d a b) := fun _ => length_pack64 _
theorem vxor (k : MaskOp) (d a b : Nat) : Statement (.vxor k d a b) := fun _ => length_pack64 _
theorem vnot (k : MaskOp) (d a : Nat) : Statement (.vnot k d a) := fun _ => length_pack64 _
theorem vshl (k : MaskOp) (d a : Nat) (n : ShAmt) : Statement (.vshl k d a n) := fun _ => length_encSh ..
theorem vshr (k : MaskOp) (d a : Nat) (n : ShAmt) : Statement (.vshr k d a n) := fun _ => length_encSh ..
theorem vsra (k : MaskOp) (d a : Nat) (n : ShAmt) : Statement (.vsra k d a n) := fun _ => length_encSh ..
theorem vcmp (c : VcmpCond) (t : Ty) (k : MaskOp) (d a b : Nat) : Statement (.vcmp c t k d a b) := fun _ => length_pack64 _
theorem vfcmp (c : VfcmpCond) (k : MaskOp) (d a b : Nat) : Statement (.vfcmp c k d a b) := fun _ => length_pack64 _
theorem vsel (k : MaskOp) (d a b c : Nat) : Statement (.vsel k d a b c) := fun _ => length_pack64 _
theorem vmov (k : MaskOp) (d a : Nat) : Statement (.vmov k d a) := fun _ => length_pack64 _
theorem vbcast (k : MaskOp) (d a : Nat) : Statement (.vbcast k d a) := fun _ => length_pack64 _
theorem vred (op : AtomOp) (t : Ty) (k : MaskOp) (d a : Nat) : Statement (.vred op t k d a) := fun _ => length_pack64 _
theorem vshuf (m : ShufMode) (k : MaskOp) (d a : Nat) : Statement (.vshuf m k d a) := fun _ => length_encShuf ..
theorem vscan (op : AtomOp) (excl : Bool) (t : Ty) (k : MaskOp) (d a : Nat) : Statement (.vscan op excl t k d a) := fun _ => length_pack64 _
theorem vballot (k : MaskOp) (d a : Nat) : Statement (.vballot k d a) := fun _ => length_pack64 _
theorem vlane (f : LaneForm) : Statement (.vlane f) := fun _ => length_encLane ..
theorem vcvt (dt st : Ty) (rm : Nat) (k : MaskOp) (d a : Nat) : Statement (.vcvt dt st rm k d a) := fun _ => length_pack64 _
theorem vpack (dt st : Ty) (rm : Nat) (k : MaskOp) (d a : Nat) : Statement (.vpack dt st rm k d a) := fun _ => length_pack64 _
theorem vunpack (dt st : Ty) (k : MaskOp) (d a : Nat) : Statement (.vunpack dt st k d a) := fun _ => length_pack64 _
theorem vdot (t : Ty) (blk : Nat) (se5m2 : Bool) (ts : Option Nat) (k : MaskOp) (d a b c : Nat) : Statement (.vdot t blk se5m2 ts k d a b c) := fun _ => length_pack64 _
theorem vunif (d a : Nat) : Statement (.vunif d a) := fun _ => length_pack64 _
theorem vmorton (two : Bool) (t : Ty) (k : MaskOp) (d a b c : Nat) : Statement (.vmorton two t k d a b c) := fun _ => length_pack64 _
theorem vhash (n : Nat) (k : MaskOp) (d a b : Nat) : Statement (.vhash n k d a b) := fun _ => length_pack64 _
theorem mand (d a : Nat) (b : MaskSrc) : Statement (.mand d a b) := fun _ => length_encMS ..
theorem mor (d a : Nat) (b : MaskSrc) : Statement (.mor d a b) := fun _ => length_encMS ..
theorem mxor (d a : Nat) (b : MaskSrc) : Statement (.mxor d a b) := fun _ => length_encMS ..
theorem mnot (d a : Nat) : Statement (.mnot d a) := fun _ => length_pack64 _
theorem mpop (d a : Nat) : Statement (.mpop d a) := fun _ => length_pack64 _
theorem mfirst (d a : Nat) : Statement (.mfirst d a) := fun _ => length_pack64 _
theorem ld (t : Ty) (w64 : Bool) (o : MemOrd) (d a : Nat) (off : BitVec 16) : Statement (.ld t w64 o d a off) := fun _ => length_pack64 _
theorem st (t : Ty) (w64 : Bool) (o : MemOrd) (d a : Nat) (off : BitVec 16) : Statement (.st t w64 o d a off) := fun _ => length_pack64 _
theorem vld (t : Ty) (w64 : Bool) (o : MemOrd) (k : MaskOp) (d a : Nat) (off : BitVec 16) : Statement (.vld t w64 o k d a off) := fun _ => length_pack64 _
theorem vst (t : Ty) (w64 : Bool) (o : MemOrd) (k : MaskOp) (d a : Nat) (off : BitVec 16) : Statement (.vst t w64 o k d a off) := fun _ => length_pack64 _
theorem vgather (nf : Bool) (t : Ty) (w64 : Bool) (scale : Nat) (o : MemOrd) (k : MaskOp) (d a b : Nat) : Statement (.vgather nf t w64 scale o k d a b) := fun _ => length_pack64 _
theorem vscatter (t : Ty) (w64 : Bool) (scale : Nat) (o : MemOrd) (k : MaskOp) (d a b : Nat) : Statement (.vscatter t w64 scale o k d a b) := fun _ => length_pack64 _
theorem sld (t : Ty) (w64 : Bool) (o : MemOrd) (m : SMem) (d a : Nat) : Statement (.sld t w64 o m d a) := fun _ => length_encSM ..
theorem sst (t : Ty) (w64 : Bool) (o : MemOrd) (m : SMem) (d a : Nat) : Statement (.sst t w64 o m d a) := fun _ => length_encSM ..
theorem sldM (t : Ty) (w64 : Bool) (m : SMem) (d a : Nat) : Statement (.sldM t w64 m d a) := fun _ => length_encSM ..
theorem sstM (t : Ty) (w64 : Bool) (m : SMem) (d a : Nat) : Statement (.sstM t w64 m d a) := fun _ => length_encSM ..
theorem syncld (take : Bool) (t : Ty) (m : SMem) (d a : Nat) : Statement (.syncld take t m d a) := fun _ => length_encSM ..
theorem syncst (t : Ty) (m : SMem) (d a : Nat) : Statement (.syncst t m d a) := fun _ => length_encSM ..
theorem feset (full : Bool) (m : SMem) (a : Nat) : Statement (.feset full m a) := fun _ => length_encSM ..
theorem atom (op : AtomOp) (nr : Bool) (t : Ty) (w64 : Bool) (o : MemOrd) (d a b c : Nat) : Statement (.atom op nr t w64 o d a b c) := fun _ => length_pack64 _
theorem red (op : AtomOp) (t : Ty) (w64 : Bool) (o : MemOrd) (a b : Nat) : Statement (.red op t w64 o a b) := fun _ => length_pack64 _
theorem vatom (op : AtomOp) (nr : Bool) (t : Ty) (scale : Nat) (o : MemOrd) (k : MaskOp) (d a b c : Nat) : Statement (.vatom op nr t scale o k d a b c) := fun _ => length_pack64 _
theorem vredm (op : AtomOp) (t : Ty) (scale : Nat) (o : MemOrd) (k : MaskOp) (a b c : Nat) : Statement (.vredm op t scale o k a b c) := fun _ => length_pack64 _
theorem fence (kind scope : Nat) : Statement (.fence kind scope) := fun _ => length_pack64 _
theorem bar (n a : Nat) : Statement (.bar n a) := fun _ => length_pack64 _
theorem bara (n a : Nat) : Statement (.bara n a) := fun _ => length_pack64 _
theorem barw (n : Nat) : Statement (.barw n) := fun _ => length_pack64 _
theorem mbar : Statement .mbar := fun _ => length_pack64 _
theorem evsig (e a : Nat) : Statement (.evsig e a) := fun _ => length_pack64 _
theorem evmsg (e a b : Nat) : Statement (.evmsg e a b) := fun _ => length_pack64 _
theorem waitc (c : Ctr) (a : Nat) : Statement (.waitc c a) := fun _ => length_pack64 _
theorem mbw (n a : Nat) : Statement (.mbw n a) := fun _ => length_pack64 _
theorem mbstat (d : Nat) : Statement (.mbstat d) := fun _ => length_pack64 _
theorem qpush (d a b : Nat) : Statement (.qpush d a b) := fun _ => length_pack64 _
theorem qpop (d a b : Nat) : Statement (.qpop d a b) := fun _ => length_pack64 _
theorem qstat (d b : Nat) : Statement (.qstat d b) := fun _ => length_pack64 _
theorem cinv (a : Nat) (off : BitVec 16) : Statement (.cinv a off) := fun _ => length_pack64 _
theorem cflush (a : Nat) (off : BitVec 16) : Statement (.cflush a off) := fun _ => length_pack64 _
theorem pref (a : Nat) (off : BitVec 16) : Statement (.pref a off) := fun _ => length_pack64 _
theorem macq (d : Nat) : Statement (.macq d) := fun _ => length_pack64 _
theorem mrel (d : Nat) : Statement (.mrel d) := fun _ => length_pack64 _
theorem accalloc (d n : Nat) : Statement (.accalloc d n) := fun _ => length_pack64 _
theorem accfree (a : Nat) : Statement (.accfree a) := fun _ => length_pack64 _
theorem acczero (d : Nat) : Statement (.acczero d) := fun _ => length_pack64 _
theorem tmld (d a : Nat) (off : BitVec 16) : Statement (.tmld d a off) := fun _ => length_pack64 _
theorem stset (d a b c : Nat) : Statement (.stset d a b c) := fun _ => length_pack64 _
theorem stadv (d a : Nat) : Statement (.stadv d a) := fun _ => length_pack64 _
theorem rep (a len : Nat) : Statement (.rep a len) := fun _ => length_pack64 _
theorem mlds (blk : Nat) (se5m2 bm : Bool) (d a b c : Nat) : Statement (.mlds blk se5m2 bm d a b c) := fun _ => length_pack64 _
theorem mflip : Statement .mflip := fun _ => length_pack64 _
theorem mstream (t : Ty) (d a row0 c n : Nat) : Statement (.mstream t d a row0 c n) := fun _ => length_pack64 _
theorem mstreamSp (t : Ty) (d a row0 c n : Nat) : Statement (.mstreamSp t d a row0 c n) := fun _ => length_pack64 _
theorem mdrain (ts z : Bool) (d a b c : Nat) : Statement (.mdrain ts z d a b c) := fun _ => length_pack64 _
theorem mdrainAdd (ts z : Bool) (d a b c : Nat) : Statement (.mdrainAdd ts z d a b c) := fun _ => length_pack64 _
theorem mstep (d : Nat) : Statement (.mstep d) := fun _ => length_pack64 _
theorem send (seg : Bool) (cls : Nat) (d a b c : Nat) : Statement (.send seg cls d a b c) := fun _ => length_pack64 _
theorem migrate (seg : Bool) (b : Nat) : Statement (.migrate seg b) := fun _ => length_pack64 _
theorem seglook (d a b : Nat) : Statement (.seglook d a b) := fun _ => length_pack64 _
theorem hitpush (a : Nat) : Statement (.hitpush a) := fun _ => length_pack64 _
theorem hitpop (d a : Nat) : Statement (.hitpop d a) := fun _ => length_pack64 _
theorem boxt (d a b c : Nat) : Statement (.boxt d a b c) := fun _ => length_pack64 _
theorem trit (two : Bool) (d a b : Nat) : Statement (.trit two d a b) := fun _ => length_pack64 _
theorem svreq (q a : Nat) : Statement (.svreq q a) := fun _ => length_pack64 _
theorem svpop (q d : Nat) : Statement (.svpop q d) := fun _ => length_pack64 _
theorem launch (d a b : Nat) : Statement (.launch d a b) := fun _ => length_pack64 _
theorem mstone : Statement .mstone := fun _ => length_pack64 _
theorem tabort (a : Nat) : Statement (.tabort a) := fun _ => length_pack64 _
theorem tstat (d : Nat) : Statement (.tstat d) := fun _ => length_pack64 _
theorem prept (a l8 : Nat) : Statement (.prept a l8) := fun _ => length_pack64 _
theorem packageColdReset : Statement .packageColdReset := fun h => absurd rfl h
theorem functionLevelReset : Statement .functionLevelReset := fun h => absurd rfl h
theorem diePerst : Statement .diePerst := fun h => absurd rfl h
theorem firmwareVerify : Statement .firmwareVerify := fun h => absurd rfl h
theorem recoveryImage : Statement .recoveryImage := fun h => absurd rfl h
theorem bringupPass : Statement .bringupPass := fun h => absurd rfl h
theorem secondPass : Statement .secondPass := fun h => absurd rfl h
theorem dieResetEnd : Statement .dieResetEnd := fun h => absurd rfl h
theorem tileQuarantine : Statement .tileQuarantine := fun h => absurd rfl h
theorem predictiveQuarantine : Statement .predictiveQuarantine := fun h => absurd rfl h
theorem throttleStep : Statement .throttleStep := fun h => absurd rfl h
theorem thermalStop : Statement .thermalStop := fun h => absurd rfl h
theorem thermalPowerOff : Statement .thermalPowerOff := fun h => absurd rfl h
theorem thermalResume : Statement .thermalResume := fun h => absurd rfl h
theorem supervisorTimeout : Statement .supervisorTimeout := fun h => absurd rfl h
theorem getVersion : Statement .getVersion := fun h => absurd rfl h
theorem getCapabilities : Statement .getCapabilities := fun h => absurd rfl h
theorem negotiateAlgorithms : Statement .negotiateAlgorithms := fun h => absurd rfl h
theorem getDigests : Statement .getDigests := fun h => absurd rfl h
theorem getCertificate : Statement .getCertificate := fun h => absurd rfl h
theorem challenge : Statement .challenge := fun h => absurd rfl h
theorem getMeasurements : Statement .getMeasurements := fun h => absurd rfl h
theorem keyExchange : Statement .keyExchange := fun h => absurd rfl h
theorem finish : Statement .finish := fun h => absurd rfl h
theorem unsupportedRequest : Statement .unsupportedRequest := fun h => absurd rfl h
theorem tdispErrorEvent : Statement .tdispErrorEvent := fun h => absurd rfl h
theorem tdispRequest : Statement .tdispRequest := fun h => absurd rfl h
theorem registerWrite : Statement .registerWrite := fun h => absurd rfl h
theorem readClear : Statement .readClear := fun h => absurd rfl h
theorem writeOneClear : Statement .writeOneClear := fun h => absurd rfl h
theorem zonecfgWrite : Statement .zonecfgWrite := fun h => absurd rfl h
theorem powercapWrite : Statement .powercapWrite := fun h => absurd rfl h
theorem laybyEntryWrite : Statement .laybyEntryWrite := fun h => absurd rfl h
theorem load : Statement .load := fun h => absurd rfl h
theorem disable : Statement .disable := fun h => absurd rfl h
theorem abort : Statement .abort := fun h => absurd rfl h
theorem queueDisabled : Statement .queueDisabled := fun h => absurd rfl h
theorem retry : Statement .retry := fun h => absurd rfl h
theorem fail : Statement .fail := fun h => absurd rfl h
theorem tlbinv : Statement .tlbinv := fun h => absurd rfl h
theorem tlbinvDone : Statement .tlbinvDone := fun h => absurd rfl h
theorem clearBootstep : Statement .clearBootstep := fun h => absurd rfl h
theorem doorbellWrite : Statement .doorbellWrite := fun h => absurd rfl h
theorem fqreadWrite : Statement .fqreadWrite := fun h => absurd rfl h
theorem queueEntryWriteback : Statement .queueEntryWriteback := fun h => absurd rfl h
theorem bar2Write : Statement .bar2Write := fun h => absurd rfl h
theorem bar2Read : Statement .bar2Read := fun h => absurd rfl h
theorem flitForward : Statement .flitForward := fun h => absurd rfl h
theorem creditReturn : Statement .creditReturn := fun h => absurd rfl h
theorem flitDamaged : Statement .flitDamaged := fun h => absurd rfl h
theorem unattributedDrop : Statement .unattributedDrop := fun h => absurd rfl h
theorem forwardDiscard : Statement .forwardDiscard := fun h => absurd rfl h
theorem bridgeModuleFail : Statement .bridgeModuleFail := fun h => absurd rfl h
theorem portFrame : Statement .portFrame := fun h => absurd rfl h
theorem portLinkDown : Statement .portLinkDown := fun h => absurd rfl h
theorem portLinkRetrain : Statement .portLinkRetrain := fun h => absurd rfl h
theorem responseTimeout : Statement .responseTimeout := fun h => absurd rfl h
theorem threadPacketArrival : Statement .threadPacketArrival := fun h => absurd rfl h
theorem inboxRefill : Statement .inboxRefill := fun h => absurd rfl h
theorem slotClaim : Statement .slotClaim := fun h => absurd rfl h
theorem extentClaim : Statement .extentClaim := fun h => absurd rfl h
theorem extentReturn : Statement .extentReturn := fun h => absurd rfl h
theorem classTableRead : Statement .classTableRead := fun h => absurd rfl h
theorem transientRequest : Statement .transientRequest := fun h => absurd rfl h
theorem forwardedRequest : Statement .forwardedRequest := fun h => absurd rfl h
theorem tokenArrival : Statement .tokenArrival := fun h => absurd rfl h
theorem transientRetry : Statement .transientRetry := fun h => absurd rfl h
theorem persistentEscalate : Statement .persistentEscalate := fun h => absurd rfl h
theorem persistentRequest : Statement .persistentRequest := fun h => absurd rfl h
theorem activation : Statement .activation := fun h => absurd rfl h
theorem deactivation : Statement .deactivation := fun h => absurd rfl h
theorem activationTimeout : Statement .activationTimeout := fun h => absurd rfl h
theorem recreation : Statement .recreation := fun h => absurd rfl h
theorem evacuationTimeout : Statement .evacuationTimeout := fun h => absurd rfl h
theorem sliceEviction : Statement .sliceEviction := fun h => absurd rfl h
theorem tokenReturn : Statement .tokenReturn := fun h => absurd rfl h
theorem l1Recall : Statement .l1Recall := fun h => absurd rfl h
theorem l1Invalidate : Statement .l1Invalidate := fun h => absurd rfl h
theorem l1ShareRequest : Statement .l1ShareRequest := fun h => absurd rfl h
theorem l1Eviction : Statement .l1Eviction := fun h => absurd rfl h
theorem sliceRequest : Statement .sliceRequest := fun h => absurd rfl h
theorem memoryRead : Statement .memoryRead := fun h => absurd rfl h
theorem memoryWrite : Statement .memoryWrite := fun h => absurd rfl h
theorem farAtomic : Statement .farAtomic := fun h => absurd rfl h
theorem reductionMessage : Statement .reductionMessage := fun h => absurd rfl h
theorem l1TlbMiss : Statement .l1TlbMiss := fun h => absurd rfl h
theorem l2TlbLookup : Statement .l2TlbLookup := fun h => absurd rfl h
theorem pageWalk : Statement .pageWalk := fun h => absurd rfl h
theorem delegatedFault : Statement .delegatedFault := fun h => absurd rfl h
theorem serviceRequest : Statement .serviceRequest := fun h => absurd rfl h
theorem decode : Statement .decode := fun h => absurd rfl h
theorem emitPicture : Statement .emitPicture := fun h => absurd rfl h
theorem clearContext : Statement .clearContext := fun h => absurd rfl h
theorem resize : Statement .resize := fun h => absurd rfl h
theorem textureSample : Statement .textureSample := fun h => absurd rfl h
theorem rasterise : Statement .rasterise := fun h => absurd rfl h
theorem rasterOverflow : Statement .rasterOverflow := fun h => absurd rfl h
theorem serviceReply : Statement .serviceReply := fun h => absurd rfl h
theorem serviceTimeout : Statement .serviceTimeout := fun h => absurd rfl h
theorem admissionDecision : Statement .admissionDecision := fun h => absurd rfl h
theorem launchMessage : Statement .launchMessage := fun h => absurd rfl h
theorem tileClaim : Statement .tileClaim := fun h => absurd rfl h
theorem launchStart : Statement .launchStart := fun h => absurd rfl h
theorem placementHold : Statement .placementHold := fun h => absurd rfl h
theorem tier1WindowClose : Statement .tier1WindowClose := fun h => absurd rfl h
theorem preemptgrace : Statement .preemptgrace := fun h => absurd rfl h
theorem switchOut : Statement .switchOut := fun h => absurd rfl h
theorem restore : Statement .restore := fun h => absurd rfl h
theorem compactorMove : Statement .compactorMove := fun h => absurd rfl h
theorem waveUrgent : Statement .waveUrgent := fun h => absurd rfl h
theorem commitRequest : Statement .commitRequest := fun h => absurd rfl h
theorem commitGrant : Statement .commitGrant := fun h => absurd rfl h
theorem commitEnd : Statement .commitEnd := fun h => absurd rfl h
theorem sweep : Statement .sweep := fun h => absurd rfl h
theorem shadowMove : Statement .shadowMove := fun h => absurd rfl h
theorem readNote : Statement .readNote := fun h => absurd rfl h
theorem segdef : Statement .segdef := fun h => absurd rfl h
theorem segdrop : Statement .segdrop := fun h => absurd rfl h
theorem scrset : Statement .scrset := fun h => absurd rfl h
theorem nofunc : Statement .nofunc := fun h => absurd rfl h
theorem scrsetApply : Statement .scrsetApply := fun h => absurd rfl h
theorem routeCacheMiss : Statement .routeCacheMiss := fun h => absurd rfl h
theorem segmentForward : Statement .segmentForward := fun h => absurd rfl h
theorem pageIn : Statement .pageIn := fun h => absurd rfl h
theorem pageInDone : Statement .pageInDone := fun h => absurd rfl h
theorem pageInRetry : Statement .pageInRetry := fun h => absurd rfl h
theorem pressureSample : Statement .pressureSample := fun h => absurd rfl h
theorem pressureInterval : Statement .pressureInterval := fun h => absurd rfl h
theorem replicaDone : Statement .replicaDone := fun h => absurd rfl h
theorem segmentEvict : Statement .segmentEvict := fun h => absurd rfl h
theorem ownerBroadcast : Statement .ownerBroadcast := fun h => absurd rfl h
theorem dropComplete : Statement .dropComplete := fun h => absurd rfl h
theorem creditRequest : Statement .creditRequest := fun h => absurd rfl h
theorem creditReturnMessage : Statement .creditReturnMessage := fun h => absurd rfl h
theorem liveMigration : Statement .liveMigration := fun h => absurd rfl h
theorem signpostForward : Statement .signpostForward := fun h => absurd rfl h
theorem signpostRetire : Statement .signpostRetire := fun h => absurd rfl h
theorem hitReservation : Statement .hitReservation := fun h => absurd rfl h
theorem hitRecordArrival : Statement .hitRecordArrival := fun h => absurd rfl h
theorem remoteScratchRequest : Statement .remoteScratchRequest := fun h => absurd rfl h
theorem remoteScratchReply : Statement .remoteScratchReply := fun h => absurd rfl h
theorem parkPass : Statement .parkPass := fun h => absurd rfl h
theorem parkRetryResend : Statement .parkRetryResend := fun h => absurd rfl h
theorem syncTimeout : Statement .syncTimeout := fun h => absurd rfl h
theorem localBlockZero : Statement .localBlockZero := fun h => absurd rfl h
theorem copyAdvance : Statement .copyAdvance := fun h => absurd rfl h
theorem copyDone : Statement .copyDone := fun h => absurd rfl h
theorem copySuspend : Statement .copySuspend := fun h => absurd rfl h
theorem copyReplay : Statement .copyReplay := fun h => absurd rfl h
theorem userInterrupt : Statement .userInterrupt := fun h => absurd rfl h
theorem barrierPhaseComplete : Statement .barrierPhaseComplete := fun h => absurd rfl h
theorem meshBarrierRelease : Statement .meshBarrierRelease := fun h => absurd rfl h
theorem meshbarTimeout : Statement .meshbarTimeout := fun h => absurd rfl h
theorem eventMessage : Statement .eventMessage := fun h => absurd rfl h
theorem mutexGrant : Statement .mutexGrant := fun h => absurd rfl h
theorem accwaitTimeout : Statement .accwaitTimeout := fun h => absurd rfl h
theorem arrayGrant : Statement .arrayGrant := fun h => absurd rfl h
theorem lateFault : Statement .lateFault := fun h => absurd rfl h
theorem trapHandling : Statement .trapHandling := fun h => absurd rfl h
theorem loadReply : Statement .loadReply := fun h => absurd rfl h
theorem storeAck : Statement .storeAck := fun h => absurd rfl h
theorem attachedComplete : Statement .attachedComplete := fun h => absurd rfl h
theorem stageQueueTransfer : Statement .stageQueueTransfer := fun h => absurd rfl h
theorem indexConfirmation : Statement .indexConfirmation := fun h => absurd rfl h

end Encoding
end Sys2Proof.Laws
end

