-- ==== Sys2Proof/Laws/Store.lean ====
section
/-! SUPPORT. Laws of the sparse maps and of the byte memories: reading what was set or written, and the canonical form. -/
namespace Sys2Proof.Machine

/-! ### Maps -/

/-- The key that was set reads back. -/
@[simp] theorem fget?_fset_same {α : Type} (m : FMap α) (n : Nat) (v : α) : fget? (fset m n v) n = some v := by
  induction m with
  | nil => simp [fset, fget?]
  | cons p m ih => obtain ⟨k, w⟩ := p; simp only [fset]; split <;> [simp [fget?]; (split <;> simp_all [fget?])]
/-- Other keys are untouched. -/
theorem fget?_fset_ne {α : Type} (m : FMap α) {n i : Nat} (v : α) (h : i ≠ n) : fget? (fset m n v) i = fget? m i := by
  induction m with
  | nil => simp [fset, fget?, h]
  | cons p m ih =>
    obtain ⟨k, w⟩ := p
    simp only [fset]
    split
    · simp [fget?, h]
    · split
      · simp_all [fget?]
      · simp [fget?, ih]
/-- A key after one key was set. -/
theorem fget?_fset {α : Type} (m : FMap α) (n i : Nat) (v : α) :
    fget? (fset m n v) i = if i = n then some v else fget? m i := by
  split
  · subst_vars; simp
  · exact fget?_fset_ne m v ‹_›
/-- The key that was set reads back, whatever the default. -/
@[simp] theorem fget_fset_same {α : Type} (m : FMap α) (n : Nat) (v d : α) : fget (fset m n v) n d = v := by simp [fget]
/-- Other keys are untouched. -/
theorem fget_fset_ne {α : Type} (m : FMap α) {n i : Nat} (v d : α) (h : i ≠ n) : fget (fset m n v) i d = fget m i d := by
  simp [fget, fget?_fset_ne m v h]
/-- A key after one key was set, with a default. -/
theorem fget_fset {α : Type} (m : FMap α) (n i : Nat) (v d : α) :
    fget (fset m n v) i d = if i = n then v else fget m i d := by
  unfold fget; rw [fget?_fset]; split <;> simp
/-- Of two settings of one key the later stands. -/
@[simp] theorem fset_fset {α : Type} (m : FMap α) (n : Nat) (v w : α) : fset (fset m n v) n w = fset m n w := by
  induction m with
  | nil => simp [fset]
  | cons p m ih =>
    obtain ⟨k, u⟩ := p
    simp only [fset]
    split
    · simp [fset]
    · split
      · simp [fset]
      · simp [fset, *]
/-- A removed key is not listed. -/
@[simp] theorem fget?_fdel_same {α : Type} (m : FMap α) (n : Nat) : fget? (fdel m n) n = none := by
  induction m with
  | nil => rfl
  | cons p m ih =>
    by_cases h : p.1 = n <;> simp_all [fdel, fget?, List.filter_cons]
    exact fun e => absurd e.symm h
/-- Other keys are untouched by a removal. -/
theorem fget?_fdel_ne {α : Type} (m : FMap α) {n i : Nat} (h : i ≠ n) : fget? (fdel m n) i = fget? m i := by
  induction m with
  | nil => rfl
  | cons p m ih =>
    by_cases hp : p.1 = n
    · have : i ≠ p.1 := fun e => h (e.trans hp)
      simp_all [fdel, fget?, List.filter_cons]
    · simp_all [fdel, fget?, List.filter_cons]

/-! ### Memories -/

/-- Every address of a canonical memory's tail lies above its first. -/
theorem Mem.wf_tail {c : Host.Cell} {m : Mem} (h : Mem.wf (c :: m) = true) : Mem.wf m = true := by
  obtain ⟨a, v⟩ := c; simp [Mem.wf] at h; exact h.2
/-- The empty memory is canonical. -/
@[simp] theorem Mem.wf_nil : Mem.wf [] = true := rfl
/-- Below the first entry of a canonical memory nothing is listed. -/
theorem Mem.read_below {m : Mem} {a n : Nat} {v : Byte} (h : Mem.wf ((a, v) :: m) = true) (hn : n < a) :
    Mem.read m n = unlistedByte := by
  induction m generalizing a v with
  | nil => rfl
  | cons c m ih =>
    obtain ⟨b, w⟩ := c
    have hb : a < b := by simp [Mem.wf] at h; exact h.1.2
    simp only [Mem.read]
    rw [if_neg (by omega), if_pos (by omega)]
/-- The written byte reads back. -/
@[simp] theorem Mem.read_write_same (m : Mem) (n : Nat) (v : Byte) (h : Mem.wf m = true) : (Mem.write m n v).read n = v := by
  induction m with
  | nil => simp only [Mem.write]; split <;> simp_all [Mem.read]
  | cons c m ih =>
    obtain ⟨a, w⟩ := c
    simp only [Mem.write]
    split
    · split
      · simp_all [Mem.read, Nat.ne_of_lt]
      · simp [Mem.read]
    · split
      · rename_i h1 h2
        subst h2
        split
        · rename_i hv
          subst hv
          cases m with
          | nil => rfl
          | cons d m =>
            obtain ⟨b, u⟩ := d
            have hb : n < b := by simp [Mem.wf] at h; exact h.1.2
            simp only [Mem.read]
            rw [if_neg (by omega), if_pos hb]
        · simp [Mem.read]
      · rename_i h1 h2
        simp [Mem.read, h1, h2, ih (Mem.wf_tail h)]
/-- Every other byte is untouched. -/
theorem Mem.read_write_ne (m : Mem) {n i : Nat} (v : Byte) (h : Mem.wf m = true) (hi : i ≠ n) :
    (Mem.write m n v).read i = m.read i := by
  induction m with
  | nil =>
    simp only [Mem.write]
    split
    · rfl
    · simp [Mem.read, hi]
  | cons c m ih =>
    obtain ⟨a, w⟩ := c
    simp only [Mem.write]
    split
    · split
      · rfl
      · simp only [Mem.read, hi, if_false]
        split
        · rw [if_neg (by omega), if_pos (by omega)]
        · rfl
    · split
      · rename_i h1 h2
        subst h2
        split
        · simp only [Mem.read, hi, if_false]
          split
          · exact Mem.read_below h ‹_›
          · rfl
        · simp [Mem.read, hi]
      · simp [Mem.read, ih (Mem.wf_tail h)]
/-- Where the first entry of a memory may stand. -/
theorem Mem.wf_cons (a : Nat) (v : Byte) (m : Mem) :
    Mem.wf ((a, v) :: m) = true ↔ v ≠ unlistedByte ∧ (∀ c ∈ m.head?, a < c.1) ∧ Mem.wf m = true := by
  cases m with
  | nil => simp [Mem.wf]
  | cons c m => obtain ⟨b, w⟩ := c; simp [Mem.wf, and_assoc]
/-- The first entry after a write lies at the written address or where it did. -/
theorem Mem.head_write (m : Mem) (n : Nat) (v : Byte) (lo : Nat) (hn : lo < n) (h : ∀ c ∈ m.head?, lo < c.1)
    (hw : Mem.wf m = true) : ∀ c ∈ (Mem.write m n v).head?, lo < c.1 := by
  cases m with
  | nil => simp only [Mem.write]; split <;> simp_all
  | cons c m =>
    obtain ⟨a, w⟩ := c
    have ha : lo < a := h (a, w) rfl
    have ht := ((Mem.wf_cons a w m).1 hw).2.1
    simp only [Mem.write]
    split
    · split <;> simp_all
    · split
      · split
        · intro c hc; exact Nat.lt_trans ha (ht c hc)
        · simp_all
      · simp_all
/-- A write keeps the canonical form. -/
@[simp] theorem Mem.wf_write (m : Mem) (n : Nat) (v : Byte) (h : Mem.wf m = true) : Mem.wf (Mem.write m n v) = true := by
  induction m with
  | nil => simp only [Mem.write]; split <;> simp_all [Mem.wf]
  | cons c m ih =>
    obtain ⟨a, w⟩ := c
    obtain ⟨hw, ht, hm⟩ := (Mem.wf_cons a w m).1 h
    simp only [Mem.write]
    split
    · split
      · exact h
      · exact (Mem.wf_cons ..).2 ⟨‹_›, by simp_all, h⟩
    · split
      · split
        · exact hm
        · rename_i h2 _
          subst h2
          exact (Mem.wf_cons ..).2 ⟨‹_›, ht, hm⟩
      · exact (Mem.wf_cons ..).2 ⟨hw, Mem.head_write m n v a (by omega) ht hm, ih hm⟩
/-- Several bytes written keep the canonical form. -/
@[simp] theorem Mem.wf_writeN (k : Nat) : ∀ (m : Mem) (a v : Nat), Mem.wf m = true → Mem.wf (Mem.writeN m a k v) = true := by
  induction k with
  | zero => intro m a v h; exact h
  | succ k ih => intro m a v h; exact ih _ _ _ (Mem.wf_write _ _ _ h)
/-- Bytes outside those written are untouched. -/
theorem Mem.read_writeN_out (k : Nat) : ∀ (m : Mem) (a v i : Nat), Mem.wf m = true → (i < a ∨ a + k ≤ i) →
    (Mem.writeN m a k v).read i = m.read i := by
  induction k with
  | zero => intro m a v i _ _; rfl
  | succ k ih =>
    intro m a v i h hi
    rw [Mem.writeN, ih _ _ _ _ (Mem.wf_write _ _ _ h) (by omega), Mem.read_write_ne _ _ h (by omega)]
/-- Bytes read after they were written (R4). -/
theorem Mem.readN_writeN (k : Nat) : ∀ (m : Mem) (a v : Nat), Mem.wf m = true →
    Mem.readN (Mem.writeN m a k v) a k = v % 256 ^ k := by
  have lo : ∀ (k : Nat) (m : Mem) (a v i : Nat), Mem.wf m = true → i < a → (Mem.writeN m a k v).read i = m.read i :=
    fun k m a v i h hi => Mem.read_writeN_out k m a v i h (.inl hi)
  induction k with
  | zero => intro m a v _; simp [Mem.readN, Nat.mod_one]
  | succ k ih =>
    intro m a v h
    have hw := Mem.wf_write m a (BitVec.ofNat 8 v) h
    rw [Mem.readN, Mem.writeN, ih _ _ _ hw, lo k _ _ _ _ hw (by omega), Mem.read_write_same _ _ _ h, Nat.pow_succ,
      Nat.mul_comm (256 ^ k) 256, Nat.mod_mul]
    simp
/-- A cleared range keeps the canonical form. -/
theorem Mem.wf_filter (f : Host.Cell → Bool) (m : Mem) (h : Mem.wf m = true) : Mem.wf (m.filter f) = true := by
  have low : ∀ (m : Mem) (lo : Nat), Mem.wf m = true → (∀ c ∈ m.head?, lo < c.1) → ∀ c ∈ (m.filter f).head?, lo < c.1 := by
    intro m
    induction m with
    | nil => intro lo _ _ c hc; simp at hc
    | cons c m ih =>
      obtain ⟨a, w⟩ := c
      intro lo hm hh
      have ha : lo < a := hh (a, w) rfl
      obtain ⟨_, ht, hm'⟩ := (Mem.wf_cons a w m).1 hm
      simp only [List.filter_cons]
      split
      · simp_all
      · exact ih lo hm' fun c hc => Nat.lt_trans ha (ht c hc)
  induction m with
  | nil => rfl
  | cons c m ih =>
    obtain ⟨a, w⟩ := c
    obtain ⟨hw, ht, hm⟩ := (Mem.wf_cons a w m).1 h
    simp only [List.filter_cons]
    split
    · exact (Mem.wf_cons ..).2 ⟨hw, low m a hm ht, ih hm⟩
    · exact ih hm
/-- A cleared range keeps the canonical form. -/
@[simp] theorem Mem.wf_clear (m : Mem) (lo n : Nat) (h : Mem.wf m = true) : Mem.wf (m.clear lo n) = true := Mem.wf_filter _ m h

end Sys2Proof.Machine
end

