-- ==== Sys2Proof/Laws/State.lean ====
section
/-! SUPPORT. What each update of the state does to each of its fields, and what the accessors read after an update. -/
namespace Sys2Proof.Machine

/-! ### setTile -/

@[simp] theorem setTile_now (s : State) (t : Nat) (x : Tile) : (s.setTile t x).now = s.now := rfl
@[simp] theorem setTile_cur (s : State) (t : Nat) (x : Tile) : (s.setTile t x).cur = s.cur := rfl
@[simp] theorem setTile_arg (s : State) (t : Nat) (x : Tile) : (s.setTile t x).arg = s.arg := rfl
@[simp] theorem setTile_power (s : State) (t : Nat) (x : Tile) : (s.setTile t x).power = s.power := rfl
@[simp] theorem setTile_agenda (s : State) (t : Nat) (x : Tile) : (s.setTile t x).agenda = s.agenda := rfl
@[simp] theorem setTile_pending (s : State) (t : Nat) (x : Tile) : (s.setTile t x).pending = s.pending := rfl
@[simp] theorem setTile_timers (s : State) (t : Nat) (x : Tile) : (s.setTile t x).timers = s.timers := rfl
@[simp] theorem setTile_sched (s : State) (t : Nat) (x : Tile) : (s.setTile t x).sched = s.sched := rfl
@[simp] theorem setTile_free (s : State) (t : Nat) (x : Tile) : (s.setTile t x).free = s.free := rfl
@[simp] theorem setTile_nextId (s : State) (t : Nat) (x : Tile) : (s.setTile t x).nextId = s.nextId := rfl
@[simp] theorem setTile_tiles (s : State) (t : Nat) (x : Tile) : (s.setTile t x).tiles = fset s.tiles t x := rfl
@[simp] theorem setTile_dies (s : State) (t : Nat) (x : Tile) : (s.setTile t x).dies = s.dies := rfl
@[simp] theorem setTile_mem (s : State) (t : Nat) (x : Tile) : (s.setTile t x).mem = s.mem := rfl
@[simp] theorem setTile_ops (s : State) (t : Nat) (x : Tile) : (s.setTile t x).ops = s.ops := rfl
@[simp] theorem setTile_msgs (s : State) (t : Nat) (x : Tile) : (s.setTile t x).msgs = s.msgs := rfl
@[simp] theorem setTile_links (s : State) (t : Nat) (x : Tile) : (s.setTile t x).links = s.links := rfl
@[simp] theorem setTile_rr (s : State) (t : Nat) (x : Tile) : (s.setTile t x).rr = s.rr := rfl
@[simp] theorem setTile_ports (s : State) (t : Nat) (x : Tile) : (s.setTile t x).ports = s.ports := rfl
@[simp] theorem setTile_queues (s : State) (t : Nat) (x : Tile) : (s.setTile t x).queues = s.queues := rfl
@[simp] theorem setTile_launches (s : State) (t : Nat) (x : Tile) : (s.setTile t x).launches = s.launches := rfl
@[simp] theorem setTile_requeued (s : State) (t : Nat) (x : Tile) : (s.setTile t x).requeued = s.requeued := rfl
@[simp] theorem setTile_placing (s : State) (t : Nat) (x : Tile) : (s.setTile t x).placing = s.placing := rfl
@[simp] theorem setTile_resets (s : State) (t : Nat) (x : Tile) : (s.setTile t x).resets = s.resets := rfl
@[simp] theorem setTile_lent (s : State) (t : Nat) (x : Tile) : (s.setTile t x).lent = s.lent := rfl
@[simp] theorem setTile_freed (s : State) (t : Nat) (x : Tile) : (s.setTile t x).freed = s.freed := rfl
@[simp] theorem setTile_txn (s : State) (t : Nat) (x : Tile) : (s.setTile t x).txn = s.txn := rfl
@[simp] theorem setTile_arbs (s : State) (t : Nat) (x : Tile) : (s.setTile t x).arbs = s.arbs := rfl
@[simp] theorem setTile_svc (s : State) (t : Nat) (x : Tile) : (s.setTile t x).svc = s.svc := rfl
@[simp] theorem setTile_streams (s : State) (t : Nat) (x : Tile) : (s.setTile t x).streams = s.streams := rfl
@[simp] theorem setTile_stageQs (s : State) (t : Nat) (x : Tile) : (s.setTile t x).stageQs = s.stageQs := rfl
@[simp] theorem setTile_zonecfg (s : State) (t : Nat) (x : Tile) : (s.setTile t x).zonecfg = s.zonecfg := rfl
@[simp] theorem setTile_exch (s : State) (t : Nat) (x : Tile) : (s.setTile t x).exch = s.exch := rfl
@[simp] theorem setTile_flash (s : State) (t : Nat) (x : Tile) : (s.setTile t x).flash = s.flash := rfl
@[simp] theorem setTile_rollback (s : State) (t : Nat) (x : Tile) : (s.setTile t x).rollback = s.rollback := rfl
@[simp] theorem setTile_window (s : State) (t : Nat) (x : Tile) : (s.setTile t x).window = s.window := rfl
@[simp] theorem setTile_recovery (s : State) (t : Nat) (x : Tile) : (s.setTile t x).recovery = s.recovery := rfl
@[simp] theorem setTile_verified (s : State) (t : Nat) (x : Tile) : (s.setTile t x).verified = s.verified := rfl
@[simp] theorem setTile_strap (s : State) (t : Nat) (x : Tile) : (s.setTile t x).strap = s.strap := rfl
@[simp] theorem setTile_listed (s : State) (t : Nat) (x : Tile) : (s.setTile t x).listed = s.listed := rfl
@[simp] theorem setTile_boots (s : State) (t : Nat) (x : Tile) : (s.setTile t x).boots = s.boots := rfl
@[simp] theorem setTile_meas2 (s : State) (t : Nat) (x : Tile) : (s.setTile t x).meas2 = s.meas2 := rfl
@[simp] theorem setTile_portDown (s : State) (t : Nat) (x : Tile) : (s.setTile t x).portDown = s.portDown := rfl
@[simp] theorem setTile_sent (s : State) (t : Nat) (x : Tile) : (s.setTile t x).sent = s.sent := rfl
@[simp] theorem setTile_copies (s : State) (t : Nat) (x : Tile) : (s.setTile t x).copies = s.copies := rfl
@[simp] theorem setTile_holds (s : State) (t : Nat) (x : Tile) : (s.setTile t x).holds = s.holds := rfl
@[simp] theorem setTile_preempts (s : State) (t : Nat) (x : Tile) : (s.setTile t x).preempts = s.preempts := rfl
@[simp] theorem setTile_outlast (s : State) (t : Nat) (x : Tile) : (s.setTile t x).outlast = s.outlast := rfl
@[simp] theorem setTile_irqs (s : State) (t : Nat) (x : Tile) : (s.setTile t x).irqs = s.irqs := rfl
@[simp] theorem setTile_hostEvents (s : State) (t : Nat) (x : Tile) : (s.setTile t x).hostEvents = s.hostEvents := rfl
@[simp] theorem setTile_hostRead (s : State) (t : Nat) (x : Tile) : (s.setTile t x).hostRead = s.hostRead := rfl

/-! ### setDie -/

@[simp] theorem setDie_now (s : State) (d : Nat) (x : Die) : (s.setDie d x).now = s.now := rfl
@[simp] theorem setDie_cur (s : State) (d : Nat) (x : Die) : (s.setDie d x).cur = s.cur := rfl
@[simp] theorem setDie_arg (s : State) (d : Nat) (x : Die) : (s.setDie d x).arg = s.arg := rfl
@[simp] theorem setDie_power (s : State) (d : Nat) (x : Die) : (s.setDie d x).power = s.power := rfl
@[simp] theorem setDie_agenda (s : State) (d : Nat) (x : Die) : (s.setDie d x).agenda = s.agenda := rfl
@[simp] theorem setDie_pending (s : State) (d : Nat) (x : Die) : (s.setDie d x).pending = s.pending := rfl
@[simp] theorem setDie_timers (s : State) (d : Nat) (x : Die) : (s.setDie d x).timers = s.timers := rfl
@[simp] theorem setDie_sched (s : State) (d : Nat) (x : Die) : (s.setDie d x).sched = s.sched := rfl
@[simp] theorem setDie_free (s : State) (d : Nat) (x : Die) : (s.setDie d x).free = s.free := rfl
@[simp] theorem setDie_nextId (s : State) (d : Nat) (x : Die) : (s.setDie d x).nextId = s.nextId := rfl
@[simp] theorem setDie_tiles (s : State) (d : Nat) (x : Die) : (s.setDie d x).tiles = s.tiles := rfl
@[simp] theorem setDie_dies (s : State) (d : Nat) (x : Die) : (s.setDie d x).dies = fset s.dies d x := rfl
@[simp] theorem setDie_mem (s : State) (d : Nat) (x : Die) : (s.setDie d x).mem = s.mem := rfl
@[simp] theorem setDie_ops (s : State) (d : Nat) (x : Die) : (s.setDie d x).ops = s.ops := rfl
@[simp] theorem setDie_msgs (s : State) (d : Nat) (x : Die) : (s.setDie d x).msgs = s.msgs := rfl
@[simp] theorem setDie_links (s : State) (d : Nat) (x : Die) : (s.setDie d x).links = s.links := rfl
@[simp] theorem setDie_rr (s : State) (d : Nat) (x : Die) : (s.setDie d x).rr = s.rr := rfl
@[simp] theorem setDie_ports (s : State) (d : Nat) (x : Die) : (s.setDie d x).ports = s.ports := rfl
@[simp] theorem setDie_queues (s : State) (d : Nat) (x : Die) : (s.setDie d x).queues = s.queues := rfl
@[simp] theorem setDie_launches (s : State) (d : Nat) (x : Die) : (s.setDie d x).launches = s.launches := rfl
@[simp] theorem setDie_requeued (s : State) (d : Nat) (x : Die) : (s.setDie d x).requeued = s.requeued := rfl
@[simp] theorem setDie_placing (s : State) (d : Nat) (x : Die) : (s.setDie d x).placing = s.placing := rfl
@[simp] theorem setDie_resets (s : State) (d : Nat) (x : Die) : (s.setDie d x).resets = s.resets := rfl
@[simp] theorem setDie_lent (s : State) (d : Nat) (x : Die) : (s.setDie d x).lent = s.lent := rfl
@[simp] theorem setDie_freed (s : State) (d : Nat) (x : Die) : (s.setDie d x).freed = s.freed := rfl
@[simp] theorem setDie_txn (s : State) (d : Nat) (x : Die) : (s.setDie d x).txn = s.txn := rfl
@[simp] theorem setDie_arbs (s : State) (d : Nat) (x : Die) : (s.setDie d x).arbs = s.arbs := rfl
@[simp] theorem setDie_svc (s : State) (d : Nat) (x : Die) : (s.setDie d x).svc = s.svc := rfl
@[simp] theorem setDie_streams (s : State) (d : Nat) (x : Die) : (s.setDie d x).streams = s.streams := rfl
@[simp] theorem setDie_stageQs (s : State) (d : Nat) (x : Die) : (s.setDie d x).stageQs = s.stageQs := rfl
@[simp] theorem setDie_zonecfg (s : State) (d : Nat) (x : Die) : (s.setDie d x).zonecfg = s.zonecfg := rfl
@[simp] theorem setDie_exch (s : State) (d : Nat) (x : Die) : (s.setDie d x).exch = s.exch := rfl
@[simp] theorem setDie_flash (s : State) (d : Nat) (x : Die) : (s.setDie d x).flash = s.flash := rfl
@[simp] theorem setDie_rollback (s : State) (d : Nat) (x : Die) : (s.setDie d x).rollback = s.rollback := rfl
@[simp] theorem setDie_window (s : State) (d : Nat) (x : Die) : (s.setDie d x).window = s.window := rfl
@[simp] theorem setDie_recovery (s : State) (d : Nat) (x : Die) : (s.setDie d x).recovery = s.recovery := rfl
@[simp] theorem setDie_verified (s : State) (d : Nat) (x : Die) : (s.setDie d x).verified = s.verified := rfl
@[simp] theorem setDie_strap (s : State) (d : Nat) (x : Die) : (s.setDie d x).strap = s.strap := rfl
@[simp] theorem setDie_listed (s : State) (d : Nat) (x : Die) : (s.setDie d x).listed = s.listed := rfl
@[simp] theorem setDie_boots (s : State) (d : Nat) (x : Die) : (s.setDie d x).boots = s.boots := rfl
@[simp] theorem setDie_meas2 (s : State) (d : Nat) (x : Die) : (s.setDie d x).meas2 = s.meas2 := rfl
@[simp] theorem setDie_portDown (s : State) (d : Nat) (x : Die) : (s.setDie d x).portDown = s.portDown := rfl
@[simp] theorem setDie_sent (s : State) (d : Nat) (x : Die) : (s.setDie d x).sent = s.sent := rfl
@[simp] theorem setDie_copies (s : State) (d : Nat) (x : Die) : (s.setDie d x).copies = s.copies := rfl
@[simp] theorem setDie_holds (s : State) (d : Nat) (x : Die) : (s.setDie d x).holds = s.holds := rfl
@[simp] theorem setDie_preempts (s : State) (d : Nat) (x : Die) : (s.setDie d x).preempts = s.preempts := rfl
@[simp] theorem setDie_outlast (s : State) (d : Nat) (x : Die) : (s.setDie d x).outlast = s.outlast := rfl
@[simp] theorem setDie_irqs (s : State) (d : Nat) (x : Die) : (s.setDie d x).irqs = s.irqs := rfl
@[simp] theorem setDie_hostEvents (s : State) (d : Nat) (x : Die) : (s.setDie d x).hostEvents = s.hostEvents := rfl
@[simp] theorem setDie_hostRead (s : State) (d : Nat) (x : Die) : (s.setDie d x).hostRead = s.hostRead := rfl

/-! ### updQueue -/

@[simp] theorem updQueue_now (s : State) (q : Nat) (f : Queue → Queue) : (s.updQueue q f).now = s.now := rfl
@[simp] theorem updQueue_cur (s : State) (q : Nat) (f : Queue → Queue) : (s.updQueue q f).cur = s.cur := rfl
@[simp] theorem updQueue_arg (s : State) (q : Nat) (f : Queue → Queue) : (s.updQueue q f).arg = s.arg := rfl
@[simp] theorem updQueue_power (s : State) (q : Nat) (f : Queue → Queue) : (s.updQueue q f).power = s.power := rfl
@[simp] theorem updQueue_agenda (s : State) (q : Nat) (f : Queue → Queue) : (s.updQueue q f).agenda = s.agenda := rfl
@[simp] theorem updQueue_pending (s : State) (q : Nat) (f : Queue → Queue) : (s.updQueue q f).pending = s.pending := rfl
@[simp] theorem updQueue_timers (s : State) (q : Nat) (f : Queue → Queue) : (s.updQueue q f).timers = s.timers := rfl
@[simp] theorem updQueue_sched (s : State) (q : Nat) (f : Queue → Queue) : (s.updQueue q f).sched = s.sched := rfl
@[simp] theorem updQueue_free (s : State) (q : Nat) (f : Queue → Queue) : (s.updQueue q f).free = s.free := rfl
@[simp] theorem updQueue_nextId (s : State) (q : Nat) (f : Queue → Queue) : (s.updQueue q f).nextId = s.nextId := rfl
@[simp] theorem updQueue_tiles (s : State) (q : Nat) (f : Queue → Queue) : (s.updQueue q f).tiles = s.tiles := rfl
@[simp] theorem updQueue_dies (s : State) (q : Nat) (f : Queue → Queue) : (s.updQueue q f).dies = s.dies := rfl
@[simp] theorem updQueue_mem (s : State) (q : Nat) (f : Queue → Queue) : (s.updQueue q f).mem = s.mem := rfl
@[simp] theorem updQueue_ops (s : State) (q : Nat) (f : Queue → Queue) : (s.updQueue q f).ops = s.ops := rfl
@[simp] theorem updQueue_msgs (s : State) (q : Nat) (f : Queue → Queue) : (s.updQueue q f).msgs = s.msgs := rfl
@[simp] theorem updQueue_links (s : State) (q : Nat) (f : Queue → Queue) : (s.updQueue q f).links = s.links := rfl
@[simp] theorem updQueue_rr (s : State) (q : Nat) (f : Queue → Queue) : (s.updQueue q f).rr = s.rr := rfl
@[simp] theorem updQueue_ports (s : State) (q : Nat) (f : Queue → Queue) : (s.updQueue q f).ports = s.ports := rfl
@[simp] theorem updQueue_queues (s : State) (q : Nat) (f : Queue → Queue) : (s.updQueue q f).queues = fset s.queues q (f (s.queue q)) := rfl
@[simp] theorem updQueue_launches (s : State) (q : Nat) (f : Queue → Queue) : (s.updQueue q f).launches = s.launches := rfl
@[simp] theorem updQueue_requeued (s : State) (q : Nat) (f : Queue → Queue) : (s.updQueue q f).requeued = s.requeued := rfl
@[simp] theorem updQueue_placing (s : State) (q : Nat) (f : Queue → Queue) : (s.updQueue q f).placing = s.placing := rfl
@[simp] theorem updQueue_resets (s : State) (q : Nat) (f : Queue → Queue) : (s.updQueue q f).resets = s.resets := rfl
@[simp] theorem updQueue_lent (s : State) (q : Nat) (f : Queue → Queue) : (s.updQueue q f).lent = s.lent := rfl
@[simp] theorem updQueue_freed (s : State) (q : Nat) (f : Queue → Queue) : (s.updQueue q f).freed = s.freed := rfl
@[simp] theorem updQueue_txn (s : State) (q : Nat) (f : Queue → Queue) : (s.updQueue q f).txn = s.txn := rfl
@[simp] theorem updQueue_arbs (s : State) (q : Nat) (f : Queue → Queue) : (s.updQueue q f).arbs = s.arbs := rfl
@[simp] theorem updQueue_svc (s : State) (q : Nat) (f : Queue → Queue) : (s.updQueue q f).svc = s.svc := rfl
@[simp] theorem updQueue_streams (s : State) (q : Nat) (f : Queue → Queue) : (s.updQueue q f).streams = s.streams := rfl
@[simp] theorem updQueue_stageQs (s : State) (q : Nat) (f : Queue → Queue) : (s.updQueue q f).stageQs = s.stageQs := rfl
@[simp] theorem updQueue_zonecfg (s : State) (q : Nat) (f : Queue → Queue) : (s.updQueue q f).zonecfg = s.zonecfg := rfl
@[simp] theorem updQueue_exch (s : State) (q : Nat) (f : Queue → Queue) : (s.updQueue q f).exch = s.exch := rfl
@[simp] theorem updQueue_flash (s : State) (q : Nat) (f : Queue → Queue) : (s.updQueue q f).flash = s.flash := rfl
@[simp] theorem updQueue_rollback (s : State) (q : Nat) (f : Queue → Queue) : (s.updQueue q f).rollback = s.rollback := rfl
@[simp] theorem updQueue_window (s : State) (q : Nat) (f : Queue → Queue) : (s.updQueue q f).window = s.window := rfl
@[simp] theorem updQueue_recovery (s : State) (q : Nat) (f : Queue → Queue) : (s.updQueue q f).recovery = s.recovery := rfl
@[simp] theorem updQueue_verified (s : State) (q : Nat) (f : Queue → Queue) : (s.updQueue q f).verified = s.verified := rfl
@[simp] theorem updQueue_strap (s : State) (q : Nat) (f : Queue → Queue) : (s.updQueue q f).strap = s.strap := rfl
@[simp] theorem updQueue_listed (s : State) (q : Nat) (f : Queue → Queue) : (s.updQueue q f).listed = s.listed := rfl
@[simp] theorem updQueue_boots (s : State) (q : Nat) (f : Queue → Queue) : (s.updQueue q f).boots = s.boots := rfl
@[simp] theorem updQueue_meas2 (s : State) (q : Nat) (f : Queue → Queue) : (s.updQueue q f).meas2 = s.meas2 := rfl
@[simp] theorem updQueue_portDown (s : State) (q : Nat) (f : Queue → Queue) : (s.updQueue q f).portDown = s.portDown := rfl
@[simp] theorem updQueue_sent (s : State) (q : Nat) (f : Queue → Queue) : (s.updQueue q f).sent = s.sent := rfl
@[simp] theorem updQueue_copies (s : State) (q : Nat) (f : Queue → Queue) : (s.updQueue q f).copies = s.copies := rfl
@[simp] theorem updQueue_holds (s : State) (q : Nat) (f : Queue → Queue) : (s.updQueue q f).holds = s.holds := rfl
@[simp] theorem updQueue_preempts (s : State) (q : Nat) (f : Queue → Queue) : (s.updQueue q f).preempts = s.preempts := rfl
@[simp] theorem updQueue_outlast (s : State) (q : Nat) (f : Queue → Queue) : (s.updQueue q f).outlast = s.outlast := rfl
@[simp] theorem updQueue_irqs (s : State) (q : Nat) (f : Queue → Queue) : (s.updQueue q f).irqs = s.irqs := rfl
@[simp] theorem updQueue_hostEvents (s : State) (q : Nat) (f : Queue → Queue) : (s.updQueue q f).hostEvents = s.hostEvents := rfl
@[simp] theorem updQueue_hostRead (s : State) (q : Nat) (f : Queue → Queue) : (s.updQueue q f).hostRead = s.hostRead := rfl

/-! ### updLaunch -/

@[simp] theorem updLaunch_now (s : State) (l : Nat) (f : Launch → Launch) : (s.updLaunch l f).now = s.now := rfl
@[simp] theorem updLaunch_cur (s : State) (l : Nat) (f : Launch → Launch) : (s.updLaunch l f).cur = s.cur := rfl
@[simp] theorem updLaunch_arg (s : State) (l : Nat) (f : Launch → Launch) : (s.updLaunch l f).arg = s.arg := rfl
@[simp] theorem updLaunch_power (s : State) (l : Nat) (f : Launch → Launch) : (s.updLaunch l f).power = s.power := rfl
@[simp] theorem updLaunch_agenda (s : State) (l : Nat) (f : Launch → Launch) : (s.updLaunch l f).agenda = s.agenda := rfl
@[simp] theorem updLaunch_pending (s : State) (l : Nat) (f : Launch → Launch) : (s.updLaunch l f).pending = s.pending := rfl
@[simp] theorem updLaunch_timers (s : State) (l : Nat) (f : Launch → Launch) : (s.updLaunch l f).timers = s.timers := rfl
@[simp] theorem updLaunch_sched (s : State) (l : Nat) (f : Launch → Launch) : (s.updLaunch l f).sched = s.sched := rfl
@[simp] theorem updLaunch_free (s : State) (l : Nat) (f : Launch → Launch) : (s.updLaunch l f).free = s.free := rfl
@[simp] theorem updLaunch_nextId (s : State) (l : Nat) (f : Launch → Launch) : (s.updLaunch l f).nextId = s.nextId := rfl
@[simp] theorem updLaunch_tiles (s : State) (l : Nat) (f : Launch → Launch) : (s.updLaunch l f).tiles = s.tiles := rfl
@[simp] theorem updLaunch_dies (s : State) (l : Nat) (f : Launch → Launch) : (s.updLaunch l f).dies = s.dies := rfl
@[simp] theorem updLaunch_mem (s : State) (l : Nat) (f : Launch → Launch) : (s.updLaunch l f).mem = s.mem := rfl
@[simp] theorem updLaunch_ops (s : State) (l : Nat) (f : Launch → Launch) : (s.updLaunch l f).ops = s.ops := rfl
@[simp] theorem updLaunch_msgs (s : State) (l : Nat) (f : Launch → Launch) : (s.updLaunch l f).msgs = s.msgs := rfl
@[simp] theorem updLaunch_links (s : State) (l : Nat) (f : Launch → Launch) : (s.updLaunch l f).links = s.links := rfl
@[simp] theorem updLaunch_rr (s : State) (l : Nat) (f : Launch → Launch) : (s.updLaunch l f).rr = s.rr := rfl
@[simp] theorem updLaunch_ports (s : State) (l : Nat) (f : Launch → Launch) : (s.updLaunch l f).ports = s.ports := rfl
@[simp] theorem updLaunch_queues (s : State) (l : Nat) (f : Launch → Launch) : (s.updLaunch l f).queues = s.queues := rfl
@[simp] theorem updLaunch_launches (s : State) (l : Nat) (f : Launch → Launch) : (s.updLaunch l f).launches = fset s.launches l (f (s.launch l)) := rfl
@[simp] theorem updLaunch_requeued (s : State) (l : Nat) (f : Launch → Launch) : (s.updLaunch l f).requeued = s.requeued := rfl
@[simp] theorem updLaunch_placing (s : State) (l : Nat) (f : Launch → Launch) : (s.updLaunch l f).placing = s.placing := rfl
@[simp] theorem updLaunch_resets (s : State) (l : Nat) (f : Launch → Launch) : (s.updLaunch l f).resets = s.resets := rfl
@[simp] theorem updLaunch_lent (s : State) (l : Nat) (f : Launch → Launch) : (s.updLaunch l f).lent = s.lent := rfl
@[simp] theorem updLaunch_freed (s : State) (l : Nat) (f : Launch → Launch) : (s.updLaunch l f).freed = s.freed := rfl
@[simp] theorem updLaunch_txn (s : State) (l : Nat) (f : Launch → Launch) : (s.updLaunch l f).txn = s.txn := rfl
@[simp] theorem updLaunch_arbs (s : State) (l : Nat) (f : Launch → Launch) : (s.updLaunch l f).arbs = s.arbs := rfl
@[simp] theorem updLaunch_svc (s : State) (l : Nat) (f : Launch → Launch) : (s.updLaunch l f).svc = s.svc := rfl
@[simp] theorem updLaunch_streams (s : State) (l : Nat) (f : Launch → Launch) : (s.updLaunch l f).streams = s.streams := rfl
@[simp] theorem updLaunch_stageQs (s : State) (l : Nat) (f : Launch → Launch) : (s.updLaunch l f).stageQs = s.stageQs := rfl
@[simp] theorem updLaunch_zonecfg (s : State) (l : Nat) (f : Launch → Launch) : (s.updLaunch l f).zonecfg = s.zonecfg := rfl
@[simp] theorem updLaunch_exch (s : State) (l : Nat) (f : Launch → Launch) : (s.updLaunch l f).exch = s.exch := rfl
@[simp] theorem updLaunch_flash (s : State) (l : Nat) (f : Launch → Launch) : (s.updLaunch l f).flash = s.flash := rfl
@[simp] theorem updLaunch_rollback (s : State) (l : Nat) (f : Launch → Launch) : (s.updLaunch l f).rollback = s.rollback := rfl
@[simp] theorem updLaunch_window (s : State) (l : Nat) (f : Launch → Launch) : (s.updLaunch l f).window = s.window := rfl
@[simp] theorem updLaunch_recovery (s : State) (l : Nat) (f : Launch → Launch) : (s.updLaunch l f).recovery = s.recovery := rfl
@[simp] theorem updLaunch_verified (s : State) (l : Nat) (f : Launch → Launch) : (s.updLaunch l f).verified = s.verified := rfl
@[simp] theorem updLaunch_strap (s : State) (l : Nat) (f : Launch → Launch) : (s.updLaunch l f).strap = s.strap := rfl
@[simp] theorem updLaunch_listed (s : State) (l : Nat) (f : Launch → Launch) : (s.updLaunch l f).listed = s.listed := rfl
@[simp] theorem updLaunch_boots (s : State) (l : Nat) (f : Launch → Launch) : (s.updLaunch l f).boots = s.boots := rfl
@[simp] theorem updLaunch_meas2 (s : State) (l : Nat) (f : Launch → Launch) : (s.updLaunch l f).meas2 = s.meas2 := rfl
@[simp] theorem updLaunch_portDown (s : State) (l : Nat) (f : Launch → Launch) : (s.updLaunch l f).portDown = s.portDown := rfl
@[simp] theorem updLaunch_sent (s : State) (l : Nat) (f : Launch → Launch) : (s.updLaunch l f).sent = s.sent := rfl
@[simp] theorem updLaunch_copies (s : State) (l : Nat) (f : Launch → Launch) : (s.updLaunch l f).copies = s.copies := rfl
@[simp] theorem updLaunch_holds (s : State) (l : Nat) (f : Launch → Launch) : (s.updLaunch l f).holds = s.holds := rfl
@[simp] theorem updLaunch_preempts (s : State) (l : Nat) (f : Launch → Launch) : (s.updLaunch l f).preempts = s.preempts := rfl
@[simp] theorem updLaunch_outlast (s : State) (l : Nat) (f : Launch → Launch) : (s.updLaunch l f).outlast = s.outlast := rfl
@[simp] theorem updLaunch_irqs (s : State) (l : Nat) (f : Launch → Launch) : (s.updLaunch l f).irqs = s.irqs := rfl
@[simp] theorem updLaunch_hostEvents (s : State) (l : Nat) (f : Launch → Launch) : (s.updLaunch l f).hostEvents = s.hostEvents := rfl
@[simp] theorem updLaunch_hostRead (s : State) (l : Nat) (f : Launch → Launch) : (s.updLaunch l f).hostRead = s.hostRead := rfl

/-! ### updMem -/

@[simp] theorem updMem_now (s : State) (f : Mems → Mems) : (s.updMem f).now = s.now := rfl
@[simp] theorem updMem_cur (s : State) (f : Mems → Mems) : (s.updMem f).cur = s.cur := rfl
@[simp] theorem updMem_arg (s : State) (f : Mems → Mems) : (s.updMem f).arg = s.arg := rfl
@[simp] theorem updMem_power (s : State) (f : Mems → Mems) : (s.updMem f).power = s.power := rfl
@[simp] theorem updMem_agenda (s : State) (f : Mems → Mems) : (s.updMem f).agenda = s.agenda := rfl
@[simp] theorem updMem_pending (s : State) (f : Mems → Mems) : (s.updMem f).pending = s.pending := rfl
@[simp] theorem updMem_timers (s : State) (f : Mems → Mems) : (s.updMem f).timers = s.timers := rfl
@[simp] theorem updMem_sched (s : State) (f : Mems → Mems) : (s.updMem f).sched = s.sched := rfl
@[simp] theorem updMem_free (s : State) (f : Mems → Mems) : (s.updMem f).free = s.free := rfl
@[simp] theorem updMem_nextId (s : State) (f : Mems → Mems) : (s.updMem f).nextId = s.nextId := rfl
@[simp] theorem updMem_tiles (s : State) (f : Mems → Mems) : (s.updMem f).tiles = s.tiles := rfl
@[simp] theorem updMem_dies (s : State) (f : Mems → Mems) : (s.updMem f).dies = s.dies := rfl
@[simp] theorem updMem_mem (s : State) (f : Mems → Mems) : (s.updMem f).mem = f s.mem := rfl
@[simp] theorem updMem_ops (s : State) (f : Mems → Mems) : (s.updMem f).ops = s.ops := rfl
@[simp] theorem updMem_msgs (s : State) (f : Mems → Mems) : (s.updMem f).msgs = s.msgs := rfl
@[simp] theorem updMem_links (s : State) (f : Mems → Mems) : (s.updMem f).links = s.links := rfl
@[simp] theorem updMem_rr (s : State) (f : Mems → Mems) : (s.updMem f).rr = s.rr := rfl
@[simp] theorem updMem_ports (s : State) (f : Mems → Mems) : (s.updMem f).ports = s.ports := rfl
@[simp] theorem updMem_queues (s : State) (f : Mems → Mems) : (s.updMem f).queues = s.queues := rfl
@[simp] theorem updMem_launches (s : State) (f : Mems → Mems) : (s.updMem f).launches = s.launches := rfl
@[simp] theorem updMem_requeued (s : State) (f : Mems → Mems) : (s.updMem f).requeued = s.requeued := rfl
@[simp] theorem updMem_placing (s : State) (f : Mems → Mems) : (s.updMem f).placing = s.placing := rfl
@[simp] theorem updMem_resets (s : State) (f : Mems → Mems) : (s.updMem f).resets = s.resets := rfl
@[simp] theorem updMem_lent (s : State) (f : Mems → Mems) : (s.updMem f).lent = s.lent := rfl
@[simp] theorem updMem_freed (s : State) (f : Mems → Mems) : (s.updMem f).freed = s.freed := rfl
@[simp] theorem updMem_txn (s : State) (f : Mems → Mems) : (s.updMem f).txn = s.txn := rfl
@[simp] theorem updMem_arbs (s : State) (f : Mems → Mems) : (s.updMem f).arbs = s.arbs := rfl
@[simp] theorem updMem_svc (s : State) (f : Mems → Mems) : (s.updMem f).svc = s.svc := rfl
@[simp] theorem updMem_streams (s : State) (f : Mems → Mems) : (s.updMem f).streams = s.streams := rfl
@[simp] theorem updMem_stageQs (s : State) (f : Mems → Mems) : (s.updMem f).stageQs = s.stageQs := rfl
@[simp] theorem updMem_zonecfg (s : State) (f : Mems → Mems) : (s.updMem f).zonecfg = s.zonecfg := rfl
@[simp] theorem updMem_exch (s : State) (f : Mems → Mems) : (s.updMem f).exch = s.exch := rfl
@[simp] theorem updMem_flash (s : State) (f : Mems → Mems) : (s.updMem f).flash = s.flash := rfl
@[simp] theorem updMem_rollback (s : State) (f : Mems → Mems) : (s.updMem f).rollback = s.rollback := rfl
@[simp] theorem updMem_window (s : State) (f : Mems → Mems) : (s.updMem f).window = s.window := rfl
@[simp] theorem updMem_recovery (s : State) (f : Mems → Mems) : (s.updMem f).recovery = s.recovery := rfl
@[simp] theorem updMem_verified (s : State) (f : Mems → Mems) : (s.updMem f).verified = s.verified := rfl
@[simp] theorem updMem_strap (s : State) (f : Mems → Mems) : (s.updMem f).strap = s.strap := rfl
@[simp] theorem updMem_listed (s : State) (f : Mems → Mems) : (s.updMem f).listed = s.listed := rfl
@[simp] theorem updMem_boots (s : State) (f : Mems → Mems) : (s.updMem f).boots = s.boots := rfl
@[simp] theorem updMem_meas2 (s : State) (f : Mems → Mems) : (s.updMem f).meas2 = s.meas2 := rfl
@[simp] theorem updMem_portDown (s : State) (f : Mems → Mems) : (s.updMem f).portDown = s.portDown := rfl
@[simp] theorem updMem_sent (s : State) (f : Mems → Mems) : (s.updMem f).sent = s.sent := rfl
@[simp] theorem updMem_copies (s : State) (f : Mems → Mems) : (s.updMem f).copies = s.copies := rfl
@[simp] theorem updMem_holds (s : State) (f : Mems → Mems) : (s.updMem f).holds = s.holds := rfl
@[simp] theorem updMem_preempts (s : State) (f : Mems → Mems) : (s.updMem f).preempts = s.preempts := rfl
@[simp] theorem updMem_outlast (s : State) (f : Mems → Mems) : (s.updMem f).outlast = s.outlast := rfl
@[simp] theorem updMem_irqs (s : State) (f : Mems → Mems) : (s.updMem f).irqs = s.irqs := rfl
@[simp] theorem updMem_hostEvents (s : State) (f : Mems → Mems) : (s.updMem f).hostEvents = s.hostEvents := rfl
@[simp] theorem updMem_hostRead (s : State) (f : Mems → Mems) : (s.updMem f).hostRead = s.hostRead := rfl

/-! ### updTxn -/

@[simp] theorem updTxn_now (s : State) (f : Txn → Txn) : (s.updTxn f).now = s.now := rfl
@[simp] theorem updTxn_cur (s : State) (f : Txn → Txn) : (s.updTxn f).cur = s.cur := rfl
@[simp] theorem updTxn_arg (s : State) (f : Txn → Txn) : (s.updTxn f).arg = s.arg := rfl
@[simp] theorem updTxn_power (s : State) (f : Txn → Txn) : (s.updTxn f).power = s.power := rfl
@[simp] theorem updTxn_agenda (s : State) (f : Txn → Txn) : (s.updTxn f).agenda = s.agenda := rfl
@[simp] theorem updTxn_pending (s : State) (f : Txn → Txn) : (s.updTxn f).pending = s.pending := rfl
@[simp] theorem updTxn_timers (s : State) (f : Txn → Txn) : (s.updTxn f).timers = s.timers := rfl
@[simp] theorem updTxn_sched (s : State) (f : Txn → Txn) : (s.updTxn f).sched = s.sched := rfl
@[simp] theorem updTxn_free (s : State) (f : Txn → Txn) : (s.updTxn f).free = s.free := rfl
@[simp] theorem updTxn_nextId (s : State) (f : Txn → Txn) : (s.updTxn f).nextId = s.nextId := rfl
@[simp] theorem updTxn_tiles (s : State) (f : Txn → Txn) : (s.updTxn f).tiles = s.tiles := rfl
@[simp] theorem updTxn_dies (s : State) (f : Txn → Txn) : (s.updTxn f).dies = s.dies := rfl
@[simp] theorem updTxn_mem (s : State) (f : Txn → Txn) : (s.updTxn f).mem = s.mem := rfl
@[simp] theorem updTxn_ops (s : State) (f : Txn → Txn) : (s.updTxn f).ops = s.ops := rfl
@[simp] theorem updTxn_msgs (s : State) (f : Txn → Txn) : (s.updTxn f).msgs = s.msgs := rfl
@[simp] theorem updTxn_links (s : State) (f : Txn → Txn) : (s.updTxn f).links = s.links := rfl
@[simp] theorem updTxn_rr (s : State) (f : Txn → Txn) : (s.updTxn f).rr = s.rr := rfl
@[simp] theorem updTxn_ports (s : State) (f : Txn → Txn) : (s.updTxn f).ports = s.ports := rfl
@[simp] theorem updTxn_queues (s : State) (f : Txn → Txn) : (s.updTxn f).queues = s.queues := rfl
@[simp] theorem updTxn_launches (s : State) (f : Txn → Txn) : (s.updTxn f).launches = s.launches := rfl
@[simp] theorem updTxn_requeued (s : State) (f : Txn → Txn) : (s.updTxn f).requeued = s.requeued := rfl
@[simp] theorem updTxn_placing (s : State) (f : Txn → Txn) : (s.updTxn f).placing = s.placing := rfl
@[simp] theorem updTxn_resets (s : State) (f : Txn → Txn) : (s.updTxn f).resets = s.resets := rfl
@[simp] theorem updTxn_lent (s : State) (f : Txn → Txn) : (s.updTxn f).lent = s.lent := rfl
@[simp] theorem updTxn_freed (s : State) (f : Txn → Txn) : (s.updTxn f).freed = s.freed := rfl
@[simp] theorem updTxn_txn (s : State) (f : Txn → Txn) : (s.updTxn f).txn = f s.txn := rfl
@[simp] theorem updTxn_arbs (s : State) (f : Txn → Txn) : (s.updTxn f).arbs = s.arbs := rfl
@[simp] theorem updTxn_svc (s : State) (f : Txn → Txn) : (s.updTxn f).svc = s.svc := rfl
@[simp] theorem updTxn_streams (s : State) (f : Txn → Txn) : (s.updTxn f).streams = s.streams := rfl
@[simp] theorem updTxn_stageQs (s : State) (f : Txn → Txn) : (s.updTxn f).stageQs = s.stageQs := rfl
@[simp] theorem updTxn_zonecfg (s : State) (f : Txn → Txn) : (s.updTxn f).zonecfg = s.zonecfg := rfl
@[simp] theorem updTxn_exch (s : State) (f : Txn → Txn) : (s.updTxn f).exch = s.exch := rfl
@[simp] theorem updTxn_flash (s : State) (f : Txn → Txn) : (s.updTxn f).flash = s.flash := rfl
@[simp] theorem updTxn_rollback (s : State) (f : Txn → Txn) : (s.updTxn f).rollback = s.rollback := rfl
@[simp] theorem updTxn_window (s : State) (f : Txn → Txn) : (s.updTxn f).window = s.window := rfl
@[simp] theorem updTxn_recovery (s : State) (f : Txn → Txn) : (s.updTxn f).recovery = s.recovery := rfl
@[simp] theorem updTxn_verified (s : State) (f : Txn → Txn) : (s.updTxn f).verified = s.verified := rfl
@[simp] theorem updTxn_strap (s : State) (f : Txn → Txn) : (s.updTxn f).strap = s.strap := rfl
@[simp] theorem updTxn_listed (s : State) (f : Txn → Txn) : (s.updTxn f).listed = s.listed := rfl
@[simp] theorem updTxn_boots (s : State) (f : Txn → Txn) : (s.updTxn f).boots = s.boots := rfl
@[simp] theorem updTxn_meas2 (s : State) (f : Txn → Txn) : (s.updTxn f).meas2 = s.meas2 := rfl
@[simp] theorem updTxn_portDown (s : State) (f : Txn → Txn) : (s.updTxn f).portDown = s.portDown := rfl
@[simp] theorem updTxn_sent (s : State) (f : Txn → Txn) : (s.updTxn f).sent = s.sent := rfl
@[simp] theorem updTxn_copies (s : State) (f : Txn → Txn) : (s.updTxn f).copies = s.copies := rfl
@[simp] theorem updTxn_holds (s : State) (f : Txn → Txn) : (s.updTxn f).holds = s.holds := rfl
@[simp] theorem updTxn_preempts (s : State) (f : Txn → Txn) : (s.updTxn f).preempts = s.preempts := rfl
@[simp] theorem updTxn_outlast (s : State) (f : Txn → Txn) : (s.updTxn f).outlast = s.outlast := rfl
@[simp] theorem updTxn_irqs (s : State) (f : Txn → Txn) : (s.updTxn f).irqs = s.irqs := rfl
@[simp] theorem updTxn_hostEvents (s : State) (f : Txn → Txn) : (s.updTxn f).hostEvents = s.hostEvents := rfl
@[simp] theorem updTxn_hostRead (s : State) (f : Txn → Txn) : (s.updTxn f).hostRead = s.hostRead := rfl

/-! ### setOp -/

@[simp] theorem setOp_now (s : State) (i : Nat) (o : Op) : (s.setOp i o).now = s.now := rfl
@[simp] theorem setOp_cur (s : State) (i : Nat) (o : Op) : (s.setOp i o).cur = s.cur := rfl
@[simp] theorem setOp_arg (s : State) (i : Nat) (o : Op) : (s.setOp i o).arg = s.arg := rfl
@[simp] theorem setOp_power (s : State) (i : Nat) (o : Op) : (s.setOp i o).power = s.power := rfl
@[simp] theorem setOp_agenda (s : State) (i : Nat) (o : Op) : (s.setOp i o).agenda = s.agenda := rfl
@[simp] theorem setOp_pending (s : State) (i : Nat) (o : Op) : (s.setOp i o).pending = s.pending := rfl
@[simp] theorem setOp_timers (s : State) (i : Nat) (o : Op) : (s.setOp i o).timers = s.timers := rfl
@[simp] theorem setOp_sched (s : State) (i : Nat) (o : Op) : (s.setOp i o).sched = s.sched := rfl
@[simp] theorem setOp_free (s : State) (i : Nat) (o : Op) : (s.setOp i o).free = s.free := rfl
@[simp] theorem setOp_nextId (s : State) (i : Nat) (o : Op) : (s.setOp i o).nextId = s.nextId := rfl
@[simp] theorem setOp_tiles (s : State) (i : Nat) (o : Op) : (s.setOp i o).tiles = s.tiles := rfl
@[simp] theorem setOp_dies (s : State) (i : Nat) (o : Op) : (s.setOp i o).dies = s.dies := rfl
@[simp] theorem setOp_mem (s : State) (i : Nat) (o : Op) : (s.setOp i o).mem = s.mem := rfl
@[simp] theorem setOp_ops (s : State) (i : Nat) (o : Op) : (s.setOp i o).ops = fset s.ops i o := rfl
@[simp] theorem setOp_msgs (s : State) (i : Nat) (o : Op) : (s.setOp i o).msgs = s.msgs := rfl
@[simp] theorem setOp_links (s : State) (i : Nat) (o : Op) : (s.setOp i o).links = s.links := rfl
@[simp] theorem setOp_rr (s : State) (i : Nat) (o : Op) : (s.setOp i o).rr = s.rr := rfl
@[simp] theorem setOp_ports (s : State) (i : Nat) (o : Op) : (s.setOp i o).ports = s.ports := rfl
@[simp] theorem setOp_queues (s : State) (i : Nat) (o : Op) : (s.setOp i o).queues = s.queues := rfl
@[simp] theorem setOp_launches (s : State) (i : Nat) (o : Op) : (s.setOp i o).launches = s.launches := rfl
@[simp] theorem setOp_requeued (s : State) (i : Nat) (o : Op) : (s.setOp i o).requeued = s.requeued := rfl
@[simp] theorem setOp_placing (s : State) (i : Nat) (o : Op) : (s.setOp i o).placing = s.placing := rfl
@[simp] theorem setOp_resets (s : State) (i : Nat) (o : Op) : (s.setOp i o).resets = s.resets := rfl
@[simp] theorem setOp_lent (s : State) (i : Nat) (o : Op) : (s.setOp i o).lent = s.lent := rfl
@[simp] theorem setOp_freed (s : State) (i : Nat) (o : Op) : (s.setOp i o).freed = s.freed := rfl
@[simp] theorem setOp_txn (s : State) (i : Nat) (o : Op) : (s.setOp i o).txn = s.txn := rfl
@[simp] theorem setOp_arbs (s : State) (i : Nat) (o : Op) : (s.setOp i o).arbs = s.arbs := rfl
@[simp] theorem setOp_svc (s : State) (i : Nat) (o : Op) : (s.setOp i o).svc = s.svc := rfl
@[simp] theorem setOp_streams (s : State) (i : Nat) (o : Op) : (s.setOp i o).streams = s.streams := rfl
@[simp] theorem setOp_stageQs (s : State) (i : Nat) (o : Op) : (s.setOp i o).stageQs = s.stageQs := rfl
@[simp] theorem setOp_zonecfg (s : State) (i : Nat) (o : Op) : (s.setOp i o).zonecfg = s.zonecfg := rfl
@[simp] theorem setOp_exch (s : State) (i : Nat) (o : Op) : (s.setOp i o).exch = s.exch := rfl
@[simp] theorem setOp_flash (s : State) (i : Nat) (o : Op) : (s.setOp i o).flash = s.flash := rfl
@[simp] theorem setOp_rollback (s : State) (i : Nat) (o : Op) : (s.setOp i o).rollback = s.rollback := rfl
@[simp] theorem setOp_window (s : State) (i : Nat) (o : Op) : (s.setOp i o).window = s.window := rfl
@[simp] theorem setOp_recovery (s : State) (i : Nat) (o : Op) : (s.setOp i o).recovery = s.recovery := rfl
@[simp] theorem setOp_verified (s : State) (i : Nat) (o : Op) : (s.setOp i o).verified = s.verified := rfl
@[simp] theorem setOp_strap (s : State) (i : Nat) (o : Op) : (s.setOp i o).strap = s.strap := rfl
@[simp] theorem setOp_listed (s : State) (i : Nat) (o : Op) : (s.setOp i o).listed = s.listed := rfl
@[simp] theorem setOp_boots (s : State) (i : Nat) (o : Op) : (s.setOp i o).boots = s.boots := rfl
@[simp] theorem setOp_meas2 (s : State) (i : Nat) (o : Op) : (s.setOp i o).meas2 = s.meas2 := rfl
@[simp] theorem setOp_portDown (s : State) (i : Nat) (o : Op) : (s.setOp i o).portDown = s.portDown := rfl
@[simp] theorem setOp_sent (s : State) (i : Nat) (o : Op) : (s.setOp i o).sent = s.sent := rfl
@[simp] theorem setOp_copies (s : State) (i : Nat) (o : Op) : (s.setOp i o).copies = s.copies := rfl
@[simp] theorem setOp_holds (s : State) (i : Nat) (o : Op) : (s.setOp i o).holds = s.holds := rfl
@[simp] theorem setOp_preempts (s : State) (i : Nat) (o : Op) : (s.setOp i o).preempts = s.preempts := rfl
@[simp] theorem setOp_outlast (s : State) (i : Nat) (o : Op) : (s.setOp i o).outlast = s.outlast := rfl
@[simp] theorem setOp_irqs (s : State) (i : Nat) (o : Op) : (s.setOp i o).irqs = s.irqs := rfl
@[simp] theorem setOp_hostEvents (s : State) (i : Nat) (o : Op) : (s.setOp i o).hostEvents = s.hostEvents := rfl
@[simp] theorem setOp_hostRead (s : State) (i : Nat) (o : Op) : (s.setOp i o).hostRead = s.hostRead := rfl

/-! ### delOp -/

@[simp] theorem delOp_now (s : State) (i : Nat) : (s.delOp i).now = s.now := rfl
@[simp] theorem delOp_cur (s : State) (i : Nat) : (s.delOp i).cur = s.cur := rfl
@[simp] theorem delOp_arg (s : State) (i : Nat) : (s.delOp i).arg = s.arg := rfl
@[simp] theorem delOp_power (s : State) (i : Nat) : (s.delOp i).power = s.power := rfl
@[simp] theorem delOp_agenda (s : State) (i : Nat) : (s.delOp i).agenda = s.agenda := rfl
@[simp] theorem delOp_pending (s : State) (i : Nat) : (s.delOp i).pending = s.pending := rfl
@[simp] theorem delOp_timers (s : State) (i : Nat) : (s.delOp i).timers = s.timers := rfl
@[simp] theorem delOp_sched (s : State) (i : Nat) : (s.delOp i).sched = s.sched := rfl
@[simp] theorem delOp_free (s : State) (i : Nat) : (s.delOp i).free = s.free := rfl
@[simp] theorem delOp_nextId (s : State) (i : Nat) : (s.delOp i).nextId = s.nextId := rfl
@[simp] theorem delOp_tiles (s : State) (i : Nat) : (s.delOp i).tiles = s.tiles := rfl
@[simp] theorem delOp_dies (s : State) (i : Nat) : (s.delOp i).dies = s.dies := rfl
@[simp] theorem delOp_mem (s : State) (i : Nat) : (s.delOp i).mem = s.mem := rfl
@[simp] theorem delOp_ops (s : State) (i : Nat) : (s.delOp i).ops = fdel s.ops i := rfl
@[simp] theorem delOp_msgs (s : State) (i : Nat) : (s.delOp i).msgs = s.msgs := rfl
@[simp] theorem delOp_links (s : State) (i : Nat) : (s.delOp i).links = s.links := rfl
@[simp] theorem delOp_rr (s : State) (i : Nat) : (s.delOp i).rr = s.rr := rfl
@[simp] theorem delOp_ports (s : State) (i : Nat) : (s.delOp i).ports = s.ports := rfl
@[simp] theorem delOp_queues (s : State) (i : Nat) : (s.delOp i).queues = s.queues := rfl
@[simp] theorem delOp_launches (s : State) (i : Nat) : (s.delOp i).launches = s.launches := rfl
@[simp] theorem delOp_requeued (s : State) (i : Nat) : (s.delOp i).requeued = s.requeued := rfl
@[simp] theorem delOp_placing (s : State) (i : Nat) : (s.delOp i).placing = s.placing := rfl
@[simp] theorem delOp_resets (s : State) (i : Nat) : (s.delOp i).resets = s.resets := rfl
@[simp] theorem delOp_lent (s : State) (i : Nat) : (s.delOp i).lent = s.lent := rfl
@[simp] theorem delOp_freed (s : State) (i : Nat) : (s.delOp i).freed = s.freed := rfl
@[simp] theorem delOp_txn (s : State) (i : Nat) : (s.delOp i).txn = s.txn := rfl
@[simp] theorem delOp_arbs (s : State) (i : Nat) : (s.delOp i).arbs = s.arbs := rfl
@[simp] theorem delOp_svc (s : State) (i : Nat) : (s.delOp i).svc = s.svc := rfl
@[simp] theorem delOp_streams (s : State) (i : Nat) : (s.delOp i).streams = s.streams := rfl
@[simp] theorem delOp_stageQs (s : State) (i : Nat) : (s.delOp i).stageQs = s.stageQs := rfl
@[simp] theorem delOp_zonecfg (s : State) (i : Nat) : (s.delOp i).zonecfg = s.zonecfg := rfl
@[simp] theorem delOp_exch (s : State) (i : Nat) : (s.delOp i).exch = s.exch := rfl
@[simp] theorem delOp_flash (s : State) (i : Nat) : (s.delOp i).flash = s.flash := rfl
@[simp] theorem delOp_rollback (s : State) (i : Nat) : (s.delOp i).rollback = s.rollback := rfl
@[simp] theorem delOp_window (s : State) (i : Nat) : (s.delOp i).window = s.window := rfl
@[simp] theorem delOp_recovery (s : State) (i : Nat) : (s.delOp i).recovery = s.recovery := rfl
@[simp] theorem delOp_verified (s : State) (i : Nat) : (s.delOp i).verified = s.verified := rfl
@[simp] theorem delOp_strap (s : State) (i : Nat) : (s.delOp i).strap = s.strap := rfl
@[simp] theorem delOp_listed (s : State) (i : Nat) : (s.delOp i).listed = s.listed := rfl
@[simp] theorem delOp_boots (s : State) (i : Nat) : (s.delOp i).boots = s.boots := rfl
@[simp] theorem delOp_meas2 (s : State) (i : Nat) : (s.delOp i).meas2 = s.meas2 := rfl
@[simp] theorem delOp_portDown (s : State) (i : Nat) : (s.delOp i).portDown = s.portDown := rfl
@[simp] theorem delOp_sent (s : State) (i : Nat) : (s.delOp i).sent = s.sent := rfl
@[simp] theorem delOp_copies (s : State) (i : Nat) : (s.delOp i).copies = s.copies := rfl
@[simp] theorem delOp_holds (s : State) (i : Nat) : (s.delOp i).holds = s.holds := rfl
@[simp] theorem delOp_preempts (s : State) (i : Nat) : (s.delOp i).preempts = s.preempts := rfl
@[simp] theorem delOp_outlast (s : State) (i : Nat) : (s.delOp i).outlast = s.outlast := rfl
@[simp] theorem delOp_irqs (s : State) (i : Nat) : (s.delOp i).irqs = s.irqs := rfl
@[simp] theorem delOp_hostEvents (s : State) (i : Nat) : (s.delOp i).hostEvents = s.hostEvents := rfl
@[simp] theorem delOp_hostRead (s : State) (i : Nat) : (s.delOp i).hostRead = s.hostRead := rfl

/-! ### pend -/

@[simp] theorem pend_now (s : State) (i : Instr) (a : Arg) : (s.pend i a).now = s.now := rfl
@[simp] theorem pend_cur (s : State) (i : Instr) (a : Arg) : (s.pend i a).cur = s.cur := rfl
@[simp] theorem pend_arg (s : State) (i : Instr) (a : Arg) : (s.pend i a).arg = s.arg := rfl
@[simp] theorem pend_power (s : State) (i : Instr) (a : Arg) : (s.pend i a).power = s.power := rfl
@[simp] theorem pend_agenda (s : State) (i : Instr) (a : Arg) : (s.pend i a).agenda = s.agenda := rfl
@[simp] theorem pend_pending (s : State) (i : Instr) (a : Arg) : (s.pend i a).pending = s.pending ++ [⟨i, a⟩] := rfl
@[simp] theorem pend_timers (s : State) (i : Instr) (a : Arg) : (s.pend i a).timers = s.timers := rfl
@[simp] theorem pend_sched (s : State) (i : Instr) (a : Arg) : (s.pend i a).sched = s.sched := rfl
@[simp] theorem pend_free (s : State) (i : Instr) (a : Arg) : (s.pend i a).free = s.free := rfl
@[simp] theorem pend_nextId (s : State) (i : Instr) (a : Arg) : (s.pend i a).nextId = s.nextId := rfl
@[simp] theorem pend_tiles (s : State) (i : Instr) (a : Arg) : (s.pend i a).tiles = s.tiles := rfl
@[simp] theorem pend_dies (s : State) (i : Instr) (a : Arg) : (s.pend i a).dies = s.dies := rfl
@[simp] theorem pend_mem (s : State) (i : Instr) (a : Arg) : (s.pend i a).mem = s.mem := rfl
@[simp] theorem pend_ops (s : State) (i : Instr) (a : Arg) : (s.pend i a).ops = s.ops := rfl
@[simp] theorem pend_msgs (s : State) (i : Instr) (a : Arg) : (s.pend i a).msgs = s.msgs := rfl
@[simp] theorem pend_links (s : State) (i : Instr) (a : Arg) : (s.pend i a).links = s.links := rfl
@[simp] theorem pend_rr (s : State) (i : Instr) (a : Arg) : (s.pend i a).rr = s.rr := rfl
@[simp] theorem pend_ports (s : State) (i : Instr) (a : Arg) : (s.pend i a).ports = s.ports := rfl
@[simp] theorem pend_queues (s : State) (i : Instr) (a : Arg) : (s.pend i a).queues = s.queues := rfl
@[simp] theorem pend_launches (s : State) (i : Instr) (a : Arg) : (s.pend i a).launches = s.launches := rfl
@[simp] theorem pend_requeued (s : State) (i : Instr) (a : Arg) : (s.pend i a).requeued = s.requeued := rfl
@[simp] theorem pend_placing (s : State) (i : Instr) (a : Arg) : (s.pend i a).placing = s.placing := rfl
@[simp] theorem pend_resets (s : State) (i : Instr) (a : Arg) : (s.pend i a).resets = s.resets := rfl
@[simp] theorem pend_lent (s : State) (i : Instr) (a : Arg) : (s.pend i a).lent = s.lent := rfl
@[simp] theorem pend_freed (s : State) (i : Instr) (a : Arg) : (s.pend i a).freed = s.freed := rfl
@[simp] theorem pend_txn (s : State) (i : Instr) (a : Arg) : (s.pend i a).txn = s.txn := rfl
@[simp] theorem pend_arbs (s : State) (i : Instr) (a : Arg) : (s.pend i a).arbs = s.arbs := rfl
@[simp] theorem pend_svc (s : State) (i : Instr) (a : Arg) : (s.pend i a).svc = s.svc := rfl
@[simp] theorem pend_streams (s : State) (i : Instr) (a : Arg) : (s.pend i a).streams = s.streams := rfl
@[simp] theorem pend_stageQs (s : State) (i : Instr) (a : Arg) : (s.pend i a).stageQs = s.stageQs := rfl
@[simp] theorem pend_zonecfg (s : State) (i : Instr) (a : Arg) : (s.pend i a).zonecfg = s.zonecfg := rfl
@[simp] theorem pend_exch (s : State) (i : Instr) (a : Arg) : (s.pend i a).exch = s.exch := rfl
@[simp] theorem pend_flash (s : State) (i : Instr) (a : Arg) : (s.pend i a).flash = s.flash := rfl
@[simp] theorem pend_rollback (s : State) (i : Instr) (a : Arg) : (s.pend i a).rollback = s.rollback := rfl
@[simp] theorem pend_window (s : State) (i : Instr) (a : Arg) : (s.pend i a).window = s.window := rfl
@[simp] theorem pend_recovery (s : State) (i : Instr) (a : Arg) : (s.pend i a).recovery = s.recovery := rfl
@[simp] theorem pend_verified (s : State) (i : Instr) (a : Arg) : (s.pend i a).verified = s.verified := rfl
@[simp] theorem pend_strap (s : State) (i : Instr) (a : Arg) : (s.pend i a).strap = s.strap := rfl
@[simp] theorem pend_listed (s : State) (i : Instr) (a : Arg) : (s.pend i a).listed = s.listed := rfl
@[simp] theorem pend_boots (s : State) (i : Instr) (a : Arg) : (s.pend i a).boots = s.boots := rfl
@[simp] theorem pend_meas2 (s : State) (i : Instr) (a : Arg) : (s.pend i a).meas2 = s.meas2 := rfl
@[simp] theorem pend_portDown (s : State) (i : Instr) (a : Arg) : (s.pend i a).portDown = s.portDown := rfl
@[simp] theorem pend_sent (s : State) (i : Instr) (a : Arg) : (s.pend i a).sent = s.sent := rfl
@[simp] theorem pend_copies (s : State) (i : Instr) (a : Arg) : (s.pend i a).copies = s.copies := rfl
@[simp] theorem pend_holds (s : State) (i : Instr) (a : Arg) : (s.pend i a).holds = s.holds := rfl
@[simp] theorem pend_preempts (s : State) (i : Instr) (a : Arg) : (s.pend i a).preempts = s.preempts := rfl
@[simp] theorem pend_outlast (s : State) (i : Instr) (a : Arg) : (s.pend i a).outlast = s.outlast := rfl
@[simp] theorem pend_irqs (s : State) (i : Instr) (a : Arg) : (s.pend i a).irqs = s.irqs := rfl
@[simp] theorem pend_hostEvents (s : State) (i : Instr) (a : Arg) : (s.pend i a).hostEvents = s.hostEvents := rfl
@[simp] theorem pend_hostRead (s : State) (i : Instr) (a : Arg) : (s.pend i a).hostRead = s.hostRead := rfl

/-! ### after -/

@[simp] theorem after_now (s : State) (n : Nat) (i : Instr) (a : Arg) : (s.after n i a).now = s.now := rfl
@[simp] theorem after_cur (s : State) (n : Nat) (i : Instr) (a : Arg) : (s.after n i a).cur = s.cur := rfl
@[simp] theorem after_arg (s : State) (n : Nat) (i : Instr) (a : Arg) : (s.after n i a).arg = s.arg := rfl
@[simp] theorem after_power (s : State) (n : Nat) (i : Instr) (a : Arg) : (s.after n i a).power = s.power := rfl
@[simp] theorem after_agenda (s : State) (n : Nat) (i : Instr) (a : Arg) : (s.after n i a).agenda = s.agenda := rfl
@[simp] theorem after_pending (s : State) (n : Nat) (i : Instr) (a : Arg) : (s.after n i a).pending = s.pending := rfl
@[simp] theorem after_timers (s : State) (n : Nat) (i : Instr) (a : Arg) : (s.after n i a).timers = s.timers ++ [(s.now + n, ⟨i, a⟩)] := rfl
@[simp] theorem after_sched (s : State) (n : Nat) (i : Instr) (a : Arg) : (s.after n i a).sched = s.sched := rfl
@[simp] theorem after_free (s : State) (n : Nat) (i : Instr) (a : Arg) : (s.after n i a).free = s.free := rfl
@[simp] theorem after_nextId (s : State) (n : Nat) (i : Instr) (a : Arg) : (s.after n i a).nextId = s.nextId := rfl
@[simp] theorem after_tiles (s : State) (n : Nat) (i : Instr) (a : Arg) : (s.after n i a).tiles = s.tiles := rfl
@[simp] theorem after_dies (s : State) (n : Nat) (i : Instr) (a : Arg) : (s.after n i a).dies = s.dies := rfl
@[simp] theorem after_mem (s : State) (n : Nat) (i : Instr) (a : Arg) : (s.after n i a).mem = s.mem := rfl
@[simp] theorem after_ops (s : State) (n : Nat) (i : Instr) (a : Arg) : (s.after n i a).ops = s.ops := rfl
@[simp] theorem after_msgs (s : State) (n : Nat) (i : Instr) (a : Arg) : (s.after n i a).msgs = s.msgs := rfl
@[simp] theorem after_links (s : State) (n : Nat) (i : Instr) (a : Arg) : (s.after n i a).links = s.links := rfl
@[simp] theorem after_rr (s : State) (n : Nat) (i : Instr) (a : Arg) : (s.after n i a).rr = s.rr := rfl
@[simp] theorem after_ports (s : State) (n : Nat) (i : Instr) (a : Arg) : (s.after n i a).ports = s.ports := rfl
@[simp] theorem after_queues (s : State) (n : Nat) (i : Instr) (a : Arg) : (s.after n i a).queues = s.queues := rfl
@[simp] theorem after_launches (s : State) (n : Nat) (i : Instr) (a : Arg) : (s.after n i a).launches = s.launches := rfl
@[simp] theorem after_requeued (s : State) (n : Nat) (i : Instr) (a : Arg) : (s.after n i a).requeued = s.requeued := rfl
@[simp] theorem after_placing (s : State) (n : Nat) (i : Instr) (a : Arg) : (s.after n i a).placing = s.placing := rfl
@[simp] theorem after_resets (s : State) (n : Nat) (i : Instr) (a : Arg) : (s.after n i a).resets = s.resets := rfl
@[simp] theorem after_lent (s : State) (n : Nat) (i : Instr) (a : Arg) : (s.after n i a).lent = s.lent := rfl
@[simp] theorem after_freed (s : State) (n : Nat) (i : Instr) (a : Arg) : (s.after n i a).freed = s.freed := rfl
@[simp] theorem after_txn (s : State) (n : Nat) (i : Instr) (a : Arg) : (s.after n i a).txn = s.txn := rfl
@[simp] theorem after_arbs (s : State) (n : Nat) (i : Instr) (a : Arg) : (s.after n i a).arbs = s.arbs := rfl
@[simp] theorem after_svc (s : State) (n : Nat) (i : Instr) (a : Arg) : (s.after n i a).svc = s.svc := rfl
@[simp] theorem after_streams (s : State) (n : Nat) (i : Instr) (a : Arg) : (s.after n i a).streams = s.streams := rfl
@[simp] theorem after_stageQs (s : State) (n : Nat) (i : Instr) (a : Arg) : (s.after n i a).stageQs = s.stageQs := rfl
@[simp] theorem after_zonecfg (s : State) (n : Nat) (i : Instr) (a : Arg) : (s.after n i a).zonecfg = s.zonecfg := rfl
@[simp] theorem after_exch (s : State) (n : Nat) (i : Instr) (a : Arg) : (s.after n i a).exch = s.exch := rfl
@[simp] theorem after_flash (s : State) (n : Nat) (i : Instr) (a : Arg) : (s.after n i a).flash = s.flash := rfl
@[simp] theorem after_rollback (s : State) (n : Nat) (i : Instr) (a : Arg) : (s.after n i a).rollback = s.rollback := rfl
@[simp] theorem after_window (s : State) (n : Nat) (i : Instr) (a : Arg) : (s.after n i a).window = s.window := rfl
@[simp] theorem after_recovery (s : State) (n : Nat) (i : Instr) (a : Arg) : (s.after n i a).recovery = s.recovery := rfl
@[simp] theorem after_verified (s : State) (n : Nat) (i : Instr) (a : Arg) : (s.after n i a).verified = s.verified := rfl
@[simp] theorem after_strap (s : State) (n : Nat) (i : Instr) (a : Arg) : (s.after n i a).strap = s.strap := rfl
@[simp] theorem after_listed (s : State) (n : Nat) (i : Instr) (a : Arg) : (s.after n i a).listed = s.listed := rfl
@[simp] theorem after_boots (s : State) (n : Nat) (i : Instr) (a : Arg) : (s.after n i a).boots = s.boots := rfl
@[simp] theorem after_meas2 (s : State) (n : Nat) (i : Instr) (a : Arg) : (s.after n i a).meas2 = s.meas2 := rfl
@[simp] theorem after_portDown (s : State) (n : Nat) (i : Instr) (a : Arg) : (s.after n i a).portDown = s.portDown := rfl
@[simp] theorem after_sent (s : State) (n : Nat) (i : Instr) (a : Arg) : (s.after n i a).sent = s.sent := rfl
@[simp] theorem after_copies (s : State) (n : Nat) (i : Instr) (a : Arg) : (s.after n i a).copies = s.copies := rfl
@[simp] theorem after_holds (s : State) (n : Nat) (i : Instr) (a : Arg) : (s.after n i a).holds = s.holds := rfl
@[simp] theorem after_preempts (s : State) (n : Nat) (i : Instr) (a : Arg) : (s.after n i a).preempts = s.preempts := rfl
@[simp] theorem after_outlast (s : State) (n : Nat) (i : Instr) (a : Arg) : (s.after n i a).outlast = s.outlast := rfl
@[simp] theorem after_irqs (s : State) (n : Nat) (i : Instr) (a : Arg) : (s.after n i a).irqs = s.irqs := rfl
@[simp] theorem after_hostEvents (s : State) (n : Nat) (i : Instr) (a : Arg) : (s.after n i a).hostEvents = s.hostEvents := rfl
@[simp] theorem after_hostRead (s : State) (n : Nat) (i : Instr) (a : Arg) : (s.after n i a).hostRead = s.hostRead := rfl

/-! ### irq -/

@[simp] theorem irq_now (s : State) (d v : Nat) : (s.irq d v).now = s.now := rfl
@[simp] theorem irq_cur (s : State) (d v : Nat) : (s.irq d v).cur = s.cur := rfl
@[simp] theorem irq_arg (s : State) (d v : Nat) : (s.irq d v).arg = s.arg := rfl
@[simp] theorem irq_power (s : State) (d v : Nat) : (s.irq d v).power = s.power := rfl
@[simp] theorem irq_agenda (s : State) (d v : Nat) : (s.irq d v).agenda = s.agenda := rfl
@[simp] theorem irq_pending (s : State) (d v : Nat) : (s.irq d v).pending = s.pending := rfl
@[simp] theorem irq_timers (s : State) (d v : Nat) : (s.irq d v).timers = s.timers := rfl
@[simp] theorem irq_sched (s : State) (d v : Nat) : (s.irq d v).sched = s.sched := rfl
@[simp] theorem irq_free (s : State) (d v : Nat) : (s.irq d v).free = s.free := rfl
@[simp] theorem irq_nextId (s : State) (d v : Nat) : (s.irq d v).nextId = s.nextId := rfl
@[simp] theorem irq_tiles (s : State) (d v : Nat) : (s.irq d v).tiles = s.tiles := rfl
@[simp] theorem irq_dies (s : State) (d v : Nat) : (s.irq d v).dies = s.dies := rfl
@[simp] theorem irq_mem (s : State) (d v : Nat) : (s.irq d v).mem = s.mem := rfl
@[simp] theorem irq_ops (s : State) (d v : Nat) : (s.irq d v).ops = s.ops := rfl
@[simp] theorem irq_msgs (s : State) (d v : Nat) : (s.irq d v).msgs = s.msgs := rfl
@[simp] theorem irq_links (s : State) (d v : Nat) : (s.irq d v).links = s.links := rfl
@[simp] theorem irq_rr (s : State) (d v : Nat) : (s.irq d v).rr = s.rr := rfl
@[simp] theorem irq_ports (s : State) (d v : Nat) : (s.irq d v).ports = s.ports := rfl
@[simp] theorem irq_queues (s : State) (d v : Nat) : (s.irq d v).queues = s.queues := rfl
@[simp] theorem irq_launches (s : State) (d v : Nat) : (s.irq d v).launches = s.launches := rfl
@[simp] theorem irq_requeued (s : State) (d v : Nat) : (s.irq d v).requeued = s.requeued := rfl
@[simp] theorem irq_placing (s : State) (d v : Nat) : (s.irq d v).placing = s.placing := rfl
@[simp] theorem irq_resets (s : State) (d v : Nat) : (s.irq d v).resets = s.resets := rfl
@[simp] theorem irq_lent (s : State) (d v : Nat) : (s.irq d v).lent = s.lent := rfl
@[simp] theorem irq_freed (s : State) (d v : Nat) : (s.irq d v).freed = s.freed := rfl
@[simp] theorem irq_txn (s : State) (d v : Nat) : (s.irq d v).txn = s.txn := rfl
@[simp] theorem irq_arbs (s : State) (d v : Nat) : (s.irq d v).arbs = s.arbs := rfl
@[simp] theorem irq_svc (s : State) (d v : Nat) : (s.irq d v).svc = s.svc := rfl
@[simp] theorem irq_streams (s : State) (d v : Nat) : (s.irq d v).streams = s.streams := rfl
@[simp] theorem irq_stageQs (s : State) (d v : Nat) : (s.irq d v).stageQs = s.stageQs := rfl
@[simp] theorem irq_zonecfg (s : State) (d v : Nat) : (s.irq d v).zonecfg = s.zonecfg := rfl
@[simp] theorem irq_exch (s : State) (d v : Nat) : (s.irq d v).exch = s.exch := rfl
@[simp] theorem irq_flash (s : State) (d v : Nat) : (s.irq d v).flash = s.flash := rfl
@[simp] theorem irq_rollback (s : State) (d v : Nat) : (s.irq d v).rollback = s.rollback := rfl
@[simp] theorem irq_window (s : State) (d v : Nat) : (s.irq d v).window = s.window := rfl
@[simp] theorem irq_recovery (s : State) (d v : Nat) : (s.irq d v).recovery = s.recovery := rfl
@[simp] theorem irq_verified (s : State) (d v : Nat) : (s.irq d v).verified = s.verified := rfl
@[simp] theorem irq_strap (s : State) (d v : Nat) : (s.irq d v).strap = s.strap := rfl
@[simp] theorem irq_listed (s : State) (d v : Nat) : (s.irq d v).listed = s.listed := rfl
@[simp] theorem irq_boots (s : State) (d v : Nat) : (s.irq d v).boots = s.boots := rfl
@[simp] theorem irq_meas2 (s : State) (d v : Nat) : (s.irq d v).meas2 = s.meas2 := rfl
@[simp] theorem irq_portDown (s : State) (d v : Nat) : (s.irq d v).portDown = s.portDown := rfl
@[simp] theorem irq_sent (s : State) (d v : Nat) : (s.irq d v).sent = s.sent := rfl
@[simp] theorem irq_copies (s : State) (d v : Nat) : (s.irq d v).copies = s.copies := rfl
@[simp] theorem irq_holds (s : State) (d v : Nat) : (s.irq d v).holds = s.holds := rfl
@[simp] theorem irq_preempts (s : State) (d v : Nat) : (s.irq d v).preempts = s.preempts := rfl
@[simp] theorem irq_outlast (s : State) (d v : Nat) : (s.irq d v).outlast = s.outlast := rfl
@[simp] theorem irq_irqs (s : State) (d v : Nat) : (s.irq d v).irqs = s.irqs ++ [(d, v)] := rfl
@[simp] theorem irq_hostEvents (s : State) (d v : Nat) : (s.irq d v).hostEvents = s.hostEvents := rfl
@[simp] theorem irq_hostRead (s : State) (d v : Nat) : (s.irq d v).hostRead = s.hostRead := rfl

/-! ### Derived updates, in terms of the basic ones -/

@[simp] theorem updTile_eq (s : State) (t : Nat) (f : Tile → Tile) : s.updTile t f = s.setTile t (f (s.tile t)) := rfl
@[simp] theorem setCtx_eq (s : State) (t c : Nat) (k : Ctx) : s.setCtx t c k = s.setTile t ((s.tile t).setCtx c k) := rfl
@[simp] theorem updCtx_eq (s : State) (t c : Nat) (f : Ctx → Ctx) : s.updCtx t c f = s.setTile t ((s.tile t).setCtx c (f (s.ctx t c))) := rfl
@[simp] theorem updSync_eq (s : State) (t : Nat) (f : Sync → Sync) :
    s.updSync t f = s.setTile t { s.tile t with sync := f (s.tile t).sync } := rfl
@[simp] theorem updTrav_eq (s : State) (t : Nat) (f : Travel → Travel) :
    s.updTrav t f = s.setTile t { s.tile t with trav := f (s.tile t).trav } := rfl
@[simp] theorem updMx_eq (s : State) (t : Nat) (f : Matrix → Matrix) : s.updMx t f = s.setTile t { s.tile t with mx := f (s.tile t).mx } := rfl
@[simp] theorem updIssue_eq (s : State) (t : Nat) (f : Issue → Issue) :
    s.updIssue t f = s.setTile t { s.tile t with issue := f (s.tile t).issue } := rfl
@[simp] theorem updUn_eq (s : State) (t : Nat) (f : Units → Units) : s.updUn t f = s.setTile t { s.tile t with un := f (s.tile t).un } := rfl
@[simp] theorem updDie_eq (s : State) (d : Nat) (f : Die → Die) : s.updDie d f = s.setDie d (f (s.die d)) := rfl
@[simp] theorem updBar0_eq (s : State) (d : Nat) (f : Bar0 → Bar0) :
    s.updBar0 d f = s.setDie d { s.die d with bar0 := f (s.die d).bar0 } := rfl

/-! ### Accessors after updates -/

@[simp] theorem tile_setTile_same (s : State) (t : Nat) (x : Tile) : (s.setTile t x).tile t = x := fget_fset_same ..
theorem tile_setTile_ne (s : State) {t u : Nat} (x : Tile) (h : u ≠ t) : (s.setTile t x).tile u = s.tile u := fget_fset_ne _ _ _ h
@[simp] theorem setTile_setTile (s : State) (t : Nat) (x y : Tile) : (s.setTile t x).setTile t y = s.setTile t y := by
  simp [State.setTile]
@[simp] theorem tile_setDie (s : State) (d t : Nat) (x : Die) : (s.setDie d x).tile t = s.tile t := rfl
@[simp] theorem die_setDie_same (s : State) (d : Nat) (x : Die) : (s.setDie d x).die d = x := fget_fset_same ..
theorem die_setDie_ne (s : State) {d e : Nat} (x : Die) (h : e ≠ d) : (s.setDie d x).die e = s.die e := fget_fset_ne _ _ _ h
@[simp] theorem setDie_setDie (s : State) (d : Nat) (x y : Die) : (s.setDie d x).setDie d y = s.setDie d y := by simp [State.setDie]
@[simp] theorem die_setTile (s : State) (t d : Nat) (x : Tile) : (s.setTile t x).die d = s.die d := rfl
@[simp] theorem queue_updQueue_same (s : State) (q : Nat) (f : Queue → Queue) : (s.updQueue q f).queue q = f (s.queue q) :=
  fget_fset_same ..
theorem queue_updQueue_ne (s : State) {q r : Nat} (f : Queue → Queue) (h : r ≠ q) : (s.updQueue q f).queue r = s.queue r :=
  fget_fset_ne _ _ _ h
@[simp] theorem launch_updLaunch_same (s : State) (l : Nat) (f : Launch → Launch) : (s.updLaunch l f).launch l = f (s.launch l) :=
  fget_fset_same ..
theorem launch_updLaunch_ne (s : State) {l m : Nat} (f : Launch → Launch) (h : m ≠ l) : (s.updLaunch l f).launch m = s.launch m :=
  fget_fset_ne _ _ _ h
@[simp] theorem op?_setOp_same (s : State) (i : Nat) (o : Op) : (s.setOp i o).op? i = some o := fget?_fset_same ..
theorem op?_setOp_ne (s : State) {i j : Nat} (o : Op) (h : j ≠ i) : (s.setOp i o).op? j = s.op? j := fget?_fset_ne _ _ h
@[simp] theorem op?_delOp_same (s : State) (i : Nat) : (s.delOp i).op? i = none := fget?_fdel_same ..
@[simp] theorem ctx_setCtx_same (x : Tile) (c : Nat) (k : Ctx) : (x.setCtx c k).ctx c = k := fget_fset_same ..
theorem ctx_setCtx_ne (x : Tile) {c d : Nat} (k : Ctx) (h : d ≠ c) : (x.setCtx c k).ctx d = x.ctx d := fget_fset_ne _ _ _ h
@[simp] theorem setCtx_setCtx (x : Tile) (c : Nat) (k l : Ctx) : (x.setCtx c k).setCtx c l = x.setCtx c l := by simp [Tile.setCtx]
@[simp] theorem cur_setMe (s : State) (k : Ctx) : (s.setMe k).cur = s.cur := rfl
@[simp] theorem me_setMe (s : State) (k : Ctx) : (s.setMe k).me = k := by
  simp [State.setMe, State.me, State.ctx]
/-- The last of two changes of the issuing context stands. -/
@[simp] theorem setMe_setMe (s : State) (k l : Ctx) : (s.setMe k).setMe l = s.setMe l := by
  simp [State.setMe]
/-- A changed issuing context is the old one, replaced. -/
theorem updMe_eq (s : State) (f : Ctx → Ctx) : s.updMe f = s.setMe (f s.me) := rfl
/-- Another context is untouched when the issuing one is replaced. -/
theorem ctx_setMe_ne (s : State) (k : Ctx) {t c : Nat} (h : (t, c) ≠ s.cur) : (s.setMe k).ctx t c = s.ctx t c := by
  simp only [State.setMe, State.ctx, setCtx_eq]
  by_cases ht : t = s.cur.1
  · subst ht
    have hc : c ≠ s.cur.2 := fun e => h (by rw [e])
    simp [ctx_setCtx_ne _ _ hc]
  · rw [tile_setTile_ne _ _ ht]

@[simp] theorem setMe_now (s : State) (k : Ctx) : (s.setMe k).now = s.now := rfl
@[simp] theorem setMe_arg (s : State) (k : Ctx) : (s.setMe k).arg = s.arg := rfl
@[simp] theorem setMe_power (s : State) (k : Ctx) : (s.setMe k).power = s.power := rfl
@[simp] theorem setMe_agenda (s : State) (k : Ctx) : (s.setMe k).agenda = s.agenda := rfl
@[simp] theorem setMe_pending (s : State) (k : Ctx) : (s.setMe k).pending = s.pending := rfl
@[simp] theorem setMe_timers (s : State) (k : Ctx) : (s.setMe k).timers = s.timers := rfl
@[simp] theorem setMe_sched (s : State) (k : Ctx) : (s.setMe k).sched = s.sched := rfl
@[simp] theorem setMe_free (s : State) (k : Ctx) : (s.setMe k).free = s.free := rfl
@[simp] theorem setMe_nextId (s : State) (k : Ctx) : (s.setMe k).nextId = s.nextId := rfl
@[simp] theorem setMe_dies (s : State) (k : Ctx) : (s.setMe k).dies = s.dies := rfl
@[simp] theorem setMe_mem (s : State) (k : Ctx) : (s.setMe k).mem = s.mem := rfl
@[simp] theorem setMe_ops (s : State) (k : Ctx) : (s.setMe k).ops = s.ops := rfl
@[simp] theorem setMe_msgs (s : State) (k : Ctx) : (s.setMe k).msgs = s.msgs := rfl
@[simp] theorem setMe_links (s : State) (k : Ctx) : (s.setMe k).links = s.links := rfl
@[simp] theorem setMe_rr (s : State) (k : Ctx) : (s.setMe k).rr = s.rr := rfl
@[simp] theorem setMe_ports (s : State) (k : Ctx) : (s.setMe k).ports = s.ports := rfl
@[simp] theorem setMe_queues (s : State) (k : Ctx) : (s.setMe k).queues = s.queues := rfl
@[simp] theorem setMe_launches (s : State) (k : Ctx) : (s.setMe k).launches = s.launches := rfl
@[simp] theorem setMe_requeued (s : State) (k : Ctx) : (s.setMe k).requeued = s.requeued := rfl
@[simp] theorem setMe_placing (s : State) (k : Ctx) : (s.setMe k).placing = s.placing := rfl
@[simp] theorem setMe_resets (s : State) (k : Ctx) : (s.setMe k).resets = s.resets := rfl
@[simp] theorem setMe_lent (s : State) (k : Ctx) : (s.setMe k).lent = s.lent := rfl
@[simp] theorem setMe_freed (s : State) (k : Ctx) : (s.setMe k).freed = s.freed := rfl
@[simp] theorem setMe_txn (s : State) (k : Ctx) : (s.setMe k).txn = s.txn := rfl
@[simp] theorem setMe_arbs (s : State) (k : Ctx) : (s.setMe k).arbs = s.arbs := rfl
@[simp] theorem setMe_svc (s : State) (k : Ctx) : (s.setMe k).svc = s.svc := rfl
@[simp] theorem setMe_streams (s : State) (k : Ctx) : (s.setMe k).streams = s.streams := rfl
@[simp] theorem setMe_stageQs (s : State) (k : Ctx) : (s.setMe k).stageQs = s.stageQs := rfl
@[simp] theorem setMe_zonecfg (s : State) (k : Ctx) : (s.setMe k).zonecfg = s.zonecfg := rfl
@[simp] theorem setMe_exch (s : State) (k : Ctx) : (s.setMe k).exch = s.exch := rfl
@[simp] theorem setMe_flash (s : State) (k : Ctx) : (s.setMe k).flash = s.flash := rfl
@[simp] theorem setMe_rollback (s : State) (k : Ctx) : (s.setMe k).rollback = s.rollback := rfl
@[simp] theorem setMe_window (s : State) (k : Ctx) : (s.setMe k).window = s.window := rfl
@[simp] theorem setMe_recovery (s : State) (k : Ctx) : (s.setMe k).recovery = s.recovery := rfl
@[simp] theorem setMe_verified (s : State) (k : Ctx) : (s.setMe k).verified = s.verified := rfl
@[simp] theorem setMe_strap (s : State) (k : Ctx) : (s.setMe k).strap = s.strap := rfl
@[simp] theorem setMe_listed (s : State) (k : Ctx) : (s.setMe k).listed = s.listed := rfl
@[simp] theorem setMe_boots (s : State) (k : Ctx) : (s.setMe k).boots = s.boots := rfl
@[simp] theorem setMe_meas2 (s : State) (k : Ctx) : (s.setMe k).meas2 = s.meas2 := rfl
@[simp] theorem setMe_portDown (s : State) (k : Ctx) : (s.setMe k).portDown = s.portDown := rfl
@[simp] theorem setMe_sent (s : State) (k : Ctx) : (s.setMe k).sent = s.sent := rfl
@[simp] theorem setMe_copies (s : State) (k : Ctx) : (s.setMe k).copies = s.copies := rfl
@[simp] theorem setMe_holds (s : State) (k : Ctx) : (s.setMe k).holds = s.holds := rfl
@[simp] theorem setMe_preempts (s : State) (k : Ctx) : (s.setMe k).preempts = s.preempts := rfl
@[simp] theorem setMe_outlast (s : State) (k : Ctx) : (s.setMe k).outlast = s.outlast := rfl
@[simp] theorem setMe_irqs (s : State) (k : Ctx) : (s.setMe k).irqs = s.irqs := rfl
@[simp] theorem setMe_hostEvents (s : State) (k : Ctx) : (s.setMe k).hostEvents = s.hostEvents := rfl
@[simp] theorem setMe_hostRead (s : State) (k : Ctx) : (s.setMe k).hostRead = s.hostRead := rfl

/-! ### An issuing context that completes its instruction (R340, R456) -/

@[simp] theorem retire_status (k : Ctx) (n : Nat) : (k.retire n).status = k.status := by
  unfold Ctx.retire Ctx.seqPc; dsimp only; (repeat' split) <;> rfl
@[simp] theorem retire_lidx (k : Ctx) (n : Nat) : (k.retire n).lidx = k.lidx := by
  unfold Ctx.retire Ctx.seqPc; dsimp only; (repeat' split) <;> rfl
@[simp] theorem retire_windex (k : Ctx) (n : Nat) : (k.retire n).windex = k.windex := by
  unfold Ctx.retire Ctx.seqPc; dsimp only; (repeat' split) <;> rfl
@[simp] theorem retire_ctl (k : Ctx) (n : Nat) : (k.retire n).ctl = k.ctl := by
  unfold Ctx.retire Ctx.seqPc; dsimp only; (repeat' split) <;> rfl
@[simp] theorem retire_gang (k : Ctx) (n : Nat) : (k.retire n).gang = k.gang := by
  unfold Ctx.retire Ctx.seqPc; dsimp only; (repeat' split) <;> rfl
@[simp] theorem retire_flight (k : Ctx) (n : Nat) : (k.retire n).flight = k.flight := by
  unfold Ctx.retire Ctx.seqPc; dsimp only; (repeat' split) <;> rfl
@[simp] theorem retire_dseq (k : Ctx) (n : Nat) : (k.retire n).dseq = k.dseq := by
  unfold Ctx.retire Ctx.seqPc; dsimp only; (repeat' split) <;> rfl
@[simp] theorem retire_ring (k : Ctx) (n : Nat) : (k.retire n).ring = k.ring := by
  unfold Ctx.retire Ctx.seqPc; dsimp only; (repeat' split) <;> rfl
@[simp] theorem retire_uiq (k : Ctx) (n : Nat) : (k.retire n).uiq = k.uiq := by
  unfold Ctx.retire Ctx.seqPc; dsimp only; (repeat' split) <;> rfl
@[simp] theorem retire_deferred (k : Ctx) (n : Nat) : (k.retire n).deferred = k.deferred := by
  unfold Ctx.retire Ctx.seqPc; dsimp only; (repeat' split) <;> rfl
@[simp] theorem retire_hdr (k : Ctx) (n : Nat) : (k.retire n).hdr = k.hdr := by
  unfold Ctx.retire Ctx.seqPc; dsimp only; (repeat' split) <;> rfl
@[simp] theorem retire_busyS (k : Ctx) (n : Nat) : (k.retire n).busyS = k.busyS := by
  unfold Ctx.retire Ctx.seqPc; dsimp only; (repeat' split) <;> rfl
@[simp] theorem retire_busyV (k : Ctx) (n : Nat) : (k.retire n).busyV = k.busyV := by
  unfold Ctx.retire Ctx.seqPc; dsimp only; (repeat' split) <;> rfl
@[simp] theorem retire_busyM (k : Ctx) (n : Nat) : (k.retire n).busyM = k.busyM := by
  unfold Ctx.retire Ctx.seqPc; dsimp only; (repeat' split) <;> rfl
@[simp] theorem retire_barPhase (k : Ctx) (n : Nat) : (k.retire n).barPhase = k.barPhase := by
  unfold Ctx.retire Ctx.seqPc; dsimp only; (repeat' split) <;> rfl
@[simp] theorem retire_trapT (k : Ctx) (n : Nat) : (k.retire n).trapT = k.trapT := by
  unfold Ctx.retire Ctx.seqPc; dsimp only; (repeat' split) <;> rfl
@[simp] theorem retire_mst (k : Ctx) (n : Nat) : (k.retire n).mst = k.mst := by
  unfold Ctx.retire Ctx.seqPc; dsimp only; (repeat' split) <;> rfl
@[simp] theorem retire_msteps (k : Ctx) (n : Nat) : (k.retire n).msteps = k.msteps := by
  unfold Ctx.retire Ctx.seqPc; dsimp only; (repeat' split) <;> rfl
@[simp] theorem retire_mchunks (k : Ctx) (n : Nat) : (k.retire n).mchunks = k.mchunks := by
  unfold Ctx.retire Ctx.seqPc; dsimp only; (repeat' split) <;> rfl
@[simp] theorem retire_urgent (k : Ctx) (n : Nat) : (k.retire n).urgent = k.urgent := by
  unfold Ctx.retire Ctx.seqPc; dsimp only; (repeat' split) <;> rfl
@[simp] theorem retire_age (k : Ctx) (n : Nat) : (k.retire n).age = k.age := by
  unfold Ctx.retire Ctx.seqPc; dsimp only; (repeat' split) <;> rfl
@[simp] theorem retire_yielded (k : Ctx) (n : Nat) : (k.retire n).yielded = k.yielded := by
  unfold Ctx.retire Ctx.seqPc; dsimp only; (repeat' split) <;> rfl
@[simp] theorem retire_issuedAt (k : Ctx) (n : Nat) : (k.retire n).issuedAt = k.issuedAt := by
  unfold Ctx.retire Ctx.seqPc; dsimp only; (repeat' split) <;> rfl
@[simp] theorem retire_readyT (k : Ctx) (n : Nat) : (k.retire n).readyT = k.readyT := by
  unfold Ctx.retire Ctx.seqPc; dsimp only; (repeat' split) <;> rfl
@[simp] theorem retire_live (k : Ctx) (n : Nat) : (k.retire n).live = k.live := by
  unfold Ctx.retire Ctx.seqPc; dsimp only; (repeat' split) <;> rfl
@[simp] theorem retire_liveAcc (k : Ctx) (n : Nat) : (k.retire n).liveAcc = k.liveAcc := by
  unfold Ctx.retire Ctx.seqPc; dsimp only; (repeat' split) <;> rfl
@[simp] theorem retire_frec (k : Ctx) (n : Nat) : (k.retire n).frec = k.frec := by
  unfold Ctx.retire Ctx.seqPc; dsimp only; (repeat' split) <;> rfl
@[simp] theorem retire_onFault (k : Ctx) (n : Nat) : (k.retire n).onFault = k.onFault := by
  unfold Ctx.retire Ctx.seqPc; dsimp only; (repeat' split) <;> rfl
@[simp] theorem retire_regs_s (k : Ctx) (n : Nat) : (k.retire n).regs.s = k.regs.s := by
  unfold Ctx.retire Ctx.seqPc; dsimp only; (repeat' split) <;> rfl
@[simp] theorem retire_regs_sp (k : Ctx) (n : Nat) : (k.retire n).regs.sp = k.regs.sp := by
  unfold Ctx.retire Ctx.seqPc; dsimp only; (repeat' split) <;> rfl
@[simp] theorem retire_regs_pw (k : Ctx) (n : Nat) : (k.retire n).regs.pw = k.regs.pw := by
  unfold Ctx.retire Ctx.seqPc; dsimp only; (repeat' split) <;> rfl
@[simp] theorem retire_regs_v (k : Ctx) (n : Nat) : (k.retire n).regs.v = k.regs.v := by
  unfold Ctx.retire Ctx.seqPc; dsimp only; (repeat' split) <;> rfl
@[simp] theorem retire_regs_m (k : Ctx) (n : Nat) : (k.retire n).regs.m = k.regs.m := by
  unfold Ctx.retire Ctx.seqPc; dsimp only; (repeat' split) <;> rfl
@[simp] theorem retire_regs_exec (k : Ctx) (n : Nat) : (k.retire n).regs.exec = k.regs.exec := by
  unfold Ctx.retire Ctx.seqPc; dsimp only; (repeat' split) <;> rfl
@[simp] theorem retire_regs_dstack (k : Ctx) (n : Nat) : (k.retire n).regs.dstack = k.regs.dstack := by
  unfold Ctx.retire Ctx.seqPc; dsimp only; (repeat' split) <;> rfl
@[simp] theorem retire_regs_q (k : Ctx) (n : Nat) : (k.retire n).regs.q = k.regs.q := by
  unfold Ctx.retire Ctx.seqPc; dsimp only; (repeat' split) <;> rfl
@[simp] theorem retire_regs_blocks (k : Ctx) (n : Nat) : (k.retire n).regs.blocks = k.regs.blocks := by
  unfold Ctx.retire Ctx.seqPc; dsimp only; (repeat' split) <;> rfl
@[simp] theorem retire_regs_st (k : Ctx) (n : Nat) : (k.retire n).regs.st = k.regs.st := by
  unfold Ctx.retire Ctx.seqPc; dsimp only; (repeat' split) <;> rfl
@[simp] theorem retire_regs_tm (k : Ctx) (n : Nat) : (k.retire n).regs.tm = k.regs.tm := by
  unfold Ctx.retire Ctx.seqPc; dsimp only; (repeat' split) <;> rfl
/-- Without a repeat buffer the PC advances by the length. -/
theorem retire_pc (k : Ctx) (n : Nat) (h : k.rep = none) : (k.retire n).regs.pc = k.regs.pc + BitVec.ofNat 48 n := by
  simp [Ctx.retire, Ctx.seqPc, Ctx.settle, h]
@[simp] theorem jump_pc (k : Ctx) (pc : BitVec 48) : (k.jump pc).regs.pc = pc := rfl
@[simp] theorem jump_regs_s (k : Ctx) (pc : BitVec 48) : (k.jump pc).regs.s = k.regs.s := rfl
@[simp] theorem jump_ctl (k : Ctx) (pc : BitVec 48) : (k.jump pc).ctl = k.ctl := rfl
@[simp] theorem jump_status (k : Ctx) (pc : BitVec 48) : (k.jump pc).status = k.status := rfl

/-! ### Registers (R347) -/

/-- sz reads as zero. -/
@[simp] theorem raw_sz (k : Ctx) : k.raw 63 = 0#32 := rfl
/-- A write to sz is discarded. -/
@[simp] theorem wrP_sz (k : Ctx) (v : Word) (p : Bool) : k.wrP 63 v p = k := rfl
@[simp] theorem raw_wrP_same (k : Ctx) (r : Nat) (v : Word) (p : Bool) (h : r ≠ 63) : (k.wrP r v p).raw r = v := by
  simp [Ctx.wrP, Ctx.raw, h]
/-- Other scalars are untouched. -/
theorem raw_wrP_ne (k : Ctx) {r i : Nat} (v : Word) (p : Bool) (h : i ≠ r) : (k.wrP r v p).raw i = k.raw i := by
  unfold Ctx.wrP Ctx.raw
  split
  · rfl
  · split
    · rfl
    · exact fget_fset_ne _ _ _ h
/-- m0 reads as all ones. -/
@[simp] theorem mreg_zero (k : Ctx) : k.mreg 0 = 0xFFFFFFFF#32 := rfl
/-- A write to m0 is discarded. -/
@[simp] theorem wrM_zero (k : Ctx) (v : Word) : k.wrM 0 v = k := rfl
@[simp] theorem mreg_wrM_same (k : Ctx) (n : Nat) (v : Word) (h : n ≠ 0) : (k.wrM n v).mreg n = v := by
  simp [Ctx.wrM, Ctx.mreg, h]
@[simp] theorem vreg_wrV_same (k : Ctx) (r : Nat) (v : VReg) : (k.wrV r v).vreg r = v := fget_fset_same ..
/-- Other vector registers are untouched. -/
theorem vreg_wrV_ne (k : Ctx) {r i : Nat} (v : VReg) (h : i ≠ r) : (k.wrV r v).vreg i = k.vreg i := fget_fset_ne _ _ _ h

@[simp] theorem wrP_status (k : Ctx) (r : Nat) (v : Word) (p : Bool) : (k.wrP r v p).status = k.status := by
  unfold Ctx.wrP; split <;> rfl
@[simp] theorem wrP_lidx (k : Ctx) (r : Nat) (v : Word) (p : Bool) : (k.wrP r v p).lidx = k.lidx := by
  unfold Ctx.wrP; split <;> rfl
@[simp] theorem wrP_windex (k : Ctx) (r : Nat) (v : Word) (p : Bool) : (k.wrP r v p).windex = k.windex := by
  unfold Ctx.wrP; split <;> rfl
@[simp] theorem wrP_ctl (k : Ctx) (r : Nat) (v : Word) (p : Bool) : (k.wrP r v p).ctl = k.ctl := by
  unfold Ctx.wrP; split <;> rfl
@[simp] theorem wrP_gang (k : Ctx) (r : Nat) (v : Word) (p : Bool) : (k.wrP r v p).gang = k.gang := by
  unfold Ctx.wrP; split <;> rfl
@[simp] theorem wrP_flight (k : Ctx) (r : Nat) (v : Word) (p : Bool) : (k.wrP r v p).flight = k.flight := by
  unfold Ctx.wrP; split <;> rfl
@[simp] theorem wrP_dseq (k : Ctx) (r : Nat) (v : Word) (p : Bool) : (k.wrP r v p).dseq = k.dseq := by
  unfold Ctx.wrP; split <;> rfl
@[simp] theorem wrP_ring (k : Ctx) (r : Nat) (v : Word) (p : Bool) : (k.wrP r v p).ring = k.ring := by
  unfold Ctx.wrP; split <;> rfl
@[simp] theorem wrP_rep (k : Ctx) (r : Nat) (v : Word) (p : Bool) : (k.wrP r v p).rep = k.rep := by
  unfold Ctx.wrP; split <;> rfl
@[simp] theorem wrP_uiq (k : Ctx) (r : Nat) (v : Word) (p : Bool) : (k.wrP r v p).uiq = k.uiq := by
  unfold Ctx.wrP; split <;> rfl
@[simp] theorem wrP_deferred (k : Ctx) (r : Nat) (v : Word) (p : Bool) : (k.wrP r v p).deferred = k.deferred := by
  unfold Ctx.wrP; split <;> rfl
@[simp] theorem wrP_hdr (k : Ctx) (r : Nat) (v : Word) (p : Bool) : (k.wrP r v p).hdr = k.hdr := by
  unfold Ctx.wrP; split <;> rfl
@[simp] theorem wrP_busyS (k : Ctx) (r : Nat) (v : Word) (p : Bool) : (k.wrP r v p).busyS = k.busyS := by
  unfold Ctx.wrP; split <;> rfl
@[simp] theorem wrP_busyV (k : Ctx) (r : Nat) (v : Word) (p : Bool) : (k.wrP r v p).busyV = k.busyV := by
  unfold Ctx.wrP; split <;> rfl
@[simp] theorem wrP_busyM (k : Ctx) (r : Nat) (v : Word) (p : Bool) : (k.wrP r v p).busyM = k.busyM := by
  unfold Ctx.wrP; split <;> rfl
@[simp] theorem wrP_barPhase (k : Ctx) (r : Nat) (v : Word) (p : Bool) : (k.wrP r v p).barPhase = k.barPhase := by
  unfold Ctx.wrP; split <;> rfl
@[simp] theorem wrP_waitOn (k : Ctx) (r : Nat) (v : Word) (p : Bool) : (k.wrP r v p).waitOn = k.waitOn := by
  unfold Ctx.wrP; split <;> rfl
@[simp] theorem wrP_answer (k : Ctx) (r : Nat) (v : Word) (p : Bool) : (k.wrP r v p).answer = k.answer := by
  unfold Ctx.wrP; split <;> rfl
@[simp] theorem wrP_counted (k : Ctx) (r : Nat) (v : Word) (p : Bool) : (k.wrP r v p).counted = k.counted := by
  unfold Ctx.wrP; split <;> rfl
@[simp] theorem wrP_trapT (k : Ctx) (r : Nat) (v : Word) (p : Bool) : (k.wrP r v p).trapT = k.trapT := by
  unfold Ctx.wrP; split <;> rfl
@[simp] theorem wrP_mst (k : Ctx) (r : Nat) (v : Word) (p : Bool) : (k.wrP r v p).mst = k.mst := by
  unfold Ctx.wrP; split <;> rfl
@[simp] theorem wrP_msteps (k : Ctx) (r : Nat) (v : Word) (p : Bool) : (k.wrP r v p).msteps = k.msteps := by
  unfold Ctx.wrP; split <;> rfl
@[simp] theorem wrP_mchunks (k : Ctx) (r : Nat) (v : Word) (p : Bool) : (k.wrP r v p).mchunks = k.mchunks := by
  unfold Ctx.wrP; split <;> rfl
@[simp] theorem wrP_urgent (k : Ctx) (r : Nat) (v : Word) (p : Bool) : (k.wrP r v p).urgent = k.urgent := by
  unfold Ctx.wrP; split <;> rfl
@[simp] theorem wrP_age (k : Ctx) (r : Nat) (v : Word) (p : Bool) : (k.wrP r v p).age = k.age := by
  unfold Ctx.wrP; split <;> rfl
@[simp] theorem wrP_yielded (k : Ctx) (r : Nat) (v : Word) (p : Bool) : (k.wrP r v p).yielded = k.yielded := by
  unfold Ctx.wrP; split <;> rfl
@[simp] theorem wrP_issuedAt (k : Ctx) (r : Nat) (v : Word) (p : Bool) : (k.wrP r v p).issuedAt = k.issuedAt := by
  unfold Ctx.wrP; split <;> rfl
@[simp] theorem wrP_readyT (k : Ctx) (r : Nat) (v : Word) (p : Bool) : (k.wrP r v p).readyT = k.readyT := by
  unfold Ctx.wrP; split <;> rfl
@[simp] theorem wrP_live (k : Ctx) (r : Nat) (v : Word) (p : Bool) : (k.wrP r v p).live = k.live := by
  unfold Ctx.wrP; split <;> rfl
@[simp] theorem wrP_liveAcc (k : Ctx) (r : Nat) (v : Word) (p : Bool) : (k.wrP r v p).liveAcc = k.liveAcc := by
  unfold Ctx.wrP; split <;> rfl
@[simp] theorem wrP_frec (k : Ctx) (r : Nat) (v : Word) (p : Bool) : (k.wrP r v p).frec = k.frec := by
  unfold Ctx.wrP; split <;> rfl
@[simp] theorem wrP_onFault (k : Ctx) (r : Nat) (v : Word) (p : Bool) : (k.wrP r v p).onFault = k.onFault := by
  unfold Ctx.wrP; split <;> rfl
@[simp] theorem wrP_regs_pc (k : Ctx) (r : Nat) (v : Word) (p : Bool) : (k.wrP r v p).regs.pc = k.regs.pc := by
  unfold Ctx.wrP; split <;> rfl
@[simp] theorem wrP_regs_pw (k : Ctx) (r : Nat) (v : Word) (p : Bool) : (k.wrP r v p).regs.pw = k.regs.pw := by
  unfold Ctx.wrP; split <;> rfl
@[simp] theorem wrP_regs_v (k : Ctx) (r : Nat) (v : Word) (p : Bool) : (k.wrP r v p).regs.v = k.regs.v := by
  unfold Ctx.wrP; split <;> rfl
@[simp] theorem wrP_regs_m (k : Ctx) (r : Nat) (v : Word) (p : Bool) : (k.wrP r v p).regs.m = k.regs.m := by
  unfold Ctx.wrP; split <;> rfl
@[simp] theorem wrP_regs_exec (k : Ctx) (r : Nat) (v : Word) (p : Bool) : (k.wrP r v p).regs.exec = k.regs.exec := by
  unfold Ctx.wrP; split <;> rfl
@[simp] theorem wrP_regs_dstack (k : Ctx) (r : Nat) (v : Word) (p : Bool) : (k.wrP r v p).regs.dstack = k.regs.dstack := by
  unfold Ctx.wrP; split <;> rfl
@[simp] theorem wrP_regs_q (k : Ctx) (r : Nat) (v : Word) (p : Bool) : (k.wrP r v p).regs.q = k.regs.q := by
  unfold Ctx.wrP; split <;> rfl
@[simp] theorem wrP_regs_blocks (k : Ctx) (r : Nat) (v : Word) (p : Bool) : (k.wrP r v p).regs.blocks = k.regs.blocks := by
  unfold Ctx.wrP; split <;> rfl
@[simp] theorem wrP_regs_st (k : Ctx) (r : Nat) (v : Word) (p : Bool) : (k.wrP r v p).regs.st = k.regs.st := by
  unfold Ctx.wrP; split <;> rfl
@[simp] theorem wrP_regs_tm (k : Ctx) (r : Nat) (v : Word) (p : Bool) : (k.wrP r v p).regs.tm = k.regs.tm := by
  unfold Ctx.wrP; split <;> rfl
/-! ### The parts of the state that an update of another part leaves -/

@[simp] theorem pend_tile (s : State) (i : Instr) (a : Arg) (t : Nat) : (s.pend i a).tile t = s.tile t := rfl
@[simp] theorem pend_ctx (s : State) (i : Instr) (a : Arg) (t c : Nat) : (s.pend i a).ctx t c = s.ctx t c := rfl
@[simp] theorem pend_me (s : State) (i : Instr) (a : Arg) : (s.pend i a).me = s.me := rfl
@[simp] theorem pend_die (s : State) (i : Instr) (a : Arg) (e : Nat) : (s.pend i a).die e = s.die e := rfl
@[simp] theorem pend_queue (s : State) (i : Instr) (a : Arg) (r : Nat) : (s.pend i a).queue r = s.queue r := rfl
@[simp] theorem pend_launch (s : State) (i : Instr) (a : Arg) (m : Nat) : (s.pend i a).launch m = s.launch m := rfl
@[simp] theorem pend_op? (s : State) (i : Instr) (a : Arg) (j : Nat) : (s.pend i a).op? j = s.op? j := rfl
@[simp] theorem after_tile (s : State) (n : Nat) (i : Instr) (a : Arg) (t : Nat) : (s.after n i a).tile t = s.tile t := rfl
@[simp] theorem after_ctx (s : State) (n : Nat) (i : Instr) (a : Arg) (t c : Nat) : (s.after n i a).ctx t c = s.ctx t c := rfl
@[simp] theorem after_me (s : State) (n : Nat) (i : Instr) (a : Arg) : (s.after n i a).me = s.me := rfl
@[simp] theorem after_die (s : State) (n : Nat) (i : Instr) (a : Arg) (e : Nat) : (s.after n i a).die e = s.die e := rfl
@[simp] theorem after_queue (s : State) (n : Nat) (i : Instr) (a : Arg) (r : Nat) : (s.after n i a).queue r = s.queue r := rfl
@[simp] theorem after_launch (s : State) (n : Nat) (i : Instr) (a : Arg) (m : Nat) : (s.after n i a).launch m = s.launch m := rfl
@[simp] theorem after_op? (s : State) (n : Nat) (i : Instr) (a : Arg) (j : Nat) : (s.after n i a).op? j = s.op? j := rfl
@[simp] theorem irq_tile (s : State) (d v : Nat) (t : Nat) : (s.irq d v).tile t = s.tile t := rfl
@[simp] theorem irq_ctx (s : State) (d v : Nat) (t c : Nat) : (s.irq d v).ctx t c = s.ctx t c := rfl
@[simp] theorem irq_me (s : State) (d v : Nat) : (s.irq d v).me = s.me := rfl
@[simp] theorem irq_die (s : State) (d v : Nat) (e : Nat) : (s.irq d v).die e = s.die e := rfl
@[simp] theorem irq_queue (s : State) (d v : Nat) (r : Nat) : (s.irq d v).queue r = s.queue r := rfl
@[simp] theorem irq_launch (s : State) (d v : Nat) (m : Nat) : (s.irq d v).launch m = s.launch m := rfl
@[simp] theorem irq_op? (s : State) (d v : Nat) (j : Nat) : (s.irq d v).op? j = s.op? j := rfl
@[simp] theorem setOp_tile (s : State) (i : Nat) (x : Op) (t : Nat) : (s.setOp i x).tile t = s.tile t := rfl
@[simp] theorem setOp_ctx (s : State) (i : Nat) (x : Op) (t c : Nat) : (s.setOp i x).ctx t c = s.ctx t c := rfl
@[simp] theorem setOp_me (s : State) (i : Nat) (x : Op) : (s.setOp i x).me = s.me := rfl
@[simp] theorem setOp_die (s : State) (i : Nat) (x : Op) (e : Nat) : (s.setOp i x).die e = s.die e := rfl
@[simp] theorem setOp_queue (s : State) (i : Nat) (x : Op) (r : Nat) : (s.setOp i x).queue r = s.queue r := rfl
@[simp] theorem setOp_launch (s : State) (i : Nat) (x : Op) (m : Nat) : (s.setOp i x).launch m = s.launch m := rfl
@[simp] theorem delOp_tile (s : State) (i : Nat) (t : Nat) : (s.delOp i).tile t = s.tile t := rfl
@[simp] theorem delOp_ctx (s : State) (i : Nat) (t c : Nat) : (s.delOp i).ctx t c = s.ctx t c := rfl
@[simp] theorem delOp_me (s : State) (i : Nat) : (s.delOp i).me = s.me := rfl
@[simp] theorem delOp_die (s : State) (i : Nat) (e : Nat) : (s.delOp i).die e = s.die e := rfl
@[simp] theorem delOp_queue (s : State) (i : Nat) (r : Nat) : (s.delOp i).queue r = s.queue r := rfl
@[simp] theorem delOp_launch (s : State) (i : Nat) (m : Nat) : (s.delOp i).launch m = s.launch m := rfl
@[simp] theorem updMem_tile (s : State) (f : Mems → Mems) (t : Nat) : (s.updMem f).tile t = s.tile t := rfl
@[simp] theorem updMem_ctx (s : State) (f : Mems → Mems) (t c : Nat) : (s.updMem f).ctx t c = s.ctx t c := rfl
@[simp] theorem updMem_me (s : State) (f : Mems → Mems) : (s.updMem f).me = s.me := rfl
@[simp] theorem updMem_die (s : State) (f : Mems → Mems) (e : Nat) : (s.updMem f).die e = s.die e := rfl
@[simp] theorem updMem_queue (s : State) (f : Mems → Mems) (r : Nat) : (s.updMem f).queue r = s.queue r := rfl
@[simp] theorem updMem_launch (s : State) (f : Mems → Mems) (m : Nat) : (s.updMem f).launch m = s.launch m := rfl
@[simp] theorem updMem_op? (s : State) (f : Mems → Mems) (j : Nat) : (s.updMem f).op? j = s.op? j := rfl
@[simp] theorem updTxn_tile (s : State) (f : Txn → Txn) (t : Nat) : (s.updTxn f).tile t = s.tile t := rfl
@[simp] theorem updTxn_ctx (s : State) (f : Txn → Txn) (t c : Nat) : (s.updTxn f).ctx t c = s.ctx t c := rfl
@[simp] theorem updTxn_me (s : State) (f : Txn → Txn) : (s.updTxn f).me = s.me := rfl
@[simp] theorem updTxn_die (s : State) (f : Txn → Txn) (e : Nat) : (s.updTxn f).die e = s.die e := rfl
@[simp] theorem updTxn_queue (s : State) (f : Txn → Txn) (r : Nat) : (s.updTxn f).queue r = s.queue r := rfl
@[simp] theorem updTxn_launch (s : State) (f : Txn → Txn) (m : Nat) : (s.updTxn f).launch m = s.launch m := rfl
@[simp] theorem updTxn_op? (s : State) (f : Txn → Txn) (j : Nat) : (s.updTxn f).op? j = s.op? j := rfl
@[simp] theorem updQueue_tile (s : State) (q : Nat) (f : Queue → Queue) (t : Nat) : (s.updQueue q f).tile t = s.tile t := rfl
@[simp] theorem updQueue_ctx (s : State) (q : Nat) (f : Queue → Queue) (t c : Nat) : (s.updQueue q f).ctx t c = s.ctx t c := rfl
@[simp] theorem updQueue_me (s : State) (q : Nat) (f : Queue → Queue) : (s.updQueue q f).me = s.me := rfl
@[simp] theorem updQueue_die (s : State) (q : Nat) (f : Queue → Queue) (e : Nat) : (s.updQueue q f).die e = s.die e := rfl
@[simp] theorem updQueue_launch (s : State) (q : Nat) (f : Queue → Queue) (m : Nat) : (s.updQueue q f).launch m = s.launch m := rfl
@[simp] theorem updQueue_op? (s : State) (q : Nat) (f : Queue → Queue) (j : Nat) : (s.updQueue q f).op? j = s.op? j := rfl
@[simp] theorem updLaunch_tile (s : State) (l : Nat) (f : Launch → Launch) (t : Nat) : (s.updLaunch l f).tile t = s.tile t := rfl
@[simp] theorem updLaunch_ctx (s : State) (l : Nat) (f : Launch → Launch) (t c : Nat) : (s.updLaunch l f).ctx t c = s.ctx t c := rfl
@[simp] theorem updLaunch_me (s : State) (l : Nat) (f : Launch → Launch) : (s.updLaunch l f).me = s.me := rfl
@[simp] theorem updLaunch_die (s : State) (l : Nat) (f : Launch → Launch) (e : Nat) : (s.updLaunch l f).die e = s.die e := rfl
@[simp] theorem updLaunch_queue (s : State) (l : Nat) (f : Launch → Launch) (r : Nat) : (s.updLaunch l f).queue r = s.queue r := rfl
@[simp] theorem updLaunch_op? (s : State) (l : Nat) (f : Launch → Launch) (j : Nat) : (s.updLaunch l f).op? j = s.op? j := rfl
@[simp] theorem setDie_tile (s : State) (d : Nat) (x : Die) (t : Nat) : (s.setDie d x).tile t = s.tile t := rfl
@[simp] theorem setDie_ctx (s : State) (d : Nat) (x : Die) (t c : Nat) : (s.setDie d x).ctx t c = s.ctx t c := rfl
@[simp] theorem setDie_me (s : State) (d : Nat) (x : Die) : (s.setDie d x).me = s.me := rfl
@[simp] theorem setDie_queue (s : State) (d : Nat) (x : Die) (r : Nat) : (s.setDie d x).queue r = s.queue r := rfl
@[simp] theorem setDie_launch (s : State) (d : Nat) (x : Die) (m : Nat) : (s.setDie d x).launch m = s.launch m := rfl
@[simp] theorem setDie_op? (s : State) (d : Nat) (x : Die) (j : Nat) : (s.setDie d x).op? j = s.op? j := rfl

/-! ### Bytes written to a memory -/

@[simp] theorem Mem.wf_writeBytes : ∀ (bs : List Byte) (m : Mem) (a : Nat), Mem.wf m = true → Mem.wf (m.writeBytes a bs) = true
  | [], _, _, h => h
  | b :: bs, m, a, h => Mem.wf_writeBytes bs _ _ (Mem.wf_write m a b h)

theorem Mem.read_writeBytes_out : ∀ (bs : List Byte) (m : Mem) (a i : Nat), Mem.wf m = true → (i < a ∨ a + bs.length ≤ i) →
    (m.writeBytes a bs).read i = m.read i
  | [], _, _, _, _, _ => rfl
  | b :: bs, m, a, i, h, hi => by
    have hl : (b :: bs).length = bs.length + 1 := rfl
    rw [Mem.writeBytes, Mem.read_writeBytes_out bs _ _ _ (Mem.wf_write m a b h) (by omega), Mem.read_write_ne m b h (by omega)]

end Sys2Proof.Machine
end

