-- ==== Sys2Proof/Laws/Run.lean ====
section
/-! SUPPORT. What the shared frames of the instructions do, said once: a scalar instruction that runs, one that attaches, and a trap. -/
namespace Sys2Proof.Machine

/-- No operand that an instruction uses holds poison. -/
theorem poisonedUses_none {k : Ctx} {uses : List (List Nat)} (h : ∀ u ∈ uses, k.psnAny u = false) : k.poisonedUses uses = 0 := by
  simp only [Ctx.poisonedUses, List.length_eq_zero_iff, List.filter_eq_nil_iff, List.mem_eraseDups]
  intro u hu; simp [h u hu]
/-- A scalar instruction that fits has its effect (R352). -/
theorem guard_fits {s : State} {c : Class} {named : List Nat} {uses : List (List Nat)} (f : State → State) (h : s.fits c named uses) :
    s.guard c named uses f = f s := by
  obtain ⟨h1, h2, h3, h4⟩ := h
  simp [State.guard, State.useThen, h1, h2, h3, poisonedUses_none h4]
/-- A scalar instruction that fits changes its context and goes on (R370). -/
theorem scalar_fits {s : State} {c : Class} {len : Nat} {named : List Nat} {uses : List (List Nat)} (f : Ctx → Ctx)
    (h : s.fits c named uses) : s.scalar c len named uses f = s.done len f := by
  simp [State.scalar, guard_fits _ h, State.retire, State.updMe, State.done]
/-- An attached instruction that can dispatch does so (R298). -/
theorem attach_attaches {s : State} {n : Named} {uses : Ctx → Nat} (f : Ctx → Eff) (h : s.attaches n (uses s.me)) :
    s.attach n uses f = s.dispatched (f s.me) := by
  obtain ⟨h1, h2, h3, h4, h5⟩ := h
  have hw : (!(Class.W.allows s.cur.2 && s.namesOk n)) = false := by simp [Class.allows, h1, h2]
  have hb : (s.me.busyAny n || s.me.ringBusy) = false := by simp [h3, h4]
  rw [State.attach, hw, hb, State.useThen, if_pos h5]
  rfl
/-- A use of a scalar without poison reads its bits. -/
theorem rd_raw {k : Ctx} {r : Nat} (h : k.psnAny (sr r) = false) : k.rd r = k.raw r := by simp [Ctx.rd, h]
/-- A use of a pair without poison reads its bits. -/
theorem rdx_rawx {k : Ctx} {r : Nat} (h : k.psnAny (xr r) = false) : k.rdx r = k.rawx r := by simp [Ctx.rdx, Ctx.rawx, h]
/-- Two changes that agree on the issuing context complete alike. -/
theorem done_congr {s : State} {len : Nat} {f g : Ctx → Ctx} (h : f s.me = g s.me) : s.done len f = s.done len g := by
  simp [State.done, h]
/-- A three-register operation that fits (R372). -/
theorem op3_done {s : State} {len d a b : Nat} (g : Word → Word → Word)
    (h : s.fits .A (sr d ++ sr a ++ sr b) [sr a, sr b]) :
    s.op3 len d a b g = s.done len fun k => k.wr d (g (s.me.raw a) (s.me.raw b)) := by
  have ha := rd_raw (h.2.2.2 (sr a) (by simp)); have hb := rd_raw (h.2.2.2 (sr b) (by simp))
  rw [State.op3, scalar_fits _ h]; exact done_congr (by simp [ha, hb])
/-- An operation on one register that fits. -/
theorem op2_done {s : State} {len d a : Nat} (g : Word → Word) (h : s.fits .A (sr d ++ sr a) [sr a]) :
    s.op2 len d a g = s.done len fun k => k.wr d (g (s.me.raw a)) := by
  have ha := rd_raw (h.2.2.2 (sr a) (by simp))
  rw [State.op2, scalar_fits _ h]; exact done_congr (by simp [ha])
/-- Naming or using fewer scalars still fits. -/
theorem fits_mono {s : State} {c : Class} {n n' : List Nat} {u u' : List (List Nat)} (h : s.fits c n u)
    (hn : ∀ r ∈ n', r ∈ n) (hu : ∀ x ∈ u', x ∈ u ∨ x = []) : s.fits c n' u' := by
  obtain ⟨h1, h2, h3, h4⟩ := h
  refine ⟨h1, ?_, ?_, ?_⟩
  · simp only [scalarsOk, Bool.or_eq_true, List.all_eq_true] at h2 ⊢
    exact h2.imp id fun h r hr => h r (hn r hr)
  · simp only [Ctx.busySAny, List.any_eq_false] at h3 ⊢
    exact fun r hr => h3 r (hn r hr)
  · intro x hx
    rcases hu x hx with h | rfl
    · exact h4 x h
    · rfl
/-- Taking a trap (R295). -/
theorem raise_trapped (s : State) (cause acc kind addr : Nat) : s.trapped (s.raise cause acc kind addr) cause acc kind addr := by
  have e : s.raise cause acc kind addr = ((s.setMe { s.me with
      status := .trapped, trapT := some s.now, mst := s.me.status == .mstone
      ctl := { s.me.ctl with trapcause := trapcauseWord cause acc kind, trapaddr := BitVec.ofNat 64 (addr % 2 ^ 48), trapseq := 0 } }).pend
        .trapHandling { tile := s.cur.1, ctx := s.cur.2 }).after supervisorTicks .supervisorTimeout
          { tile := s.cur.1, ctx := s.cur.2, val := s.now } := rfl
  rw [e]
  refine ⟨?_, ?_, ?_, ?_, ?_, rfl, rfl⟩ <;> simp
/-- The poison of another scalar is untouched by a write. -/
theorem psn_wrP_ne (k : Ctx) {r i : Nat} (v : Word) (p : Bool) (h : i ≠ r) : (k.wrP r v p).psn i = k.psn i := by
  unfold Ctx.wrP Ctx.psn
  split
  · rfl
  · simp only [putBit]
    split <;> simp <;> grind

end Sys2Proof.Machine
end

