-- ==== Sys2Proof/Tests/Slice0.lean ====
section
/-! SUPPORT. The model's own tests: words of the spec's examples and encoding tables decoded, ill-formed terms refused, results worked in the
spec, and for each statement states and operands that meet its hypotheses, so that none of them is empty. -/
namespace Sys2Proof.Tests
open Sys2Proof.Machine
set_option Elab.async false

/-! ### Small states -/

/-- Scalars, with the PC at 0x1000. -/
def regs (l : FMap Word) : Regs := { Regs.init with pc := 0x1000, s := l, blocks := [(0, 1)] }
/-- A package with die 0 in service and launch 0 running, in which a context of tile 0 issues. -/
def at_ (c : Nat) (k : Ctx) : State :=
  { State.reset with pending := [], cur := (0, c), tiles := [(0, Tile.init.setCtx c k)],
                     dies := [(0, { Die.init with inService := true })], launches := [(0, { Launch.init with run := 1 })] }
/-- A ready context with some scalars. -/
def ctx (l : FMap Word) : Ctx := { Ctx.init with status := .ready, regs := regs l }
/-- Wave 0 issues. -/
def wave (l : FMap Word) : State := at_ 0 (ctx l)
/-- Path slot 0 issues. -/
def path (l : FMap Word) : State := at_ 192 (ctx l)
/-- The system slot issues. -/
def sup (l : FMap Word) : State := at_ 222 (ctx l)
/-- An event takes place, concerning a. -/
def ev (s : State) (a : Arg) : State := { s with arg := a }
/-- Changes to tile 0's synchronisation units. -/
def syncing (s : State) (f : Sync → Sync) : State := { s with tiles := s.tiles.map fun p => (p.1, { p.2 with sync := f p.2.sync }) }
/-- A scalar instruction runs to its effect. -/
theorem fits_of {s : State} {c : Machine.Class} {n : List Nat} {u : List (List Nat)}
    (h : (c.allows s.cur.2 && scalarsOk s.cur.2 n && !s.me.busySAny n && u.all fun x => !s.me.psnAny x) = true) : s.fits c n u := by
  simp only [Bool.and_eq_true, Bool.not_eq_true', List.all_eq_true] at h
  exact ⟨h.1.1.1, h.1.1.2, h.1.2, h.2⟩
/-- An attached instruction dispatches. -/
theorem attaches_of {s : State} {n : Named} {u : Nat}
    (h : (!isPath s.cur.2 && s.namesOk n && !s.me.busyAny n && !s.me.ringBusy && u == 0) = true) : s.attaches n u := by
  simp only [Bool.and_eq_true, Bool.not_eq_true', beq_iff_eq] at h
  exact ⟨h.1.1.1.1, h.1.1.1.2, h.1.1.2, h.1.2, h.2⟩

/-! ### Witnesses: scalar instructions -/

theorem test_meets_ScalarArithmetic : (wave [(1, 7)]).fits .A (sr 63 ++ sr 1 ++ sr 62) [sr 1, sr 62] ∧
    (path [(9, 1)]).fits .A (sr 9 ++ sr 9 ++ sr 63) [sr 9, sr 63] ∧ (wave []).fits .A (sr 31 ++ sr 63) [sr 63] :=
  ⟨fits_of (by decide +kernel), fits_of (by decide +kernel), fits_of (by decide +kernel)⟩
theorem test_meets_UpperImmediate : (path []).fits .A (sr 15) [] ∧ (wave []).fits .A (sr 63) [] :=
  ⟨fits_of (by decide +kernel), fits_of (by decide +kernel)⟩
/-- A wave whose s1 holds poison. -/
def poisoned : State := at_ 0 { ctx [(1, 5)] with regs := { regs [(1, 5)] with sp := 2 } }
theorem test_meets_SelectOperation : (wave [(2, 1)]).fits .A (sr 4 ++ sr 2 ++ sr 0 ++ sr 63) [sr 2] ∧
    poisoned.fits .A (sr 4 ++ sr 1 ++ sr 0 ++ sr 63) [] ∧ poisoned.me.psnAny (sr 1) = true ∧ poisoned.lenient poisoned.me.lidx = false :=
  ⟨fits_of (by decide +kernel), fits_of (by decide +kernel), by decide +kernel⟩
theorem test_meets_PairsAndBitFields : (wave []).fits .A (xr 60 ++ xr 63 ++ xr 0) [xr 63, xr 0] ∧
    (wave []).fits .A (xr 0 ++ xr 60 ++ sr 62) [xr 60, sr 62] ∧ (wave []).fits .A (xr 63 ++ xr 2) [xr 2] ∧
    (wave []).fits .A (xr 0 ++ sr 1 ++ sr 62 ++ xr 60) [sr 1, sr 62, xr 60] ∧ (wave []).fits .A (sr 5 ++ sr 63) [sr 63] ∧
    (wave []).fits .A (sr 5 ++ sr 5 ++ sr 6) [sr 5, sr 6] ∧ 1 ≤ 32 ∧ 0 + 32 ≤ 32 ∧ (wave []).fits .A (sr 1 ++ sr 2 ++ sr 3 ++ sr 4) [sr 2] :=
  ⟨fits_of (by decide +kernel), fits_of (by decide +kernel), fits_of (by decide +kernel), fits_of (by decide +kernel),
   fits_of (by decide +kernel), fits_of (by decide +kernel), by decide, by decide, fits_of (by decide +kernel)⟩
/-- A context in the last instruction of a repeat buffer's body. -/
def looping (n : Nat) : Ctx := { ctx [] with rep := some ⟨0x0FF0, 0x1004, n, 0⟩ }
theorem test_meets_RegistersAndProgramCounter : xReg 60 = true ∧ xReg 63 = true ∧ (ctx []).rep = none ∧
    (looping 2).regs.pc + BitVec.ofNat 48 4 = 0x1004 ∧ 1 < 2 ∧ (looping 1).rep = some ⟨0x0FF0, 0x1004, 1, 0⟩ ∧
    (looping 2).regs.pc + BitVec.ofNat 48 2 ≠ 0x1004 := by decide +kernel
theorem test_meets_PredicatesAndBranches : (path []).fits .P (sr 63 ++ sr 15) [sr 63, sr 15] ∧ (path []).fits .P [] [] ∧
    (wave []).fits .A (sr 63) [sr 63] ∧ (wave []).fits .W [] [] ∧ (wave []).me.busyMAny [7] = false ∧ (wave []).fits .A (xr 14) [xr 14] :=
  ⟨fits_of (by decide +kernel), fits_of (by decide +kernel), fits_of (by decide +kernel), fits_of (by decide +kernel), by decide +kernel,
   fits_of (by decide +kernel)⟩
/-- A wave with m1 = 0x0000FFFF and a divergence stack (the example of R383 to R385). -/
def diverging (stack : List (BitVec 48 × Word)) : State :=
  at_ 0 { ctx [] with regs := { regs [] with m := [(1, 0xFFFF#32)], dstack := stack } }
theorem test_meets_DivergentBranches : let s := diverging []
    s.fits .W [] [] ∧ s.me.busyMAny [1] = false ∧ s.me.regs.exec &&& s.me.mreg 1 ≠ 0 ∧ s.me.regs.exec &&& s.me.mreg 1 ≠ s.me.regs.exec ∧
    (diverging [(s.pcPlus 6#14, 1)]).me.regs.dstack = [(s.pcPlus 6#14, 1#32)] ∧ s.me.regs.dstack.length < 32 ∧
    32 ≤ (diverging (List.replicate 32 (0, 1))).me.regs.dstack.length ∧
    ((diverging (List.replicate 32 (0, 1))).me.regs.dstack.head?.map (·.1) ≠ some (s.pcPlus 6#14)) :=
  ⟨fits_of (by decide +kernel), by decide +kernel, by decide +kernel, by decide +kernel, by decide +kernel, by decide +kernel, by decide +kernel,
   by decide +kernel⟩
theorem test_meets_Reconvergence : (diverging [(0x1000, 0xFFFF0000#32), (0x1000, 1), (0x2000, 2)]).fits .W [] [] ∧ isPath (path []).cur.2 = true :=
  ⟨fits_of (by decide +kernel), by decide +kernel⟩
theorem test_meets_CommonRegisters :
    let y := fun (s : State) (c : Nat) (w : Bool) => { syncing s fun y => { y with kpend := [(c, 15, 9, w)] } with now := 4 * 7 }
    let s := y (wave []) 1 false; let p := y (path []) 7 true
    s.fits .A (sr 62) [] ∧ s.fits .A (sr 63) [sr 63] ∧ isPath s.cur.2 = false ∧ (∀ p ∈ s.myTile.sync.kpend, p.2.1 = 15 → p.1 + 6 ≤ s.tileCycle) ∧
    p.fits .A (sr 15) [sr 15] ∧ isPath p.cur.2 = true ∧
    ∃ e ∈ p.myTile.sync.kpend, e.1 = p.tileCycle ∧ e.2.1 = 15 ∧ e.2.2.2 = true :=
  ⟨fits_of (by decide +kernel), fits_of (by decide +kernel), by decide +kernel, by decide +kernel, fits_of (by decide +kernel), by decide +kernel,
   by decide +kernel⟩
theorem test_meets_ControlRegisters : (wave []).me.ctlWaits 0x01C false = false ∧ (wave []).fits .A [60, 61] [] ∧ (wave []).fits .A [61] [] ∧
    (wave []).me.ctlWaits 0x008 true = false ∧ (wave []).fits .A (sr 4) [sr 4] ∧ (wave []).fits .A [60, 61] [[60, 61]] ∧ (wave []).me.uiq = [] ∧
    (0x01C < 0x01D ∧ 0x01D < 0x100) ∧ 0x17F < 0x180 ∧ (wave []).cur.2 ≠ sysCtx ∧ isPath (path []).cur.2 = true ∧ (wave []).me.gang = none :=
  ⟨by decide +kernel, fits_of (by decide +kernel), fits_of (by decide +kernel), by decide +kernel, fits_of (by decide +kernel),
   fits_of (by decide +kernel), by decide +kernel⟩
theorem test_meets_TileRegisterWrites : (sup [(4, 5)]).fits .A (sr 4) [sr 4] ∧ (sup []).cur.2 = sysCtx ∧
    (∀ p ∈ (sup []).myTile.sync.ctlPend, p.1 = (sup []).tileCycle → p.2.1 ≠ 0x01C) ∧ (sup []).myTile.sync.mbWait = [] ∧
    (wave []).fits .A (sr 63) [sr 63] ∧ isPath (wave []).cur.2 = false ∧
    (let p := syncing (path []) fun y => { y with ctlPend := [(0, 0x01B, 7, true)] }
     p.fits .A (sr 15) [sr 15] ∧ isPath p.cur.2 = true ∧ ∃ e ∈ p.myTile.sync.ctlPend, e.1 = p.tileCycle ∧ e.2.1 = 0x01B ∧ e.2.2.2 = true) :=
  ⟨fits_of (by decide +kernel), by decide +kernel, by decide +kernel, by decide +kernel, fits_of (by decide +kernel), by decide +kernel,
   fits_of (by decide +kernel), by decide +kernel, by decide +kernel⟩
/-- A wave whose UIPC is valid. -/
def interrupted : State := at_ 0 { ctx [] with ctl := { Ctl.init with uipc := 0x8000000000002000#64 } }
/-- A context trapped in its SVC, and the system slot with it in hand. -/
def svcTrap : State :=
  { sup [] with tiles := [(0, { (Tile.init.setCtx 222 (ctx [])).setCtx 0 { ctx [] with status := .trapped } with hand := some ⟨0, causeSvc⟩ })] }
theorem test_meets_TrapsAndReturns : (wave []).fits .A [] [] ∧ isPath (path []).cur.2 = true ∧ interrupted.fits .A [] [] ∧
    interrupted.me.ctl.uipc.msb = true ∧ (wave []).me.ctl.uipc.msb = false ∧ (wave []).me.quiet = true ∧ (wave []).me.attachedDone = true ∧
    (at_ 0 { ctx [] with flight := [⟨.gld, 1, false⟩] }).me.quiet = false ∧ (sup []).fits .S [] [] ∧ (sup []).myTile.hand = none ∧
    svcTrap.fits .S [] [] ∧ svcTrap.myTile.hand = some ⟨0, causeSvc⟩ ∧ (svcTrap.ctx 0 0).status = .trapped ∧ (svcTrap.ctx 0 0).deferred = [] ∧
    (svcTrap.ctx 0 0).mst = false ∧ (svcTrap.ctx 0 0).rep = none ∧ (svcTrap.ctx 0 0).ring = [] :=
  ⟨fits_of (by decide +kernel), by decide +kernel, fits_of (by decide +kernel), by decide +kernel, by decide +kernel, by decide +kernel,
   by decide +kernel, by decide +kernel, fits_of (by decide +kernel), by decide +kernel, fits_of (by decide +kernel), by decide +kernel⟩
/-- Wave 0 in gang 5 with members and granules of its pool, holding 16 registers in two blocks. -/
def inGang (n : Nat) (pool : FMap (List VReg)) (mine : Bool) : State :=
  { wave [] with tiles := [(0, { Tile.init.setCtx 0 { ctx [] with gang := if mine then some 5 else none,
                                                                  regs := { regs [] with q := 16, blocks := [(0, 1), (1, 1)] } } with
      mx := { Matrix.init with gangs := [(5, ⟨0, List.replicate n 0, 0, pool⟩)] } })] }
theorem test_meets_GangsAndQuotas : (wave []).fits .W (sr 62) [] ∧ (wave []).me.gang = none ∧ (wave []).myTile.gang? 63 = none ∧
    (inGang 32 [] false).me.gang = none ∧ (∃ g, (inGang 32 [] false).myTile.gang? 5 = some g ∧ g.lidx = 0 ∧ g.members.length = 32) ∧
    (∃ g, (inGang 31 [] false).myTile.gang? 5 = some g ∧ g.lidx = 0 ∧ g.members.length ≠ 32) ∧ (inGang 1 [] true).me.gang = some 5 ∧
    (inGang 1 [] true).me.regs.blocks.getLast? = some (1, 1) ∧ (inGang 1 [] true).me.regs.q ≠ 8 * 2 ^ 0 ∧ 1 ≠ 2 ^ 5 ∧
    (∀ e ∈ (inGang 1 [] true).me.busyV, e.1 < 8) ∧ 256 < (inGang 1 [] true).me.regs.q + 8 * 2 ^ 5 ∧
    (∃ y, (inGang 1 [(7, [])] true).myTile.gang? 5 = some y ∧ y.pool.length < 2 ^ 1 ∧ 2 ^ 0 ≤ y.pool.length ∧ y.block (2 ^ 0) = some 7) :=
  ⟨fits_of (by decide +kernel), by decide +kernel, by decide +kernel, by decide +kernel, ⟨_, rfl, by decide +kernel⟩, ⟨_, rfl, by decide +kernel⟩,
   by decide +kernel, by decide +kernel, by decide +kernel, by decide +kernel, by decide +kernel, by decide +kernel, ⟨_, rfl, by decide +kernel⟩⟩
theorem test_meets_LegalityAndPoison : isPath (path []).cur.2 = true ∧ isPath (wave []).cur.2 = false ∧ (wave []).cur.2 ≠ sysCtx ∧
    (∃ r ∈ [0, 16, 63], 16 ≤ r ∧ r < 63) ∧ Machine.Class.A.allows poisoned.cur.2 = true ∧ scalarsOk poisoned.cur.2 (sr 63 ++ sr 1) = true ∧
    poisoned.me.busySAny (sr 63 ++ sr 1) = false ∧ poisoned.me.psn 1 = true ∧ poisoned.lenient poisoned.me.lidx = false ∧
    ({ poisoned with launches := [(0, { Launch.init with run := 1, r := { Rec.init with lenient := true } })] }).lenient 0 = true ∧
    poisoned.me.counted = [] := by decide +kernel

/-! ### Witnesses: vectors and accesses -/

theorem test_meets_FormatsAndFolds : (∀ j : Nat, (j % 16, noFlags).1 < 2 ^ Ty.width .e2m1) ∧ Ty.fArith .bf16 = true ∧
    (readV .f32 true 0x7FC00000).isNaN = true ∧ readV .f16 false 0x7C00 = .inf false ∧ readV .f16 false 0xFC00 = .inf true ∧
    (readV .f32 true 0x80000001).isZero = true ∧ (readV .f32 false 0x80000000).neg = true ∧ (readV .f32 false 0).neg = false ∧
    (readV .f32 false 0x3F800000).isNaN = false :=
  ⟨fun j => Nat.mod_lt j (by decide), by decide +kernel⟩
theorem test_meets_VectorFloatingPoint : (wave []).laneFits ⟨1, true⟩ 7 [7, 0] ∧ (wave []).laneFits ⟨0, false⟩ 0 [1, 2, 0] ∧
    (wave []).laneFits ⟨7, false⟩ 7 [7] :=
  ⟨attaches_of (by decide +kernel), attaches_of (by decide +kernel), attaches_of (by decide +kernel)⟩
theorem test_meets_VectorIntegersAndLogic : Ty.iArith .n8 = true ∧ (wave []).laneFits ⟨1, true⟩ 7 [7, 0] ∧ (wave []).laneFits ⟨0, false⟩ 0 [1, 2, 0] ∧
    (wave []).laneFits ⟨7, false⟩ 7 [7] ∧ Ty.width .n32 = 32 ∧ 31 < 32 :=
  ⟨by decide, attaches_of (by decide +kernel), attaches_of (by decide +kernel), attaches_of (by decide +kernel), by decide, by decide⟩
theorem test_meets_VectorComparesAndMoves : let s := wave []; let o : MaskOp := ⟨7, true⟩
    s.attaches { v := [6, 7], m := [o.k, 7] } (s.me.vecUses [6, 7] (s.me.active o)) ∧ s.attaches { v := [7, 6, 7], m := [o.k, 7] } 0 ∧
    s.attaches { v := [7, 7], m := [o.k] } 0 ∧ s.attaches { v := [7, 6, 0], m := [o.k] } (s.me.vecUses [0] (s.me.active o)) ∧
    s.attaches { s := sr 63, v := [0], m := [o.k] } 0 ∧ s.attaches { v := [0], m := [o.k] } 0 ∧
    s.attaches { s := sr 62 ++ sr 63, v := [0] } (s.me.poisonedUses [sr 63]) :=
  ⟨attaches_of (by decide +kernel), attaches_of (by decide +kernel), attaches_of (by decide +kernel), attaches_of (by decide +kernel),
   attaches_of (by decide +kernel), attaches_of (by decide +kernel), attaches_of (by decide +kernel)⟩
theorem test_meets_ReductionsAndConversions : let s := wave []; let o : MaskOp := ⟨1, false⟩
    AtomOp.foldTakes .add .f32 = true ∧ s.attaches { s := sr 8, v := [6], m := [o.k] } (s.me.vecUses [6] (s.me.active o)) ∧
    s.attaches { v := [7, 7], m := [o.k] } (s.me.vecUses [7] (s.me.active o)) ∧
    s.attaches { v := 7 :: (List.range 4).map (0 + ·), m := [o.k] } (s.me.vecUses ((List.range 4).map (0 + ·)) (s.me.active o)) ∧
    s.attaches { v := 0 :: (List.range 4).map (4 + ·), m := [o.k] } (s.me.vecUses [0] (s.me.active o)) :=
  ⟨by decide, attaches_of (by decide +kernel), attaches_of (by decide +kernel), attaches_of (by decide +kernel), attaches_of (by decide +kernel)⟩
theorem test_meets_DotsKeysAndMasks : let s := wave []; let o : MaskOp := ⟨0, false⟩; let act := s.me.active o
    s.laneFits o 0 [1, 2, 3] ∧ Ty.dotTy .i4 = true ∧ Ty.isInt .i4 = true ∧ Ty.isFloat .e2m1 = true ∧ Ty.blockable .e2m1 = true ∧ act ≠ 0 ∧
    s.attaches { s := tsRegs none, v := [0, 1, 3, 5, 2, 4], m := [o.k] } (s.me.laneUses [(1, act), (3, act), (5, act),
      (2, bitsOf 0xFFFFFFFF#32 0#32 fun l => (liveBlocks act (blockSize 3 / 8)).any fun i => i / 4 == l),
      (4, bitsOf 0xFFFFFFFF#32 0#32 fun l => (liveBlocks act (blockSize 3 / 8)).any fun i => i / 4 == l)] +
      s.me.poisonedUses ((tsRegs none).map sr)) ∧
    s.attaches { s := sr 63, v := [0] } 0 ∧ s.laneFits o 0 [1, 2] ∧ s.attaches { m := [7, 0, 1] } 0 ∧
    s.attaches { s := sr 63, m := [7, 0] } (s.me.poisonedUses [sr 63]) ∧ s.attaches { m := [1, 7] } 0 ∧ s.attaches { s := sr 62, m := [0] } 0 :=
  ⟨attaches_of (by decide +kernel), by decide, by decide, by decide, by decide, by decide +kernel, attaches_of (by decide +kernel),
   attaches_of (by decide +kernel), attaches_of (by decide +kernel), attaches_of (by decide +kernel), attaches_of (by decide +kernel),
   attaches_of (by decide +kernel), attaches_of (by decide +kernel)⟩
/-- Wave 0 with an issued entry of UNIT 0, and an operation of it whose one lane has been performed. -/
def finishing (k : Ctx → Ctx) : State :=
  let e : Entry := { Entry.init with seq := 3, state := .issued, work := .regs [.s 4 9 false] 1 }
  let s := at_ 0 (k { ctx [] with ring := [(3, e)], dseq := 4, busyS := [(4, attKey 3)], flight := [⟨.gld, 9, false⟩] })
  let o := s.mkOp .load .b32 false ⟨0, 0⟩ [{ mkElem 0 0 4 (some (.dev 0 0)) 0 0 with done := true, res := 7 }] 5 false
  ev { s with ops := [(9, o)] } { tile := 0, ctx := 0, seq := 3, id := 9 }
theorem test_meets_CompletionsAndReplies : let s := finishing id
    let e := (s.ctx 0 0).entry 3
    e.seq = 3 ∧ e.state = .issued ∧ e.unit = 0 ∧ e.work = .regs [.s 4 9 false] 1 ∧ 255 < 2 ^ 8 ∧ 65535 < 2 ^ 16 ∧
    (∃ o, s.op? s.arg.id = some o ∧ o.allDone = true ∧ o.ctx ≠ orphanCtx ∧ o.aux ≠ [1] ∧ o.seq = none ∧ o.kind = .load ∧ o.vec = false ∧
      o.elems.length = 1 ∧ o.w64 = false) ∧ (s.ctx 0 0).status ≠ .trapped ∧
    ((finishing fun k => { k with status := .trapped }).ctx 0 0).status = .trapped :=
  ⟨by decide +kernel, by decide +kernel, by decide +kernel, by decide +kernel, by decide, by decide, ⟨_, rfl, by decide +kernel⟩,
   by decide +kernel, by decide +kernel⟩
/-- A tile whose L1 TLB maps the page of x4 = 0x2000 to device memory. -/
def mapped (l : FMap Word) : State :=
  let s := wave ((4, 0x2000) :: l)
  { s with tiles := s.tiles.map fun p => (p.1, { p.2 with un := { p.2.un with
      tlb := [(tlbKey 0 0x2000 4096, { cls := 0, home := 2, hsel := 0, frame := 0, x := true, w := true, r := true, size := 4096 })] } }) }
/-- Lane 0 of an access of n bytes at x4 + 8. -/
def at8 (n : Nat) : Elem := mkElem 0 0x2008 n (some (.dev 8 8)) 0 0
theorem test_meets_GlobalAccesses : let s := mapped []; let p := s.mkOp .load .b32 true ⟨0, 0⟩ [] 62 false
    s.fits .A (sxr true 60 ++ xr 4) [xr 4] ∧ s.goesAhead p 0 8 0x2008 (at8 8) ∧ s.fits .A (xr 4) [xr 4] ∧
    s.goesAhead (s.mkOp .store .n8 false ⟨0, 0⟩ [] 1 false) 1 1 0x2008 (at8 1) ∧
    s.goesAhead (s.mkOp .cinv .b32 false ⟨0, 0⟩ [] 63 false) 0 1 0x2008 (at8 1) :=
  ⟨fits_of (by decide +kernel), ⟨by decide +kernel, by decide +kernel, by decide +kernel, by decide +kernel, ⟨_, _, rfl, by decide +kernel, by decide +kernel⟩, by decide +kernel⟩,
   fits_of (by decide +kernel), ⟨by decide +kernel, by decide +kernel, by decide +kernel, by decide +kernel, ⟨_, _, rfl, by decide +kernel, by decide +kernel⟩, by decide +kernel⟩,
   ⟨by decide +kernel, by decide +kernel, by decide +kernel, by decide +kernel, ⟨_, _, rfl, by decide +kernel, by decide +kernel⟩, by decide +kernel⟩⟩
theorem test_meets_VectorGlobalAccesses : let s := mapped []; let m : MaskOp := ⟨0, false⟩; let act := s.me.active m
    s.attachesMem { s := xr 4, v := vyr true 6, m := [m.k] } (s.me.poisonedUses [xr 4]) ∧
    s.attachesMem { s := xr 4, v := 0 :: vyr false 7, m := [m.k] } (s.me.poisonedUses [xr 4] + s.me.vecUses [0] act) ∧
    s.attachesMem { s := xr 4, v := [0, 1, 7], m := [m.k] } (s.me.poisonedUses [xr 4] + s.me.vecUses [0, 1, 7] act) ∧
    s.attachesMem { s := xr 4, v := [0, 1], m := [m.k] } (s.me.poisonedUses [xr 4] + s.me.vecUses [0, 1] act) ∧
    s.lanesGo (s.mkOp .load .b32 false ⟨0, 0⟩ (s.elems act (fun l => 0x2000 + 4 * l) 4 fun _ => (0, 0, 0)) 7 true) act (fun l => 0x2000 + 4 * l) 4 :=
  ⟨⟨attaches_of (by decide +kernel), by decide +kernel, by decide +kernel⟩, ⟨attaches_of (by decide +kernel), by decide +kernel, by decide +kernel⟩,
   ⟨attaches_of (by decide +kernel), by decide +kernel, by decide +kernel⟩, ⟨attaches_of (by decide +kernel), by decide +kernel, by decide +kernel⟩,
   ⟨by decide +kernel, by decide +kernel, by decide +kernel⟩⟩
theorem test_meets_AccessTrapsAndIssue : (mapped []).fits .A (sxr false 0 ++ xr 4) [xr 4] ∧
    ((mapped []).me.rawx 4 + (1#16).signExtend 64).toNat % accWidth .b32 false ≠ 0 ∧
    ((wave [(4, 0), (5, 0xFC00)]).me.rawx 4 + (0#16).signExtend 64).toNat % 4 = 0 ∧
    0xFC0000000000 ≤ ((wave [(4, 0), (5, 0xFC00)]).me.rawx 4 + (0#16).signExtend 64).toNat ∧
    OpKind.returns .load = true ∧ OpKind.returns .store = false ∧ ordReleases ⟨3, 2⟩ = true ∧ ordReleases ⟨0, 0⟩ = false ∧ 5 ≠ 63 :=
  ⟨fits_of (by decide +kernel), by decide +kernel⟩
theorem test_meets_DeviceMemory : (wave []).mem.hbm.wf = true ∧ (wave []).shTag 0 0 = none ∧ 2 ^ 64 - 1 < 2 ^ (8 * 8) := by decide +kernel
/-- A launch's share of a tile: a local block of 4 KiB, and all accumulators. -/
def share : Share :=
  { lidx := 0, lbase := 0x70000, lsize := 4096, acc := 16, pslots := 0, packets := 0, credits := 1, creditQ := [], classes := some [], viol := 0,
    ended := false, started := true, guest := false, waves := 1, grans := 0, away := false }
/-- A state whose tile 0 gives launch 0 that share. -/
def shared (s : State) : State := { s with tiles := s.tiles.map fun p => (p.1, { p.2 with shares := [share] }) }
/-- Wave 0 with x4 at the own-tile alias of scratch. -/
def local_ (l : FMap Word) (k : Ctx → Ctx) : State := shared (at_ 0 (k (ctx ((4, 0x70000) :: (5, 0xFC00) :: l))))
theorem test_meets_Scratchpad : let s := local_ [(6, 9)] id
    Ty.setW .n8 false = true ∧ s.fits .A (sr 6 ++ xr 4) [xr 4] ∧ s.waited = 0 ∧ s.scrWin 0 0xFC0000070FFC = .own 0x70FFC ∧
    s.scrHeld ⟨0, 0⟩ [0] = false ∧ (s.tile 0).allows 0 0x70FFC 4 false false = true ∧ (s.tile 0).allows 0 0x70FFC 4 true false = true ∧
    ordReleases ⟨0, 1⟩ = false ∧ s.mem.scr.wf = true ∧ Ty.setS .b32 = true ∧ s.myTile.sync.parkedOn 0x70FFC = [] ∧ s.scrFull 0 0x70FFC = false ∧
    ((s.setFull 0 0x70FFC true).scrFull 0 0x70FFC = true) ∧ s.fits .A (xr 4) [xr 4] ∧ s.myTile.sync.park.length < 64 ∧
    (s.tile 0).allows 0 0x71000 4 true false = false ∧ (s.me.rawx 4 + (0xFFC#16).signExtend 64).toNat = 0xFC0000070FFC :=
  ⟨by decide, fits_of (by decide +kernel), by decide +kernel, by decide +kernel, by decide +kernel, by decide +kernel, by decide +kernel,
   by decide, by decide +kernel, by decide, by decide +kernel, by decide +kernel, by decide +kernel, fits_of (by decide +kernel), by decide +kernel⟩
theorem test_meets_FullEmpty (o : MemOrd) : (local_ [] id).scrHeld o [0] = false := by
  have h : (local_ [] id).acqHeld = false ∧ (local_ [] id).me.mxReading = false ∧ (local_ [] id).myOps = [] := by decide +kernel
  simp [State.scrHeld, h]
/-- Wave 0 with x4 at offset 16 of the scratch of tile 1, which exists. -/
def remote_ : State := wave [(4, 0x80010), (5, 0xFE00)]
theorem test_meets_RemoteAndVectorScratch : remote_.fits .A (sr 6 ++ xr 4) [xr 4] ∧ remote_.waited = 0 ∧ 0xFE0000080010 % 4 = 0 ∧
    remote_.scrWin 0 0xFE0000080010 = .tile 1 16 ∧ remote_.scrHeld ⟨0, 0⟩ [1] = false ∧ remote_.ctrFull .scrLoad = false ∧
    (let s := local_ [] id
     s.attaches { s := xr 4, v := [0, 7], m := [0] } (s.me.poisonedUses [xr 4] + s.me.vecUses [0] (s.me.active ⟨0, false⟩)) ∧
     s.attaches { s := xr 4, v := [0], m := [0] } (s.me.poisonedUses [xr 4] + s.me.vecUses [0] (s.me.active ⟨0, false⟩)) ∧
     (∀ l ∈ lanesOf (s.me.active ⟨0, false⟩), (s.me.rawx 4 + ((s.me.vreg 0).lane l).setWidth 64 <<< 2).toNat % 4 = 0) ∧
     (s.scrElem ⟨.scrLoad, .b32, false, ⟨0, 0⟩, 7, 4, false⟩ 0xFC0000070000 0).isSome = true) :=
  ⟨fits_of (by decide +kernel), by decide +kernel, by decide, by decide +kernel, by decide +kernel, by decide +kernel,
   attaches_of (by decide +kernel), attaches_of (by decide +kernel), by decide +kernel⟩

/-! ### Witnesses: synchronisation -/

/-- Wave 0 with a changed context. -/
def waveK (l : FMap Word) (f : Ctx → Ctx) : State := at_ 0 (f (ctx l))
theorem test_meets_ParkedAccesses : let s := local_ [(6, 9)] id; let f := s.setFull 0 0x70FFC true
    s.scrFull 0 0x70FFC = false ∧ (s.tile 0).allows 0 0x70FFC 4 false false = true ∧ f.scrFull 0 0x70FFC = true ∧
    (f.tile 0).allows 0 0x70FFC 4 true false = true ∧ f.waited = 0 ∧ f.myTile.sync.park.length < 64 := by decide +kernel
theorem test_meets_FencesEventsAndMutexes : (wave []).fits .A [] [] ∧ (wave [(4, 2)]).fits .A (sr 4) [sr 4] ∧
    (wave []).me.counter .gst ≤ ((wave [(4, 0)]).me.raw 4).toNat ∧ (wave []).me.counter .gst = 0 ∧ (wave []).myOps = [] ∧
    (let b := waveK [(4, 0)] fun k => { k with flight := [⟨.gst, 9, false⟩] }
     b.me.counter .gst ≠ 0 ∧ (b.me.raw 4).toNat < b.me.counter .gst ∧ b.fits .A (sr 4) [sr 4]) ∧
    (∃ p ∈ (finishing id).myOps, p.2.kind.returns = true) ∧
    (wave [(4, 7), (5, 1)]).fits .A (sr 4 ++ sr 5) [sr 4, sr 5] ∧ (wave []).acqHeld = false ∧
    ((wave [(5, 1)]).me.raw 5).toNat / 1024 = (wave []).pkgOf (dieOf (wave []).cur.1) ∧ (wave []).tileThere (1 % 1024) = true ∧
    2 ^ 18 ≤ ((wave [(5, 0x40000)]).me.raw 5).toNat ∧ ((wave [(5, 0x3FFFF)]).me.raw 5).toNat < 2 ^ 18 ∧
    (let s := ev (syncing (wave []) fun y => { y with waiters := [(64 + 3, 0)] }) { tile := 0, id := 3 }
     let y := (s.tile s.arg.tile).sync
     fget? y.evLocal s.arg.line ≠ some s.tileCycle ∧ fget? y.mutex s.arg.id = none ∧ (y.waiters.filter fun w => w.1 == 64 + s.arg.id) = (64 + s.arg.id, 0) :: [] ∧ 0 < 256) ∧
    (let s := ev (syncing (wave []) fun y => { y with evLocal := [(3, 0)] }) { tile := 0, line := 3 }
     fget? (s.tile s.arg.tile).sync.evLocal s.arg.line = some s.tileCycle) :=
  ⟨fits_of (by decide +kernel), fits_of (by decide +kernel), by decide +kernel, by decide +kernel, by decide +kernel,
   ⟨by decide +kernel, by decide +kernel, fits_of (by decide +kernel)⟩, by decide +kernel, fits_of (by decide +kernel), by decide +kernel,
   by decide +kernel, by decide +kernel, by decide +kernel, by decide +kernel, by decide +kernel, by decide +kernel⟩
theorem test_meets_NamedBarriers : (∀ n ∈ [1#32, 224#32, 0#32, 225#32], (wave [(4, n)]).fits .A (sr 4) [sr 4]) ∧ (wave []).waited = 0 ∧
    (wave []).unreleased = false ∧ (fget (wave []).myTile.sync.bar 3 Barrier.init).opened = false ∧
    (let s := syncing (waveK [(4, 2)] fun k => { k with barPhase := [(3, 0)], waitOn := [(0x1000, 1)] }) fun y =>
       { y with bar := [(3, { Barrier.init with phase := 1 })] }
     s.fits .A (sr 4) [sr 4] ∧ s.fits .A [] [] ∧ s.waited = 1 ∧ (fget s.myTile.sync.bar 3 Barrier.init).opened = false ∧ fget? s.me.barPhase 3 = some 0) ∧
    (let s := syncing (waveK [] fun k => { k with barPhase := [(3, 0)] }) fun y =>
       { y with bar := [(3, { Barrier.init with opened := true, n := 2, arrived := [0] })] }
     let x := fget s.myTile.sync.bar 3 Barrier.init
     s.fits .A [] [] ∧ x.opened = true ∧ x.arrived.length < x.n ∧ fget? s.me.barPhase 3 = some x.phase) ∧
    (let s := ev (syncing (wave []) fun y => { y with bar := [(3, { Barrier.init with opened := true, n := 2, arrived := [0, 1] })] }) { tile := 0, id := 3 }
     let x := fget (s.tile s.arg.tile).sync.bar s.arg.id Barrier.init
     x.opened = true ∧ x.n ≤ x.arrived.length ∧ x.queued = []) :=
  ⟨fun n h => by
     simp only [List.mem_cons, List.not_mem_nil, or_false] at h
     rcases h with rfl | rfl | rfl | rfl <;> exact fits_of (by decide +kernel),
   by decide +kernel, by decide +kernel, by decide +kernel,
   ⟨fits_of (by decide +kernel), fits_of (by decide +kernel), by decide +kernel, by decide +kernel, by decide +kernel⟩,
   ⟨fits_of (by decide +kernel), by decide +kernel, by decide +kernel, by decide +kernel⟩, by decide +kernel⟩
/-- A state whose mesh barrier of tile 0 is configured. -/
def meshed (cfg : Word) (f : Sync → Sync) : State := syncing (wave []) fun y => f { y with mbarcfg := cfg }
theorem test_meets_MeshBarriers : (meshed 0x00100000 id).fits .A [] [] ∧ (meshed 0x00100000 id).waited = 0 ∧
    (meshed 0x00100000 id).myTile.sync.mbarcfg.msb = false ∧
    (let s := meshed 0x80100000 id; let w := s.myTile.sync.mbarcfg.toNat
     s.fits .A [] [] ∧ s.waited = 0 ∧ s.myTile.sync.mbarcfg.msb = true ∧ w / 2 ^ 20 % 256 = 1 ∧ w % 32 = 0 ∧ w / 32 % 32 = 0 ∧ tileX s.cur.1 = 0 ∧
     tileY s.cur.1 = 0 ∧ w % 32 + (w / 1024 % 32 + 1) ≤ 32 ∧ s.unreleased = false ∧ s.myTile.sync.mbDone = false ∧ s.cur.2 ∉ s.myTile.sync.mbArr ∧
     s.myTile.sync.mbRelease = none) ∧
    (let s := meshed 0x80FFFFFF id; let w := s.myTile.sync.mbarcfg.toNat
     w / 2 ^ 20 % 256 = 15 ∧ 32 < w % 32 + (w / 1024 % 32 + 1)) ∧
    (let s := waveK [] fun k => { k with waitOn := [(0x1000, 1)] }
     s.fits .A [] [] ∧ s.waited = 1 ∧ ∀ e ∈ s.myTile.sync.mbWait, e.1 ≠ s.cur.2) ∧
    (let s := ev (meshed 0x80100000 fun y => { y with mbRelease := some 0, mbWait := [(0, 5, true)], mbArr := [0] }) { tile := 0 }
     let y := (s.tile s.arg.tile).sync
     y.mbRelease = some 0 ∧ 0 ≤ s.now ∧ y.mbNext = [] ∧ ∀ e ∈ y.mbWait, e.2.2 = true) ∧
    (let s := ev (meshed 0x80100000 fun y => { y with mbRelease := some 1 }) { tile := 0 }
     (s.tile s.arg.tile).sync.mbRelease = some 1 ∧ s.now < 1) ∧
    (let s := ev (meshed 0x80200000 fun y => { y with mbWait := [(0, 5, false)], mbArr := [0] }) { tile := 0, ctx := 0, val := 5 }
     let y := (s.tile s.arg.tile).sync
     y.mbRelease = none ∧ s.arg.ctx ∈ y.mbArr ∧ y.mbWait = [(s.arg.ctx, s.arg.val, false)]) :=
  ⟨fits_of (by decide +kernel), by decide +kernel, by decide +kernel,
   ⟨fits_of (by decide +kernel), by decide +kernel⟩, by decide +kernel, ⟨fits_of (by decide +kernel), by decide +kernel⟩,
   by decide +kernel, by decide +kernel, by decide +kernel⟩
/-- Wave 0 with x4 at its local block, which starts with the block of a copy: 4 bytes from offset 2048 of the local block to offset 3072. -/
def copying : State := (local_ [] id).updMem fun m =>
  { m with scr := m.scr.writeN (scrKey 0 0x70000) 64 (0xFC0000070800 + 0xFC0000070C00 * 2 ^ 64 + 4 * 2 ^ 128 + 2 ^ 160 + 2 * 2 ^ 272) }
theorem test_meets_MailboxesAndCopies : copying.fits .A (xr 4) [xr 4] ∧ copying.fits .A (sr 3) [] ∧ (copying.me.rawx 4).toNat = 0xFC0000070000 ∧
    copying.scrWin 0 0xFC0000070000 = .own 0x70000 ∧ copying.unreleased = false ∧ fget? copying.myTile.un.mb 3 = none ∧
    copying.myTile.share? copying.me.lidx = some share ∧
    (let b := (readBlock (copying.scrRead 0 0x70000 64)).1
     readBlock (copying.scrRead 0 0x70000 64) = (b, false) ∧ copying.copyAddrBad 0 b.src = false ∧ copying.copyAddrBad 0 b.dst = false ∧
     copying.copyRowsOk 0 0 false (rowVas b.src b.spitch b.rows) b.rowBytes false = true ∧
     copying.copyRowsOk 0 0 false (rowVas b.dst b.dpitch b.rows) b.rowBytes true = true ∧ b.cnt = true) ∧ copying.me.counter .cpy < 63 ∧
    (wave [(4, 0)]).scrWin 0 0 = .none ∧ (local_ [] id).scrWin 0 0xFC0000070020 = .own 0x70020 ∧ 0xFC0000070020 % 64 ≠ 0 :=
  ⟨fits_of (by decide +kernel), fits_of (by decide +kernel), by decide +kernel⟩
/-- Stage queue 5 in use: capacity 2, entries of 64 bytes, unbound. -/
def staged (s : State) (p r : Nat) : State :=
  { s with stageQs := [(5, { StageQ.init with en := true, dlog := 1, elog := 6, pushed := p, readyix := r, ptag := 4096, ctag := 4096 })],
           launches := s.launches.map fun q => (q.1, { q.2 with idx := 4095 }) }
theorem test_meets_StageQueues : let s := staged (local_ [(3, 5)] id) 1 1; let x := (s.stageCopy 5).1
    s.fits .A (sr 2 ++ sr 3) [sr 3] ∧ s.fits .A (sr 2 ++ xr 4 ++ sr 3) [xr 4, sr 3] ∧ (s.me.raw 3).toNat = 5 ∧ x.en = true ∧ s.waited = 0 ∧
    x.ptag = (s.launch s.me.lidx).tag + 1 ∧ x.ctag = (s.launch s.me.lidx).tag + 1 ∧ (s.me.rawx 4).toNat % 64 = 0 ∧
    (∃ es, (s.stageCopy 5).2.stageData (s.me.rawx 4).toNat (2 ^ x.elog) 0 = .ok es) ∧
    (∃ es, (s.stageCopy 5).2.stageData (s.me.rawx 4).toNat (2 ^ x.elog) 1 = .ok es) ∧ (s.stageCopy 5).2.unreleased = false ∧
    stageDiff x.pushed x.freed ≠ 2 ^ x.dlog ∧ x.readyix ≠ x.popped ∧
    (let x := ((staged (local_ [(3, 5)] id) 2 0).stageCopy 5).1
     stageDiff x.pushed x.freed = 2 ^ x.dlog ∧ x.readyix = x.popped ∧ x.popped = x.freed) ∧
    (wave [(3, 256)]).fits .A (sr 2 ++ sr 3) [sr 3] ∧ 256 ≤ ((wave [(3, 256)]).me.raw 3).toNat ∧
    (let s := local_ [] fun k => { k with waitOn := [(0x1000, 1)], answer := [(0x1000, [0#32])] }
     s.waited = 1 ∧ s.answered = some (0#32 :: []) ∧ s.fits .A (sr 2 ++ xr 4 ++ sr 3) [xr 4, sr 3]) :=
  ⟨fits_of (by decide +kernel), fits_of (by decide +kernel), by decide +kernel, by decide +kernel, by decide +kernel, by decide +kernel,
   by decide +kernel, by decide +kernel, ⟨_, rfl⟩, ⟨_, rfl⟩, by decide +kernel, by decide +kernel, by decide +kernel, by decide +kernel,
   fits_of (by decide +kernel), by decide +kernel, ⟨by decide +kernel, by decide +kernel, fits_of (by decide +kernel)⟩⟩

/-! ### Witnesses: the matrix array -/

/-- A tile whose L1 TLB maps the page at 0x1000 to the start of HBM, which holds a number's bytes from offset 8. -/
def coded (s : State) (w : Nat) : State :=
  let s := { s with tiles := s.tiles.map fun (p : Nat × Tile) =>
    (p.1, { p.2 with un := { p.2.un with tlb := [(tlbKey 0 bootVa 4096, bootLeaf)], ic := [0] } }) }
  s.updMem fun m => { m with hbm := m.hbm.writeN 8 8 w }
/-- Wave 0 in gang 2 of launch 0, and a matrix array. -/
def ganged (l : FMap Word) (k : Ctx → Ctx) (f : Matrix → Matrix) : State :=
  let s := local_ l fun c => k { c with gang := some 2 }
  { s with tiles := s.tiles.map fun p => (p.1, { p.2 with mx := f { p.2.mx with gangs := [(2, ⟨0, [0], 0, []⟩)] } }) }
theorem test_meets_MatrixSetup : (wave []).fits .W (xr 4 ++ sr 6 ++ sr 7) [xr 4, sr 6, sr 7] ∧ (wave []).fits .W (sr 6) [sr 6] ∧ (wave []).fits .W (sr 6) [] ∧
    (0x1000 + 8) / 4096 = 0x1000 / 4096 ∧
    (∃ c, (coded (wave [(6, 2)]) 0xE95C).fetchBody 0 0 0x1000 1 0x1008 = .ok (c, 0x100A, true)) ∧
    (∃ c e, (coded (wave [(6, 2)]) 0x00BE).fetchBody 0 0 0x1000 1 0x1008 = .ok (c, e, false)) ∧
    (coded (wave [(6, 2)]) 0x003E).fits .W (sr 6) [sr 6] ∧ (coded (wave [(6, 2)]) 0x003E).me.raw 6 ≠ 0 ∧
    (wave []).me.gang = none ∧ (ganged [] id id).fits .W (sr 6) [] ∧ (ganged [] id id).fits .W (sr 6) [sr 6] ∧ (ganged [] id id).me.gang = some 2 ∧
    (ganged [] id id).myTile.mx.owner ≠ some 2 ∧ (ganged [] id id).waited = 0 ∧
    (ganged [] id fun m => { m with owner := some 2 }).myTile.mx.owner = some 2 ∧
    (∀ p ∈ (ganged [] id fun m => { m with owner := some 2 }).myTile.queuedAll, p.2.kind.ofArray = false) ∧
    (let s := ganged [] id id; let m := s.myTile.mx
     m.accQ = [] ∧ (s.myTile.share? s.me.lidx).elim 0 (·.acc) < m.held 2 + 17 ∧ m.held 2 + 16 ≤ (s.myTile.share? s.me.lidx).elim 0 (·.acc) ∧
     16 ≤ s.myTile.accFree s.me.lidx ∧ m.gangLaunch 2 = some s.me.lidx ∧ 16 ≤ ((List.range 16).filter fun a => (fget? m.accOwner a).isNone).length ∧
     (∀ p ∈ s.myTile.queuedAll, p.2.names 0 = false)) ∧
    (∀ e ∈ (wave []).me.ring, e.2.unit = 2 → e.2.state ≠ .issued) :=
  ⟨fits_of (by decide +kernel), fits_of (by decide +kernel), fits_of (by decide +kernel), by decide, ⟨_, rfl⟩, ⟨_, _, rfl⟩,
   fits_of (by decide +kernel), by decide +kernel, by decide +kernel, fits_of (by decide +kernel), fits_of (by decide +kernel), by decide +kernel⟩
/-- Wave 0 in gang 2, which owns the array and accumulator tile 0, with a transfer map in tm1 of a two-dimensional array of local scratch and
a tag bf16 in the active plane. -/
def arrayed (ty cols rows : Nat) : State :=
  let d : BitVec 512 := BitVec.ofNat 512 (0xFC0000070000 + ty * 2 ^ 64 + 2 ^ 72 + cols * 2 ^ 160 + rows * 2 ^ 192 + 128 * 2 ^ 320 + cols * 2 ^ 448 +
    rows * 2 ^ 464)
  ganged [] (fun k => { k with regs := { k.regs with tm := [(1, d)], st := [(0, ⟨0xFC0000070000#48, 128, 0, 0⟩)] } }) fun m =>
    { m with owner := some 2, accOwner := [(0, 2)], active := { Plane.none with ty := some .bf16 } }
theorem test_meets_MatrixDispatch : let s := arrayed 2 32 64
    isPath s.cur.2 = false ∧ s.me.ringBusy = false ∧ s.acqHeld = false ∧ s.ownsArray = .yes ∧ s.holdsAcc 0 = true ∧
    (∀ k ∈ [MKind.acczero, .mflip, .tmld, .mlds, .mstream false, .mstream true, .mdrain false, .mdrain true],
      (s.myTile.mx.q k.queue).length < k.queue.depth) ∧
    (s.me.tmBusy [1] = false ∧ s.me.busySAny (xr 4) = false ∧ s.me.psnAny (xr 4) = false) ∧ s.mxHeld = false ∧
    (s.me.rawx 4 + (0#16).signExtend 64).toNat % 64 = 0 ∧ (∃ x, s.scrWin s.cur.1 (s.me.rawx 4 + (0#16).signExtend 64).toNat = .own x) ∧
    (arrayed 2 32 64).me.mldsBad 0 false 1 0 = false ∧ s.mxWin s.cur.1 (tmap (s.me.tm 1)).1.base ≠ .bad ∧
    s.myTile.activeTag = some (.bf16, 0, false) ∧
    (∀ va ∈ (List.range 64).map (s.me.stream 0).row, s.mxWin s.cur.1 va ≠ .bad ∧ va % 4 = 0 ∧ va % 8 = 0 ∧ s.mxWin s.cur.1 va ≠ .mem) ∧
    (let m := (tmap (s.me.tm 1)).1
     (tmap (s.me.tm 1)).2 = false ∧ m.pcols = 32 ∧ m.prows = 64 ∧ m.ty = .bf16) ∧ s.me.counter .mtx < 63 ∧
    (let m := (tmap ((arrayed 0 32 64).me.tm 1)).1
     (tmap ((arrayed 0 32 64).me.tm 1)).2 = false ∧ m.pcols = 32 ∧ m.prows = 64 ∧ m.ty = .f32) := by
  refine ⟨by decide +kernel, by decide +kernel, by decide +kernel, by decide +kernel, by decide +kernel, by decide +kernel, by decide +kernel,
    by decide +kernel, by decide +kernel, ⟨_, rfl⟩, by decide +kernel⟩
/-- An array instruction alone in the compute queue of tile 0, its completion taking place. -/
def computing (k : MKind) : State :=
  let e : Entry := { Entry.init with seq := 3, state := .issued, unit := 2, work := .matrix { MWork.init k with n := 1 } }
  ev (ganged [] (fun c => { c with ring := [(3, e)], dseq := 4 }) fun m => { m with compQ := [(0, 3)] }) { tile := 0, ctx := 0, seq := 3 }
theorem test_meets_MatrixWork : (∀ k ∈ [MKind.mflip, .acczero], let s := computing k; let e := (s.ctx 0 0).entry 3
      e.seq = s.arg.seq ∧ e.state = .issued ∧ e.unit = 2 ∧ e.work = .matrix { MWork.init k with n := 1 } ∧ e.started = false ∧ s.arg.val = 0 ∧
      e.rows = 0 ∧ (s.tile 0).mx.compQ.head? = some (0, 3) ∧ (s.tile 0).mxReady { MWork.init k with n := 1 } = true ∧
      (s.ctx 0 0).mxStopped 3 = false) ∧
    (MWork.init .mflip).z = false ∧ (MWork.init (.mstream false)).row0 + 63 < 64 ∧
    (let x := ((ev (ganged [] id fun m => { m with macq := [(2, 0)] }) { tile := 0 }).tile 0).mx
     x.owner = none ∧ x.macq = (2, 0) :: []) ∧
    (let s := ev (ganged [] id fun m => { m with accQ := [(0, 2, 16, 9)], owner := some 1 }) { tile := 0, ctx := 0, val := 9 }
     (s.tile 0).mx.owner ≠ none ∧ (s.arg.ctx, 2, 16, s.arg.val) ∈ (s.tile 0).mx.accQ ∧ s.arg.ctx < 256) := by decide +kernel

/-! ### Witnesses: travel, packets and launches -/

/-- Changes to launch 0. -/
def launching (s : State) (f : Launch → Launch) : State := { s with launches := s.launches.map fun p => (p.1, f p.2) }
/-- A launch that may send and whose code starts at 0x1000. -/
def sending (s : State) : State := launching s fun x => { x with r := { x.r with budget := 9, classtab := 64, entry := 0x1000 } }
theorem test_meets_TravelInstructions : let s := sending (shared (wave [(3, 1), (5, 1)])); let p := sending (shared (path [(3, 1)]))
    s.fits .A (sr 2 ++ sblk 8 10 ++ sr 3 ++ sr 5) ([sr 2, sr 3, sr 5] ++ (sblk 8 10).map fun r => [r]) ∧ (s.me.raw 3).toNat = 1 ∧
    (s.launch s.me.lidx).r.budget ≠ 0 ∧ (s.launch s.me.lidx).r.classtab ≠ 0 ∧ s.waited = 0 ∧ s.cur.2 < 256 ∧ s.creditFree 0 s.me.lidx = true ∧
    (1 / 1024 = s.pkgOf (dieOf 0) ∧ s.tileThere 1 = true) ∧
    (let a := sending (shared (waveK [(3, 1)] fun k => { k with waitOn := [(0x1000, 1)], answer := [(0x1000, [])] }))
     a.waited = 1 ∧ a.answered = some [] ∧ a.unreleased = false ∧ a.fits .A (sr 2 ++ sblk 8 10 ++ sr 3 ++ sr 5)
       ([sr 2, sr 3, sr 5] ++ (sblk 8 10).map fun r => [r])) ∧
    ((wave [(3, 1)]).launch 0).r.budget = 0 ∧ 2 ^ 18 ≤ ((wave [(3, 0x40000)]).me.raw 3).toNat ∧ 2 ^ 24 ≤ ((wave [(3, 0x1000000)]).me.raw 3).toNat ∧
    p.fits .P (sr 3) [sr 3] ∧ p.me.quiet = true ∧ p.me.uiq = [] ∧ rpcOf (p.me.regs.pc + 8#48) (p.launch p.me.lidx).r.entry = some 4 ∧
    (∀ r, r < 10 → p.me.psn r = false) ∧
    (launching p fun x => { x with r := { x.r with entry := 0x2000 } }).me.quiet = true ∧
    rpcOf (p.me.regs.pc + 8#48) 0x2000000 = none ∧
    (at_ 192 { ctx [] with uiq := [⟨0, 0⟩] }).me.uiq ≠ [] ∧
    (wave [(6, 77)]).fits .A (sr 2 ++ sr 6 ++ sr 7) [sr 6, sr 7] ∧ (wave [(6, 77)]).myTile.trav.route? 77 = none ∧
    ((wave [(6, 77)]).me.raw 6).toNat < 2 ^ 24 ∧
    (∃ r, ({ Travel.init with routes := [(77, [5], 4, 1, 0)] } : Travel).route? 77 = some r) ∧
    (wave []).fits .A (sblk 8 15) ((sblk 8 15).map fun r => [r]) ∧
    (wave []).namesOk { s := sr 2, v := (List.range 16).map (0 + ·) } = false ∧
    (let w := waveK [] fun k => { k with regs := { k.regs with q := 16, blocks := [(0, 2)] } }
     let nm : Named := { s := sr 2, v := (List.range 16).map (0 + ·) }
     w.namesOk nm = true ∧ w.me.regs.dstack = [] ∧ w.me.busyAny nm = false ∧ w.myTile.trav.hitQ = [] ∧ isPath w.cur.2 = false) :=
  ⟨fits_of (by decide +kernel), by decide +kernel, by decide +kernel, by decide +kernel, by decide +kernel, by decide +kernel, by decide +kernel,
   by decide +kernel, ⟨by decide +kernel, by decide +kernel, by decide +kernel, fits_of (by decide +kernel)⟩, by decide +kernel, by decide +kernel,
   by decide +kernel, fits_of (by decide +kernel), by decide +kernel, by decide +kernel, by decide +kernel, by decide +kernel, by decide +kernel,
   by decide +kernel, by decide +kernel, fits_of (by decide +kernel), by decide +kernel, by decide +kernel, ⟨_, rfl⟩, fits_of (by decide +kernel),
   by decide +kernel, by decide +kernel⟩
theorem test_meets_RefusedRequests : (let a := sending (shared (waveK [(3, 1)] fun k => { k with waitOn := [(0x1000, 1)], answer := [(0x1000, failedAnswer)] }))
      a.waited = 1 ∧ a.answered = some failedAnswer ∧ a.unreleased = false) ∧ [] ≠ failedAnswer ∧
    (let s := wave [(6, 77)]; s.tileThere (s.segHome 77) = true ∨ s.tileThere (s.segHome 77) = false) ∧
    (let s := { wave [(6, 77)] with dies := [] }; s.tileThere (s.segHome 77) = false ∧ s.cur.2 < 256 ∧ s.waited = 0) ∧
    (wave [(6, 1025)]).tileThere ((wave []).segHome 1025) = true ∧
    (let s := waveK [(6, 77)] fun k => { k with waitOn := [(0x1000, 1)], answer := [(0x1000, [1#32, 2#32, 0#32, 1#32, 5#32])] }
     s.waited ≠ 0 ∧ s.answered = some (1#32 :: 2#32 :: 0#32 :: 1#32 :: [5#32])) := by decide +kernel
theorem test_meets_BlocksAndLaunchControl : let s := local_ [] id
    s.waited = 0 ∧ 0xFC0000070000 % 128 = 0 ∧ s.acqHeld = false ∧ s.scrWin s.cur.1 0xFC0000070000 = .own 0x70000 ∧
    s.myTile.allows s.me.lidx 0x70000 256 false (s.cur.2 == sysCtx) = true ∧
    (∃ ws, s.hasBlock 4 128 128 1 ws) ∧ (∃ ws, s.hasBlock 4 96 16 1 ws) ∧ (∃ ws, s.hasBlock 4 64 64 2 ws ∧ ws.length = 16) ∧
    (∃ ws, s.hasBlock 4 256 64 2 ws) ∧
    s.fits .A (sr 2 ++ sblk 8 8 ++ xr 4 ++ sr 3) ([xr 4, sr 3] ++ (sblk 8 8).map fun r => [r]) ∧
    s.fits .A (sblk 16 4 ++ sblk 8 8 ++ xr 4) (xr 4 :: (sblk 8 7).map fun r => [r]) ∧ s.fits .A (xr 4) [xr 4] ∧ s.unreleased = false ∧
    (fget s.myTile.un.replies 2 []).length < 16 ∧ s.me.counter .svc < 63 ∧ s.fits .A (sblk 8 4) [] ∧
    s.fits .A (xr 6 ++ xr 4 ++ sr 3) [xr 4, sr 3] ∧ (s.me.raw 3).toNat < 2 ^ 17 ∧ s.dieUp 0 = true ∧ s.dieUp 1 = false ∧
    s.fits .A [] [] ∧ (path []).fits .A [] [] ∧ (path []).me.quiet = true ∧ (path []).me.uiq = [] ∧
    rpcOf ((path []).me.regs.pc + 8#48) 0x1000 = some 4 ∧ s.fits .A (sr 3) [sr 3] ∧ (∃ y, fget? s.launches s.me.lidx = some y ∧ y.run = 1 ∧ y.commit ≠ 4) ∧
    (∃ y, fget? (launching s fun x => { x with commit := 4 }).launches s.me.lidx = some y ∧ y.run = 1 ∧ y.commit = 4 ∧ y.later = none) ∧
    s.fits .A (xr 2) [] ∧ s.fits .W (sr 3) [] ∧ s.me.regs.q < 8 * 2 ∧ 8 * 1 ≤ s.me.regs.q ∧ (s.launch s.me.lidx).tier ≠ 1 ∧
    (let s := launching s fun x => { x with tier := 1 }
     (s.launch s.me.lidx).tier = 1 ∧ s.me.psnAny (sr 3) = false ∧ s.me.attachedDone = true ∧ s.myTile.queuedAll = []) :=
  ⟨by decide +kernel, by decide, by decide +kernel, by decide +kernel, by decide +kernel,
   ⟨List.replicate 32 0#32, rfl⟩, ⟨List.replicate 24 0#32, rfl⟩,
   ⟨List.replicate 16 0#32, rfl, by decide⟩, ⟨List.replicate 64 0#32, rfl⟩,
   fits_of (by decide +kernel), fits_of (by decide +kernel), fits_of (by decide +kernel), by decide +kernel, by decide +kernel, by decide +kernel,
   fits_of (by decide +kernel), fits_of (by decide +kernel), by decide +kernel, by decide +kernel, by decide +kernel, fits_of (by decide +kernel),
   fits_of (by decide +kernel), by decide +kernel, by decide +kernel, by decide +kernel, fits_of (by decide +kernel),
   ⟨_, rfl, by decide +kernel⟩, ⟨_, rfl, by decide +kernel⟩, fits_of (by decide +kernel), fits_of (by decide +kernel), by decide +kernel⟩
/-- A packet of launch 0 that starts a new thread of class 1. -/
def packet : Packet := { Packet.init with lidx := 0, thread := 5, cls := 1 }
/-- A packet bound to segment 1025, whose home is tile 0. -/
def bound : Packet := { packet with dkind := true, dest := 1025 }
/-- Tile 0 with a share of launch 0 that has its class table and path slots, and its packet machinery. -/
def arriving (slots : Nat) (l : FMap Word) (a : Arg) (f : Travel → Travel) : State :=
  let s := wave l
  ev { s with tiles := s.tiles.map fun (p : Nat × Tile) =>
    (p.1, { p.2 with shares := [{ share with pslots := slots, classes := some [0x1000, 0x1100] }], trav := f p.2.trav }) } a
/-- The inbox of tile 0 full of packets that cannot start: 512 of them fill two units. -/
def crowded (n : Nat) (p : Packet) : State := arriving 0 [] { tile := 0, packet := p } fun v => { v with inbox := List.replicate n bound }
theorem test_meets_PacketArrival : let a : Arg := { tile := 0, packet := packet }; let s := arriving 1 [] a id
    s.arg.packet = packet ∧ s.indexLive packet.lidx = true ∧ s.indexLive 1 = false ∧ packet.dkind = false ∧ ((s.tile 0).share? packet.lidx).isSome = true ∧
    s.canStart 0 packet = true ∧ (s.tile 0).trav.layby = [] ∧ (s.tile 0).trav.inbox = [] ∧ (s.tile 0).slotFor 0 = some false ∧
    ((s.tile 0).ctx 192).status = .idle ∧ s.canStart 0 bound = false ∧ s.segHome bound.dest = 0 ∧ s.segHome 1026 ≠ 0 ∧
    (∀ g ∈ (s.tile 0).trav.segs, g.seg ≠ bound.dest) ∧
    (let s := arriving 1 [] a fun v => { v with inbox := [packet] }
     (s.tile 0).trav.inbox = [packet] ∧ s.canStart 0 packet = true) ∧
    (let s := arriving 1 [] { tile := 0, packet := bound } fun v => { v with segs := [⟨1025, 0, 1, false, false, 0, false⟩] }
     (∃ g ∈ (s.tile 0).trav.segs, g.seg = bound.dest) ∧ s.canStart 0 bound = false ∧ (s.tile 0).trav.inbox.length < 256 * ((s.tile 0).inboxU + 1)) ∧
    (let s := arriving 1 [] a fun v => { v with layby := [bound] }
     (s.tile 0).trav.layby ≠ [] ∧ (∀ q ∈ (s.tile 0).trav.layby, s.canStart 0 q = false ∧ s.indexLive q.lidx = true) ∧
     2 * (s.tile 0).trav.inbox.length < 256 * ((s.tile 0).inboxU + 1)) := by decide +kernel
/-- A die whose tile (0, 0) owns extents. -/
def lending (s : State) : State :=
  { s with dies := s.dies.map fun (p : Nat × Die) =>
      (p.1, { p.2 with bar0 := { p.2.bar0 with layby := [(1, BitVec.ofNat 128 (2 ^ 72))] } }) }
theorem test_meets_PacketResources : (let s := arriving 0 [] { tile := 0 } fun v => { v with layby := [bound] }; let v := (s.tile 0).trav
      s.arg.last = false ∧ s.arg.ok = false ∧ v.claiming = false ∧ v.laid.length < v.layby.length ∧ s.freeExtent = none ∧
      (lending s).freeExtent = some (1, 0)) ∧
    (let s := arriving 0 [] { tile := 0 } id; let v := (s.tile 0).trav
     v.layby.length ≤ v.laid.length ∧ (∀ e ∈ v.extents, e ∈ v.usedExtents)) ∧
    (let s := arriving 0 [] { tile := 0 } fun v => { v with extents := [(1, 0)] }; let v := (s.tile 0).trav
     v.extents.find? (fun e => !v.usedExtents.contains e) = some (1, 0)) ∧
    (∀ v ∈ [0, 1], let a : Arg := { tile := 0, ok := true, val := v, idx := 1 }; a.last = false ∧ a.ok = true) ∧
    (let s := arriving 0 [] { tile := 0, who := (0, 3) } id
     (∃ h, (s.tile 0).share? 0 = some h ∧ h.classes.isSome = true ∧ 0 < h.credits ∧ h.creditQ = []) ∧ s.arg.ok = false ∧ s.arg.req ≠ 1 ∧
     s.arg.who.1 = s.arg.tile ∧ (s.tile 0).trav.hitQ = [] ∧ (s.tile 0).trav.hits.length + (s.tile 0).trav.hitRes < 256 ∧ s.arg.lidx = 0 ∧
     s.indexLive ((s.arg.words.getD 15 0#32).toNat % 2 ^ 13) = true) ∧
    (let s := arriving 0 [] { tile := 0, who := (1, 3), words := List.replicate 16 1#32 } fun v => { v with hitRes := 256 }
     s.arg.who.1 ≠ s.arg.tile ∧ s.arg.who.1 < 1024 ∧ 256 ≤ (s.tile 0).trav.hits.length + (s.tile 0).trav.hitRes ∧
     s.indexLive ((s.arg.words.getD 15 0#32).toNat % 2 ^ 13) = false) := by
  refine ⟨by decide +kernel, by decide +kernel, by decide +kernel, by decide +kernel, ⟨⟨_, rfl, by decide +kernel⟩, by decide +kernel⟩, by decide +kernel⟩
/-- Tile 0 with a share whose class table has not been read, and no credit left. -/
def unread (s : State) (base : Nat) (q : List (Nat × Nat)) : State :=
  ev { launching s (fun x => { x with r := { x.r with classtab := base } }) with
    tiles := s.tiles.map fun (p : Nat × Tile) => (p.1, { p.2 with shares := [{ share with classes := none, credits := 0, creditQ := q }] }) } { tile := 0 }
theorem test_meets_ClassTables : (let z := unread (wave []) 0 []
      (z.tile 0).share? 0 = some { share with classes := none, credits := 0 } ∧ z.indexLive 0 = true ∧ (z.launch 0).r.classtab = 0) ∧
    ((unread (wave []) 0x2000 []).launch 0).r.classtab = 0x2000 ∧
    (∃ va, (unread (wave []) 0x2000 []).readClasses 0 0 0x2000 64 = .error (.miss, va)) ∧
    (∃ ps, (unread (mapped []) 0x2000 []).readClasses 0 0 0x2000 64 = .ok ps) ∧
    ((unread (mapped []) 0x2000 []).readClasses 0 0 0x2000 64).toOption.elim true (fun ps =>
      let s := unread (mapped []) 0x2000 []
      let ls := ((ps.flatMap fun p => placeLines p 8 false).eraseDups : List (Nat × Bool))
      let y : SliceLine := { SliceLine.init with tok := 4, own := true, dv := true }
      !ls.isEmpty && ({ s with dies := s.dies.map fun (p : Nat × Die) => (p.1, { p.2 with slice := ls.map fun (l : Nat × Bool) => (l.1, y) }) }.linesFor 0 ls
        ⟨.classTableRead, { tile := 0 }⟩).1) = true ∧
    (∃ h, ((unread (wave []) 0 [(0, 3)]).tile 0).share? 0 = some h ∧ h.creditQ = (0, 3) :: [] ∧ h.ended = false) ∧
    (let s := ev { wave [] with freed := [(7, [0, 1])] } { tile := 0, lidx := 7 }
     fget? s.freed s.arg.lidx = some [0, 1] ∧ (∃ u ∈ [0, 1], u ≠ s.arg.tile) ∧ ∀ u ∈ [0], u = s.arg.tile) :=
  ⟨by decide +kernel, by decide +kernel, ⟨_, rfl⟩, ⟨_, rfl⟩, by decide +kernel, ⟨_, rfl, by decide +kernel⟩, by decide +kernel⟩

/-! ### Witnesses: segments -/

/-- A COLD segment of 4 KiB. -/
def cold : DirEntry :=
  { slot := 0, state := 0, ty := 1, pin := false, size := 1, owners := [], press := 0, noted := false, home := 2, hsel := 0, back := 0, acks := [] }
/-- The home of segment 1025 with an entry. -/
def homed (e : DirEntry) (a : Arg) (f : Travel → Travel) : State :=
  arriving 0 [] { a with seg := 1025 } fun v => f { v with dir := [(1025, e)] }
/-- The copy of segment 1025 at tile 0. -/
def copy1 (ready : Bool) : SegCopy := ⟨1025, 0x6000, 1, ready, false, 0, false⟩
/-- Of die 0 only tile 0 may take segments. -/
def only0 (s : State) : State := { s with tiles := s.tiles ++ (List.range 255).map fun t => (t + 1, { Tile.init with stopped := true }) }
/-- A message of the home of segment 1025 and an entry: does it meet a condition? -/
def atHome (e : DirEntry) (a : Arg) (f : Travel → Travel) (p : State → Bool) : Bool :=
  let s := homed e a f
  decide (s.segHome 1025 = 0) && decide (s.dirEntry? 1025 = some e) && p s
/-- Tile 0 with an area of 24 units, filled by a copy of segment 9. -/
def areaFull (e : DirEntry) : State :=
  let s := homed e { tile := 0 } fun v => { v with segs := [⟨9, 0x6000, 96, true, false, 0, false⟩] }
  only0 { s with tiles := s.tiles.map fun (p : Nat × Tile) => (p.1, { p.2 with segU := 24 }) }
theorem test_meets_SegmentRouting : (homed cold { tile := 1 } id).segHome 1025 ≠ 1 ∧
    (let a : Arg := { tile := 0, ok := true, words := [1, 2, 1, 1, 1, 0], ctx := 3 }
     a.ok = true ∧ a.words = 1#32 :: 2#32 :: 1#32 :: 1#32 :: 1#32 :: [0#32] ∧ [0#32].take 1 ≠ [] ∧ (2#32).toNat ≠ 4 ∧ (2#32).toNat ≠ 5 ∧
     a.ctx ≠ noCtx) ∧
    (let s := arriving 0 [] { tile := 0, packet := bound, seg := 1025 } id
     s.indexLive s.arg.packet.lidx = true ∧ s.arg.packet.dest = s.arg.seg ∧ s.dirEntry? 1025 = none) ∧
    (atHome cold { tile := 0, packet := bound } id fun s => let x := s.tile 0
      s.indexLive s.arg.packet.lidx && s.arg.packet.dkind && x.trav.segs.isEmpty && (x.share? 0).isSome && x.trav.inbox.isEmpty &&
      x.trav.layby.isEmpty && decide (0 < x.inboxCap) &&
      (s.pending ++ s.timers.map (·.2)).all fun v => decide (v.what ≠ .pageIn ∧ v.what ≠ .pageInRetry)) = true ∧
    (∀ o ∈ [0, 1], (atHome { cold with state := 2, owners := [o] } { tile := 0, packet := bound } id fun s =>
      decide ([o][ownerIdx s.arg.packet.thread 1]? = some o) && s.tileThere o) = true) := by decide +kernel
theorem test_meets_PageIns : (areaFull { cold with size := 80 }).chooseOwner 80 0 [] = some (0, true) ∧
    { homed cold { tile := 0 } id with dies := [] }.chooseOwner 1 0 [] = none ∧
    (atHome cold { tile := 0 } id fun s => decide ((only0 s).chooseOwner cold.size 0 [] = some (0, false))) = true ∧
    (∀ st ∈ [1, 4], let e := { cold with state := st, owners := [0] }
      (atHome e { tile := 0 } (fun v => { v with segs := [copy1 false] }) fun s => (s.fillCopy 0 1025 e).1) = true ∧
      (atHome e { tile := 0 } id fun s => !(s.fillCopy 0 1025 e).1) = true) ∧
    (let e := { cold with state := 3, owners := [1, 0] }
     (atHome e { tile := 0 } (fun v => { v with segs := [copy1 false] }) fun s => s.mem.scr.wf && (s.fillCopy 0 1025 e).1) = true ∧
     (atHome e { tile := 0 } id fun s => !(s.fillCopy 0 1025 e).1) = true ∧ e.owners.getLast? = some 0) := by decide +kernel
theorem test_meets_PressureAndEviction : (let e := { cold with state := 2, owners := [1], press := 15, noted := true }
      (atHome e { tile := 0 } id fun s => decide ((s.tile 0).trav.dir = [(1025, e)]) && decide ((only0 s).chooseOwner e.size 0 e.owners = some (0, false))) = true ∧
      16 ≤ min 63 (e.press + 1) ∧ e.owners.length < 4) ∧
    (let s := arriving 0 [] { tile := 0, seg := 1025 } fun v => { v with segs := [copy1 true] }
     s.arg.ok = false ∧ (s.tile 0).evictable = [copy1 true] ∧ (copy1 true).seg = s.arg.seg ∧ s.arg.val = 0) ∧
    (∀ n ∈ [[], [0]], (atHome { cold with state := 2, owners := [0], acks := n } { tile := 0, ok := true, who := (0, 0) } id fun s =>
      decide (s.arg.who.1 ∈ [0])) = true) ∧
    (atHome { cold with state := 2, owners := [1] } { tile := 0, ok := true, who := (0, 0) } id fun s => decide (s.arg.who.1 ∉ [1])) = true ∧
    (atHome { cold with state := 4, acks := [3] } { tile := 0, ok := true, who := (3, 0) } id fun s => !s.arg.last && [3].all (· == s.arg.who.1)) = true ∧
    routeOf [1#32, 4#32, 0#32, 1#32, 0#32] = none ∧ ([1#32, 2#32, 0#32, 1#32, 1#32, 5#32] : List Word).getD 1 0#32 ≠ 4#32 ∧
    (([1#32, 2#32, 0#32, 1#32, 1#32, 5#32] : List Word).drop 5).all (fun o => o.toNat != 0) = true ∧
    (atHome { cold with state := 4, owners := [0] } { tile := 0 } id fun s => !(s.tile 0).bound 1025) = true := by decide +kernel
/-- Context 3 of tile 0 in an SVC whose arguments are s1, s2 and x4, with a table of address space a whose GLOBAL page of 2 MiB is at 0. -/
def calling (asid : Nat) (l : FMap Word) (f : Tile → Tile) : State :=
  let s := ev (wave []) { tile := 0, ctx := 3 }
  let s := { s with tiles := s.tiles.map fun (p : Nat × Tile) => (p.1, f (p.2.setCtx 3 { ctx l with status := .trapped })),
                    queues := [(0, { Queue.init with asid := asid })],
                    dies := s.dies.map fun (p : Nat × Die) => (p.1, { p.2 with bar0 := { p.2.bar0 with asroot := [(asid, 0x10101#64)] } }) }
  s.updMem fun m => { m with hbm := m.hbm.writeN (16 * chanSpan) 8 0x101203 }
theorem test_meets_SupervisorFunctions : ((calling 0 [] id).ctx 0 3).status = .trapped ∧ ((calling 0 [] id).ctx 0 3).mst = false ∧
    ((calling 0 [] id).ctx 0 3).deferred = [] ∧ ((calling 0 [] id).ctx 0 3).rep = none ∧ ((calling 0 [] id).ctx 0 3).ring = [] ∧ (calling 0 [] id).asidOf 0 = 0 ∧ (calling 1 [] id).asidOf 0 ≠ 0 ∧
    (let k := fun (s : State) => s.ctx 0 3
     let s := calling 0 [(1, 1025), (2, 0x100)] id
     ((k s).raw 1).toNat = 1025 ∧ ((k s).raw 2).toNat / 256 % 256 = 1 ∧ s.dirEntry? 1025 = none ∧ s.segHome 1025 = 0 ∧
     (s.tile 0).trav.dir.length < 512 ∧ (k (calling 0 [(1, 0x1000000)] id)).raw 1 ≠ 0) ∧
    (let s := calling 0 [(1, 1025)] fun x => { x with trav := { x.trav with dir := [(1025, cold)] } }
     s.dirEntry? 1025 = some cold ∧ cold.acks = []) ∧
    (let s := calling 0 [(1, 2 + 32 * 24)] id; let n := ((s.ctx 0 3).raw 1).toNat
     n / 4 % 8 = 0 ∧ n / 2 ^ 10 = 0 ∧ n / 32 % 32 ≤ 24) ∧
    (let s := calling 0 [] fun x => { x with scrset := some (2, 3) }
     (s.tile 0).scrset = some (2, 3) ∧ (s.tile 0).shares = [] ∧ (s.tile 0).trav.inbox = [] ∧ (s.tile 0).trav.segs = []) ∧
    (let s := arriving 0 [] { tile := 0, val := 1 } id
     s.arg.tile ≠ s.arg.val ∧ s.dieUp (dieOf 0) = true ∧ s.exch = [] ∧ (s.tile 1).isFree = true ∧ (s.tile 1).signposts.length < 16) ∧
    (let s := calling 0 [] fun x => { x with signposts := [(1, 0, 0)] }
     (∃ p ∈ (s.tile 0).signposts, p.1 = 1) ∧ ∀ m ∈ s.msgs, m.dst ≠ .tile 1) := by decide +kernel

/-! ### Witnesses: coherence and transactions -/

/-- Die 0 holds line 0 so, and its home has this metadata. -/
def lined (y : SliceLine) (h : HomeLine) (a : Arg) : State :=
  let s := ev (wave []) a
  { s with dies := s.dies.map fun (p : Nat × Die) => (p.1, { p.2 with slice := [(0, y)] }), mem := { s.mem with home := [(0, h)] } }
/-- With the arbiter of line 0 so. -/
def arbed (s : State) (x : Arbiter) : State := { s with arbs := [(0, x)] }
/-- A die that holds one token, and one that wants to write and has linked an operation. -/
def one : SliceLine := { SliceLine.init with tok := 1, own := true, dv := true }
def wanting : SliceLine := { SliceLine.init with want := some true, linked := [.op 7] }
/-- No launch could be found by a conflict test. -/
theorem calm (y : SliceLine) (h : HomeLine) (a : Arg) : ∀ q ∈ (lined y h a).launches, q.2.matchable = true → q.2.vtag? = none := by
  intro q hq _
  have e : (lined y h a).launches = [(0, { Launch.init with run := 1 })] := rfl
  rw [e, List.mem_singleton] at hq
  rw [hq]
  rfl
theorem test_meets_TokenProtocol : (let s := lined SliceLine.init HomeLine.init {}
      s.retraining 0 = false ∧ s.persistentFor 0 = none ∧ { s with dies := [(0, { Die.init with resetting := true, booting := true })] }.retraining 0 = true) ∧
    (arbed (lined one HomeLine.init {}) { Arbiter.init with table := [(1, 0)], phase := 1 }).persistentFor 0 = some 1 ∧
    (∀ w ∈ [true, false], ∀ o ∈ [true, false], let s := lined SliceLine.init { HomeLine.init with hown := o, htok := 3 } { req := 1, write := w }
      s.retraining s.arg.line = false ∧ s.persistentFor s.arg.line = none ∧ s.arg.write = w ∧ (s.home s.arg.line).hown = o ∧ (s.home s.arg.line).htok ≠ 0) ∧
    (let s := lined SliceLine.init HomeLine.init { tok := 2, data := [7], width := 1 }
     s.arg.tok ≠ 0 ∧ s.arg.ok = false ∧ s.arg.width ≠ 0 ∧ (lined one HomeLine.init {}).arg.width = 0) ∧
    (∀ n ∈ [0, 2], let s := lined { one with dstate := n } HomeLine.init { req := 1, write := true }; let y := s.sliceLine s.arg.die s.arg.line
      y.tok ≠ 0 ∧ y.lock = none ∧ y.persist = none ∧ y.tok ≠ 4 ∧ y.own = true ∧ y.acks = [] ∧ y.dstate = n ∧ s.arg.req ≠ 4 ∧
      (n = 2 → y.clearing s.arg.die (.only none) ≠ [])) ∧
    (let s := lined { one with lock := some 3 } HomeLine.init {}; let y := s.sliceLine 0 0; y.tok ≠ 0 ∧ y.lock ≠ none) ∧
    (let s := lined { one with own := false } HomeLine.init {}; let y := s.sliceLine 0 0; y.tok ≠ 0 ∧ y.own = false) ∧
    (let s := lined SliceLine.init HomeLine.init {}; (s.sliceLine 0 0).tok = 0 ∧ s.dieUp 0 = true ∧ s.dieUp 1 = false ∧ (s.sliceLine 1 0).persist = none) ∧
    (let s := lined { one with persist := some 1 } HomeLine.init { tok := 1 }; let y := s.sliceLine s.arg.die s.arg.line
     y.persist = some 1 ∧ 1 ≠ s.arg.die ∧ 1 ≠ 4 ∧ y.lock = none ∧ s.arg.tok ≠ 0) :=
  ⟨by decide +kernel, by decide +kernel, by decide +kernel, by decide +kernel, by decide +kernel, by decide +kernel,
   by decide +kernel, by decide +kernel, by decide +kernel⟩
theorem test_meets_RetriesAndEvictions : (let y := (lined wanting HomeLine.init {}).sliceLine 0 0
      ¬(y.att ≠ 0 ∨ y.want = none ∨ y.satisfied = true ∨ y.linked = [] ∨ 2 ≤ y.pers) ∧ y.pers = 0) ∧
    (let y := (lined { wanting with tries := 3 } HomeLine.init {}).sliceLine 0 0; 3 ≤ y.tries) ∧
    (let s := lined { one with dstate := 0 } HomeLine.init {}; let y := s.sliceLine 0 0
     y.linked = [] ∧ y.lock = none ∧ y.kept = none ∧ s.present 0 0 = true ∧ y.acks = [] ∧ isDev 0 = true ∧ y.persist = none ∧ y.pers = 0 ∧
     s.persistentFor 0 = none) ∧
    (let s := lined one HomeLine.init { line := 2 ^ 50 + 5 }
     let s := { s with dies := s.dies.map fun (p : Nat × Die) => (p.1, { p.2 with hostHeld := [(5, ([], false))] }) }; let y := s.sliceLine 0 s.arg.line
     y.linked = [] ∧ y.lock = none ∧ y.kept = none ∧ s.present 0 s.arg.line = true ∧ isDev s.arg.line = false) ∧
    (let s := arbed (lined one HomeLine.init { tok := 1 }) { Arbiter.init with table := [(1, 0)], phase := 1 }
     s.persistentFor s.arg.line = some 1 ∧ 1 ≠ 4 ∧ s.arg.tok ≠ 0) ∧
    (let s := arbed (lined one HomeLine.init { tok := 1, own := true }) { Arbiter.init with census := [(0, none)], walk := 1 }
     s.persistentFor s.arg.line = some 4 ∧ s.arg.own = true) := by decide +kernel
/-- Die 0 wants a persistent request of line 0 and waits for its credit. -/
def pleading (n : Nat) (a : Arg) (l : List Link) : State :=
  let s := lined { wanting with pers := 1, linked := l } HomeLine.init a
  { s with dies := s.dies.map fun (p : Nat × Die) => (p.1, { p.2 with arbUsed := [(0, n)], arbWait := [(0, [0])] }) }
theorem test_meets_PersistentRequests : ((lined wanting HomeLine.init {}).sliceLine 0 0).pers ≠ 1 ∧
    (∀ n ∈ [3, 4], let s := pleading n {} [.op 7]
      s.arg.ok = false ∧ lineArb 0 = 0 ∧ (s.sliceLine 0 0).pers = 1 ∧ (s.sliceLine 0 0).linked ≠ [] ∧ fget (s.die 0).arbUsed 0 0 = n) ∧
    ((pleading 0 {} []).sliceLine 0 0).linked = [] ∧
    (let left := fun (s : State) => (fget (s.die 0).arbWait 0 []).filter fun l => (s.sliceLine 0 l).pers == 1
     left (pleading 4 { ok := true } [.op 7]) = 0 :: [] ∧ left (lined one HomeLine.init { ok := true }) = []) ∧
    (let x := (arbed (wave []) { Arbiter.init with table := [(1, 0)], phase := 1 }).arbOf 0; x.quiet = false ∧ x.walk ≠ 1) ∧
    (let x := (wave []).arbOf 0; x.quiet = true ∧ x.census = [] ∧ x.table = []) ∧
    (let x := (arbed (wave []) { Arbiter.init with census := [(0, some 1)], walk := 1, acks := [0] }).arbOf 0; x.walk = 1 ∧ x.acks.erase 0 = []) ∧
    (wave []).persistentFor 0 ≠ some 0 ∧
    (∀ y ∈ [one, SliceLine.init, { one with lock := some 3 }], ∀ r ∈ [0, 1, 4], ∀ d ∈ [0, 4],
      let s := arbed (lined y HomeLine.init { req := r, die := d })
        (if r = 4 then { Arbiter.init with census := [(0, none)], walk := 1 } else { Arbiter.init with table := [(r, 0)], phase := 1 })
      s.arg.ok = false ∧ s.persistentFor s.arg.line = some s.arg.req ∧ (s.home 0).htok ≠ 0 ∧
      (d = 0 → (s.sliceLine 0 0).linked = [] ∧ (s.sliceLine 0 0).acks = [] ∧ (s.sliceLine 0 0).dstate = 0)) := by decide +kernel
theorem test_meets_Deactivations : (let x := (arbed (wave []) { Arbiter.init with table := [(1, 0)], phase := 1 }).arbOf 0
      x.phase = 1 ∧ x.table.head? = some (1, 0) ∧ x.table.head? ≠ some (0, 0)) ∧
    (let a : Arg := { die := 4, last := false, ok := true }; a.last = false ∧ a.ok = true ∧ a.die = 4) ∧
    ((lined one HomeLine.init {}).sliceLine 0 0).linked = [] ∧
    (∀ t ∈ [[], [(1, 0)]], let x := (arbed (wave []) { Arbiter.init with table := (0, 0) :: t, phase := 2, acks := [0] }).arbOf 0
      x.acks.erase 0 = [] ∧ x.acks.erase 1 ≠ [] ∧ x.walk = 0 ∧ x.phase = 2 ∧ x.table = (0, 0) :: t ∧ x.census = []) ∧
    (let x := (arbed (wave []) { Arbiter.init with census := [(0, none)], walk := 2, acks := [0] }).arbOf 0; x.acks.erase 0 = [] ∧ x.walk = 2) ∧
    (let s := arbed (ev (wave []) { req := 1 }) { Arbiter.init with table := [(1, 0)], phase := 1 }; let z := fget s.arbs s.arg.id Arbiter.init
     z.phase = 1 ∧ z.table.head? = some (s.arg.req, s.arg.line) ∧ ∀ e ∈ s.timers, e.2.what ≠ .activationTimeout) ∧
    (∃ p ∈ (lined one { HomeLine.init with hint := 1 } { last := true }).mem.home, p.2.hint.getLsbD 0 = true) ∧
    (∀ w ∈ [0, 1, 2], let s := arbed (lined one HomeLine.init {}) { Arbiter.init with census := [(0, some 1)], walk := w }
      (s.arbOf 0).census = (0, some 1) :: [] ∧ (s.arbOf 0).walk = w ∧ s.inFlight 0 = false ∧
      (s.pend .tokenArrival { line := 0, tok := 1 }).inFlight 0 = true) ∧
    ((wave []).arbOf 0).census.head?.map (·.1) ≠ some 0 ∧
    (let s := lined one HomeLine.init { ok := true, val := 9 }
     let s := { s with dies := s.dies.map fun (p : Nat × Die) => (p.1, { p.2 with evacT := some 9 }) }
     (s.die 0).evacT = some s.arg.val ∧ s.heldLines 0 ≠ [] ∧ (wave []).dieUp 1 = false ∧ (wave []).dieUp 0 = true) := by decide +kernel
/-- A lane of an operation of wave 0 on the 4 bytes of line 0, at the slice of its die, which holds every token. -/
def atSlice (k : OpKind) : State :=
  let s := lined { SliceLine.init with tok := 4, own := true, dv := true } HomeLine.init { id := 9, tile := sliceTile 0 0 }
  { s with ops := [(9, s.mkOp k .b32 false ⟨0, 0⟩ [mkElem 0 0 4 (some (.dev 0 0)) 0 0] 5 false)] }
theorem test_meets_CachesAndSlices : (∀ k ∈ [OpKind.load, .store, .atom, .red], let s := atSlice k; let y := s.sliceLine s.arg.die 0
      ∃ o, s.op? s.arg.id = some o ∧ o.kind = k ∧ ∃ e, o.elems = [e] ∧ e.done = false ∧ e.loc = some (.dev 0 0) ∧ isDev 0 = true ∧
        s.sliceOf o e = some s.arg.tile ∧ dieOf s.arg.tile = s.arg.die ∧ s.shTag o.lidx e.cls = none ∧ (s.launch o.lidx).sheltered = false ∧
        s.arg.id ≠ 0 ∧ s.arg.ok = false ∧ y.dstate = 0 ∧ y.acks = [] ∧ y.waits = [] ∧ y.kept = none ∧ y.linked = [] ∧ y.lock = none ∧
        y.tok = 4 ∧ y.dv = true) ∧
    (lined one HomeLine.init {}).l1 0 0 = L1Line.init ∧ ({ L1Line.init with st := 4 } : L1Line).st ≠ 0 ∧ 0 < 2 ^ 60 ∧
    (let s := lined { one with acks := [0], dstate := 3 } HomeLine.init { ok := true }; let y := s.sliceLine 0 0
     s.arg.ok = true ∧ y.acks = [0] ∧ 2 ≤ y.dstate ∧ y.ownerTile 0 = 0 ∧ y.ownerTile 0 ≠ 5) ∧
    (let s := launching (wave []) fun x => { x with slot := some 3, gen := 2 }
     let s := ev { s with txn := { s.txn with slots := [(3, 0)] } } { slot := 3, ok := true, own := true }
     fget? s.txn.slots s.arg.slot = some 0 ∧ (∃ g, (s.launch 0).vtag? = some g) ∧ (s.launch 0).matchable = true ∧ s.arg.own = true) :=
  ⟨by
     intro k hk
     simp only [List.mem_cons, List.not_mem_nil, or_false] at hk
     rcases hk with rfl | rfl | rfl | rfl <;> exact ⟨_, rfl, rfl, _, rfl, by decide +kernel⟩,
   by decide +kernel, by decide +kernel, by decide +kernel, by decide +kernel, ⟨by decide +kernel, ⟨_, rfl⟩, by decide +kernel⟩⟩
/-- Launch 0, on tile 0 alone, in a transaction of slot 3, its only wave in MSTONE, with what it has written. -/
def committing (commit : Nat) (txn : Bool) (sh : FMap ShLine) (w : List Nat) : State :=
  let s := shared (waveK [] fun k => { k with status := .mstone })
  let s := launching s fun x => { x with slot := some 3, commit := commit, r := { x.r with txn := txn, detsize := 9 } }
  ev { s with txn := { s.txn with slots := [(3, 0)], shadow := sh, waiting := w } } { slot := 3 }
/-- What has been written of line 0. -/
def shadowLine : ShLine := { ShLine.init with mask := 1 }
theorem test_meets_Commits : (let s := committing 0 true [] []; let x := s.launch 0
      s.indexLive 0 = true ∧ x.run = 1 ∧ x.commit < 3 ∧ s.allArrived 0 = true ∧ x.sticky = false ∧ s.outstanding 0 = false ∧ x.r.txn = true ∧
      x.slot = some 3 ∧ x.vtag? = some (vtag 3 0) ∧ s.noneHeld 0 = false ∧ x.later = none ∧ x.tier < 2 ∧ s.heldOf 0 = 0) ∧
    (let s := committing 0 false [] []
     (s.launch 0).r.txn = false ∧ s.noneHeld 0 = false ∧ s.outstanding 0 = false ∧ (s.launch 0).commit = 0 ∧ s.allArrived 0 = true) ∧
    (let s := shared (launching (waveK [] fun k => { k with status := .idle }) fun x => { x with sticky := true })
     s.allArrived 0 = true ∧ s.noneHeld 0 = true ∧ (s.launch 0).sticky = true ∧ (s.launch 0).r.lenient = false) ∧
    (let s := committing 3 true [(vtag 3 0 * 2 ^ 60, shadowLine)] [3]
     s.slotTag s.arg.slot = some (0, vtag 3 0) ∧ s.mayGrant 3 0 = true ∧ (∀ q ∈ s.launches, q.1 ≠ 0 → q.2.matchable = true → q.2.vtag? = none) ∧
     s.writeSet (vtag 3 0) = [(0, shadowLine)]) ∧
    (committing 3 true [] []).mayGrant 3 0 = false ∧
    (let s := committing 4 true [(vtag 3 0 * 2 ^ 60, shadowLine)] []
     (s.launch 0).commit = 4 ∧ s.writeSet (vtag 3 0) = [(0, shadowLine)] ∧ shadowLine.loc = .dev 0 0 ∧ shadowLine.delta = [] ∧ s.stageQs = [] ∧
     fget? s.txn.detPages (vtag 3 0) = none ∧ (s.launch 0).final = false) :=
  ⟨by decide +kernel, by decide +kernel, by decide +kernel, by decide +kernel, by decide +kernel, by decide +kernel⟩
theorem test_meets_noneLinked : (committing 4 true [] []).noneLinked := by
  intro d _ p hp
  have h : ∀ p ∈ ((committing 4 true [] []).die d).slice, p.2.linked = [] := by
    rcases d with _ | d
    · decide +kernel
    · intro p hp
      have : (committing 4 true [] []).die (d + 1) = Die.init := rfl
      simp [this, Die.init] at hp
  exact h p hp
/-- Address space 0 of die 0: a table at frame 1 of the pinned pool of stack 0 whose entry 0 leads to itself and whose entry 16 maps 64 KiB. -/
def rooted (s : State) : State :=
  let s := { s with dies := s.dies.map fun (p : Nat × Die) => (p.1, { p.2 with bar0 := { p.2.bar0 with asroot := [(0, 0x10101#64)] } }) }
  s.updMem fun m => { m with hbm := (m.hbm.writeN (16 * chanSpan) 8 0x10101).writeN (16 * chanSpan + 128) 8 0x20111F }
theorem test_meets_ShadowMove : let s := rooted (committing 1 true [(vtag 3 0 * 2 ^ 60, shadowLine)] [])
    let s := { s with txn := { s.txn with tcacfg := some 1, detPages := [(vtag 3 0, [(s.frameOf shadowLine.loc, false)])] } }
    s.shadowWays ≤ (s.setLines 0 (s.keyAddr 0)).length ∧ oldestLine (s.setLines 0 (s.keyAddr 0)) = some (vtag 3 0 * 2 ^ 60, shadowLine) ∧
    s.slotTag (vtag 3 0 * 2 ^ 60 / 2 ^ 60 / 1024) = some (0, vtag 3 0) ∧ (s.launch 0).commit ≠ 4 ∧
    (s.frameOf shadowLine.loc, !shadowLine.delta.isEmpty) ∈ fget s.txn.detPages (vtag 3 0) [] ∧
    (s.detourPlace 0 (s.queue 0).asid ((s.launch 0).detourVa 0 0)).toBool = true ∧
    (s.frameOf shadowLine.loc, !shadowLine.delta.isEmpty) ∉ ([] : List (Nat × Bool)) ∧ 1 ≤ mapPages 1 + 0 :=
  ⟨by decide +kernel, by decide +kernel, by decide +kernel, by decide +kernel, by decide +kernel, by decide +kernel, by decide +kernel, by decide +kernel⟩
theorem test_meets_CommitSteps : (let s := committing 0 true [] []
      s.atBarrier 0 = true ∧ (let p := launching s fun x => { x with budget := 9 }
       p.atBarrier 0 = true ∧ p.allArrived 0 = false) ∧ (s.setOp 9 (s.mkOp .store .b32 false ⟨0, 0⟩ [] 5 false)).outstanding 0 = true) ∧
    (wave []).atBarrier 0 = false ∧
    (let s := ev { wave [] with txn := { (wave []).txn with moving := [((0, 0), { die := 0, val := 3 })] } } { die := 0, val := 3 }
     ∃ m ∈ s.txn.moving, m.2.die = s.arg.die ∧ m.2.val = s.arg.val) ∧
    (let s := ev (wave []) {}; s.txn.moving = [] ∧ (s.setLines 0 0).length < s.shadowWays) ∧
    (let s := committing 0 true [(vtag 3 0 * 2 ^ 60, shadowLine)] []; let s := { s with txn := { s.txn with tcacfg := some 1 } }
     s.shadowWays ≤ (s.setLines 0 0).length ∧ fget s.txn.detPages (vtag 3 0) [] = [] ∧ (s.launch 0).r.detsize ≤ mapPages 9 + 9 ∧ (s.launch 0).run = 1) ∧
    (∀ b ∈ [true, false], (ev (wave []) { ok := b, die := 0, val := 0 }).arg.ok = b) ∧ ((wave []).die 0).leftOut = false :=
  ⟨by decide +kernel, by decide +kernel, by decide +kernel, by decide +kernel, by decide +kernel, by decide +kernel, by decide +kernel⟩

/-! ### Witnesses: start-up, resets, and the host -/

/-- Die 0 so, and an event that concerns it. -/
def dying (a : Arg) (f : Die → Die) : State :=
  let s := ev (wave []) a
  { s with dies := s.dies.map fun (p : Nat × Die) => (p.1, f p.2), launches := [] }
/-- Whether the image is good is not the model's to say (log 8): both cases are stated. -/
theorem test_meets_StartUp (img : List Byte) : (State.reset.imageGood img = true ∨ State.reset.imageGood img = false) ∧ State.reset.recovery = false ∧
    State.reset.verified = false ∧ { State.reset with recovery := true }.recovery = true ∧ { State.reset with verified := true }.verified = true ∧
    (let s := dying {} fun x => { x with booting := true, inService := false }; let x := s.die 0
     x.booting = true ∧ x.passes = 0 ∧ x.bar0.wasOut = false ∧ x.bar0.measured = [] ∧ x.broken = [] ∧ s.arg.fails = [] ∧ x.fails = 0 ∧
     x.resetting = false ∧ (∀ i, i < 4 → i ≠ 0 → (s.die i).booting = false) ∧ s.listed = false) ∧
    (let s := dying {} fun x => { x with booting := true, bar0 := { x.bar0 with bootstep := [(0, bootRecord 0 1 0 3 6 0)] } }
     (s.die 0).bar0.wasOut = true ∧ (s.die 0).booting = true ∧ (s.die 0).passes = 0) ∧
    (let s := dying { fails := [(1, 0)] } fun x => { x with booting := true, passes := 1, fails := 1 }; let x := s.die 0
     (1, 0) ∈ s.arg.fails ∧ x.booting = true ∧ x.passes = 1 ∧ x.fails = 1 ∧ x.bar0.wasOut = false) ∧
    (let s := dying {} fun x => { x with booting := true, passes := 1, fails := 1 }; let x := s.die 0
     x.broken = [] ∧ s.arg.fails = [] ∧ dieFails 0 x.bar0.measured [] = false ∧ x.fails ≤ 1 ∧ x.resetting = false) ∧
    (∀ i ∈ [1, 2, 3], let s := { dying {} id with dies := [1, 2, 3].map fun d => (d, { Die.init with leftOut := true }) }
      (s.die i).booting = false ∧ (s.die i).leftOut = true) :=
  ⟨by cases State.reset.imageGood img <;> simp, by decide +kernel, by decide +kernel, by decide, by decide, by decide +kernel, by decide +kernel,
   by decide +kernel, by decide +kernel, by decide +kernel⟩
theorem test_meets_DieResets : (let s := { dying {} id with listed := true }
      s.recovery = false ∧ s.listed = true ∧ s.resets = [] ∧ s.launches = [] ∧ s.requeued = [] ∧ queueDie 5 = 0 ∧ s.arg.ok = false) ∧
    (let s := { dying {} id with listed := true, resets := [1] }; s.resets ≠ [] ∧ 0 ∉ s.resets ∧ s.resets.head? ≠ some 0) ∧
    (∀ n ∈ [0, 1], let s := { dying {} fun x => { x with booting := true, passes := n } with listed := true, resets := [0] }
      0 ∈ s.resets ∧ s.resets.head? = some 0 ∧ (s.die 0).booting = true ∧ (s.die 0).passes = n) ∧
    (State.reset.listed = false) ∧
    (let s := ev (waveK [] fun k => { k with trapT := some 9 }) { tile := 0, ctx := 0, val := 9 }
     (s.ctx s.arg.tile s.arg.ctx).trapT = some s.arg.val ∧ s.arg.ok = false ∧ (s.ctx 0 0).trapT ≠ some 8) ∧
    (∀ c ∈ [[], [3]], let s := dying { ok := true } fun x => { x with evacuating := true, resetting := true }
      let s := { s with resets := [0], txn := { s.txn with committing := c } }
      s.arg.ok = true ∧ s.resets.head? = some 0 ∧ (s.die 0).evacuating = true ∧ s.txn.committing = c) ∧
    (∀ r ∈ [[], [2]], let s := { dying {} fun x => { x with resetting := true } with resets := 0 :: r }
      s.resets.head? = some 0 ∧ (s.die 0).booting = false ∧ (s.die 0).resetting = true ∧ s.resets.tail = r) := by decide +kernel
theorem test_meets_Quarantine : (let s := ev (wave []) { tile := 0 }; let x := s.die (dieOf (s.exchanged 0))
      s.exchanged 0 = 0 ∧ dieOf 0 = 0 ∧ x.resetting = false ∧ x.inService = true ∧ fget? x.rowq 0 = none ∧ s.arg.unit ≠ 1 ∧
      ∀ h ∈ (s.tile 0).shares, h.away = false) ∧
    (let s := dying { tile := 0, unit := 1 } fun x => { x with rowq := [(0, 3)] }
     (fget? (s.die 0).rowq 0).isSome = true ∧ s.arg.unit = 1 ∧ s.launches = []) ∧
    ((dying {} fun x => { x with resetting := true }).die 0).resetting = true ∧ ((dying {} fun x => { x with inService := false }).die 0).inService = false ∧
    (let s := ev (wave []) { tile := 0, val := 65, ok := true }
     64 < s.arg.val + (s.tile 0).corrected ∧ s.dieUp (dieOf 0) = true ∧ s.exch = [] ∧ s.dieUp (dieOf 1) = true ∧ (s.tile 1).isFree = true ∧ dieOf 1 = 0) ∧
    (let s := { ev (wave []) { tile := 0, val := 65, ok := true } with exch := [(0, 1)] }; ∃ p ∈ s.exch, p.1 = 0) ∧
    (let s := ev { wave [] with dies := [] } { tile := 0, val := 65 }; s.dieUp (dieOf 0) = false) := by decide +kernel
/-- With every tile of die 0 holding a segment copy, none is free. -/
theorem test_meets_NoFreeTile : (let s := ev { wave [] with tiles := (List.range 1024).map fun t =>
      (t, { Tile.init with trav := { Travel.init with segs := [⟨9, 0, 1, true, false, 0, false⟩] } }) } { tile := 0, val := 65 }
    s.dieUp (dieOf 0) = true ∧ (List.range 1024).all (fun b => !(s.dieUp (dieOf b)) || !(s.tile b).isFree) = true) := by decide +kernel
theorem test_meets_PowerAndAttestation : (∀ tj ∈ [60, 92, 95, 96, 110, 120], ∀ w ∈ [0, 3000], let s := dying { val := tj, off := w } id
      s.arg.val = tj ∧ (s.die 0).stopped = false ∧ ((s.die 0).bar0.powercap < s.arg.off ↔ w = 3000)) ∧
    (let s := dying {} fun x => { x with stopped := true, cool := some 0 }
     (s.die 0).stopped = true ∧ (s.die 0).cool = some 0 ∧ 0 + 60000000 ≤ { s with now := 60000000 }.now) ∧
    (let s := wave []; ((s.launch 0).tiles.any fun u => dieOf u == 0) = true ∧ (s.launch 0).commit ≠ 4 ∧ (s.launch 0).run = 1) ∧
    (dying {} id).enumerated 0 = true ∧ { dying {} id with dies := [] }.enumerated 0 = false ∧
    (∀ n ∈ [0, 1, 4], let s := dying { idx := n } fun x => { x with ideX := some 7 }; s.enumerated 0 = true ∧ (s.die 0).ideX = some 7 ∧ s.arg.idx = n) ∧
    (∀ n ∈ [0, 1, 2, 3], ((dying {} fun x => { x with tdi := n }).die 0).tdi = n) := by decide +kernel
/-- A die that enumerates, with an event that concerns BAR 0. -/
def barred (a : Arg) (f : Bar0 → Bar0) : State := dying a fun x => { x with bar0 := f x.bar0 }
theorem test_meets_HostRegisters : (let s := barred { unit := 0, off := 0x08, width := 8, val := 5 } id
      s.enumerated 0 = true ∧ s.recovery = false ∧ (s.die 0).tdi = 0 ∧ s.arg.unit ≠ 4 ∧ s.arg.unit ≠ 2 ∧ s.arg.off + s.arg.width ≤ 2 ^ 25 ∧
      okAccess 0x0A 4 = false ∧ s.launches = [] ∧ s.invPending (s.die 0).bar0.tlbRange 0 = false ∧ (s.die 0).bar0.tlbBusy = false) ∧
    (barred { unit := 2, val := 9 } id).arg.val ≤ 9 ∧ 2 ^ 25 < (barred { off := 2 ^ 25 } id).arg.off + 4 ∧
    (∀ n ∈ [1, 2, 3], ((dying { off := 8, width := 8 } fun x => { x with tdi := n }).die 0).tdi ≠ 0) ∧
    ((barred { off := 0x58, val := 2 ^ 16 } fun b => { b with hot := true, hotT := some 0 }).die 0).bar0.hotT = some 0 ∧
    (let n := (barred { off := 0x20004, val := 2 ^ 31 } id).arg.val; bitB n 31 = true) ∧ 24 < bits 0x0C0D 4 0 + bits 0x0C0D 12 8 ∧
    bits 0x0C0C 4 0 + bits 0x0C0C 12 8 ≤ 24 ∧ (wave []).launches ≠ [] ∧
    (let s := shared (ev (wave []) { idx := 0 }); ((s.tile (tileAt 0 0 0)).shares.any fun h => !h.ended && !h.guest) = true) ∧
    (((barred { idx := 0 } id).tile (tileAt 0 0 0)).shares.any fun h => !h.ended && !h.guest) = false ∧ bits 1 7 0 = 1 ∧ bits 2 7 0 ≠ 1 ∧
    ((barred {} fun b => { b with tlbBusy := true }).die 0).bar0.tlbBusy = true ∧
    (let s := (atSlice .load).updDie 0 id; s.invPending (none, 0, 0) 10 = true) :=
  ⟨by decide +kernel, by decide +kernel, by decide +kernel, by decide +kernel, by decide +kernel, by decide +kernel, by decide +kernel, by decide +kernel,
   by decide +kernel, by decide +kernel, by decide +kernel, by decide +kernel, by decide +kernel, by decide +kernel, by decide +kernel⟩
/-- Die 0 with a queue table of one entry, at frame 0 of the pinned pool of stack 0. -/
def tabled (entry : Nat) (q : Queue) (a : Arg) (f : Bar0 → Bar0) : State :=
  let s := barred a fun b => f { b with qtbase := 0x101#64 }
  { s with queues := [(0, q)] }.updMem fun m => { m with hbm := m.hbm.writeN 0 64 entry }
/-- An entry with RINGLOG 4, FQLOG 4, ATTLIM 1 and WEIGHT 1. -/
def entry1 : Nat := 4 * 2 ^ 48 + 2 ^ 80 + 2 ^ 72 + 4 * 2 ^ 172
theorem test_meets_QueueCommands : (∀ n ∈ [0, 1, 2], let s := tabled entry1 { Queue.init with qstate := n } {} id
      s.enumerated 0 = true ∧ s.recovery = false ∧ (s.die 0).tdi = 0 ∧ s.arg.ok = false ∧ (s.die 0).bar0.qcmdBusy = false ∧
      s.entryKey 0 0 = some 0 ∧ s.linePoison (lineOf 0) = false ∧ entryBad (s.devRead 0 64) = false ∧ (s.queue 0).qstate = n ∧ s.requeued = [] ∧
      s.launches = [] ∧ s.queueBusy 0 = false) ∧
    (let s := tabled 0 Queue.init {} id; entryBad (s.devRead 0 64) = true) ∧ (barred {} id).entryKey 0 0 = none ∧
    ((tabled 0 Queue.init {} fun b => { b with qcmdBusy := true }).die 0).bar0.qcmdBusy = true ∧
    (let s := { tabled entry1 { Queue.init with qstate := 2 } {} id with dies := [(0, { Die.init with tdi := 3 })] }; (s.die 0).inService = false) ∧
    (let s := { tabled entry1 Queue.init {} id with launches := [(0, { Launch.init with run := 1 })] }
     s.launches = [(0, { Launch.init with run := 1 })] ∧ s.queueBusy 0 = true) ∧
    (let s := tabled entry1 { Queue.init with disabling := true } {} id; (s.queue 0).disabling = true ∧ s.queueBusy 0 = false) := by decide +kernel
/-- A fault record of queue 0 with index 5 that waits for its answer. -/
def faulted (deleg : Bool) : State :=
  tabled entry1 { Queue.init with deleg := deleg, pending := [(5, ⟨0x1000, 0, 0, 0, 0, 0x2000, 0, 3, 1, false⟩)] } { idx := 5 } id
theorem test_meets_FaultAnswers : (let s := faulted false; let x := s.queue 0
      (∃ i f, x.pending.find? (fun p => p.1 == s.arg.idx % 2 ^ 32) = some (i, f) ∧ f.ctx ≠ 255 ∧ 0 = f.launch % 2 ^ 13) ∧ x.deleg = false) ∧
    ((faulted true).queue 0).deleg = true ∧ { faulted false with tiles := [] }.tiles = [] ∧
    (let k := { ctx [] with status := .trapped, onFault := some (0, 5), ctl := { Ctl.init with trapcause := BitVec.ofNat 32 causePageFault } }
     let s := { faulted false with tiles := [(0, { Tile.init with ctxs := [(0, k)] })] }
     s.tiles = [(0, { s.tile 0 with ctxs := [(0, k)] })] ∧ (s.tile 0).un.susp = [] ∧ k.onFault = some (0, 5) ∧
     k.ctl.trapcause.toNat % 32 = causePageFault ∧ k.deferred = [] ∧ k.mst = false ∧ k.ring = []) :=
  ⟨⟨⟨_, _, rfl, by decide +kernel⟩, by decide +kernel⟩, by decide +kernel, by decide +kernel, by decide +kernel⟩
theorem test_meets_Doorbells : (∀ w ∈ [8, 16, 17, 3], let s := tabled entry1 { Queue.init with qstate := 1, ringlog := 4, readIdx := 2, writeIdx := 7 } { val := w } id
      let x := s.queue s.arg.q; let dist := fun (i : Nat) => (i + 2 ^ 32 - x.readIdx) % 2 ^ 32
      queueDie s.arg.q = 0 ∧ s.arg.q < 131072 ∧ s.postedAhead 0 s.arg.id = false ∧ x.feed = false ∧ x.qstate = 1 ∧ w ≠ x.writeIdx ∧
      (w = 8 → dist x.writeIdx ≤ dist w ∧ dist w ≤ 2 ^ x.ringlog) ∧ (w = 3 → dist w < dist x.writeIdx)) ∧
    (let s := tabled entry1 { Queue.init with qstate := 1, ringlog := 4 } { val := 17 } id; let x := s.queue 0
     2 ^ x.ringlog < (17 + 2 ^ 32 - x.readIdx) % 2 ^ 32) ∧
    (∀ f ∈ [true, false], ((tabled entry1 { Queue.init with feed := f } {} id).queue 0).feed = f) ∧
    (let s := barred {} id; ({ s with timers := [(5, ⟨.doorbellWrite, { die := 0, id := 3 }⟩)] }.postedAhead 0 0) = true) := by decide +kernel
/-- BAR 2 of die 0 opens on address space 0, in which a page is mapped at 0x10000; its slice holds line 0 so. -/
def windowed (a : Arg) (y : SliceLine) : State :=
  let s := rooted (barred { a with off := 0x10000 } fun b => { b with bar2cfg := 0x100#64 })
  { s with dies := s.dies.map fun (p : Nat × Die) => (p.1, { p.2 with slice := [(lineOf 4096, y)] }) }
theorem test_meets_HostWindow : (let y : SliceLine := { one with tok := 4 }; let s := windowed { data := [1, 2], width := 2 } y; let z := s.sliceLine 0 (lineOf 4096)
      s.enumerated 0 = true ∧ s.recovery = false ∧ (s.die 0).tdi ≠ 3 ∧ bitB 0x100 8 = true ∧ s.arg.off + 2 ≤ 2 ^ (s.die 0).bar0.bar2Log ∧
      globalVa (0x10000 + 1) = true ∧ isDev (lineOf 4096) = true ∧ s.postedAhead 0 s.nextId = false ∧ z.free true true = true ∧ z.kept = none ∧
      z.linked = [] ∧ s.linePoison (lineOf 4096) = false) ∧
    (match (windowed {} one).translate 0 0 0x10000 1 false true with | .ok (lf, p) => decide (lf.cls < 2) && p == .dev 4096 131072 | .error _ => false) = true ∧
    (match (windowed {} one).translate 0 0 0x10000 0 false true with | .ok (lf, p) => decide (lf.cls < 2) && p == .dev 4096 131072 | .error _ => false) = true ∧
    ((windowed {} one).sliceLine 0 (lineOf 4096)).free true true = false ∧
    (let s := barred { data := [1], width := 1 } id; s.arg.data ≠ [] ∧ bitB (s.die 0).bar0.bar2cfg.toNat 8 = false ∧ 2 ^ (s.die 0).bar0.bar2Log < 2 ^ 30 + 1) :=
  ⟨by decide +kernel, by decide +kernel, by decide +kernel, by decide +kernel, by decide +kernel⟩

/-! ### Witnesses: the mesh, translation, and remote scratch -/

/-- A message from tile 0 to tile 1 that stands somewhere. -/
def msg (at_ via : Nat) : Msg :=
  { id := 5, src := .tile 0, dst := .tile 1, from_ := 0, to_ := 1, vc := 0, cls := 0, flits := 1, lidx := 0, at_ := at_, via := via, pkg := none,
    hops := 0, payload := ⟨.forwardedRequest, {}⟩ }
/-- The package with these messages, and an event that names one. -/
def carrying (l : List Msg) : State := ev { wave [] with msgs := l } { id := 5 }
theorem test_meets_MeshRouting : (∀ d, ((wave []).die d).rowq = []) ∧
    (let s := dying {} fun x => { x with rowq := [(0, 3)] }; fget? (s.die 0).rowq 0 = some 3) ∧ (carrying []).msgs.find? (fun m => m.id == 5) = none ∧
    (let s := carrying [{ msg 0 0 with id := 4 }, msg 1 1]; s.msgs.find? (fun m => m.id == 5) = some (msg 1 1) ∧ s.pairAhead (msg 1 1) = true) ∧
    (let s := carrying [{ msg 0 0 with id := 4, src := .tile 9 }, msg 0 0]
     let s := { s with links := [(bufKey (linkOf 0 0) 0 0, 4)] }; s.granted (msg 0 0) = none ∧ (msg 0 0).via ≠ 1) ∧
    (carrying [msg 0 0]).granted (msg 0 0) = some ((0, 0), 0) ∧
    (let m := msg 0 (linkOf 0 0 + 2); (carrying [m]).granted m = some ((0, 1), 0) ∧ 2 ≤ m.via ∧ 1 = m.to_ ∧ m.payload.what = .forwardedRequest) ∧
    (let m := msg 1 (linkOf 0 1 + 2); let s := carrying [m]
     s.granted m = some ((1, 4096), 0) ∧ m.pkg = none ∧ s.destGone m = false ∧ m.to_ = s.routerOf m.dst ∧ s.pairAhead m = false) ∧
    (let m := msg 1 1; let s := carrying [m]; m.via = 1 ∧ s.destGone m = false ∧ m.to_ = s.routerOf m.dst ∧ s.pairAhead m = false) ∧
    (let m := msg 1 (linkOf 0 1 + 2); let s := { carrying [m] with exch := [(1, 9), (9, 1)] }
     s.granted m = some ((1, 4096), 0) ∧ s.destGone m = false ∧ m.to_ ≠ s.routerOf m.dst) ∧
    (let m := { msg 1088 (linkOf 68 1088 + 2) with to_ := 1088, pkg := some 3 }; (carrying [m]).granted m = some ((1088, 4096), 0) ∧
     fget? (carrying [m]).portDown (m.at_ - 1088) = none) ∧
    (carrying [{ msg 1 3 with vc := 5 }]).launches = [(0, { Launch.init with run := 1 })] :=
  ⟨by intro d; rcases d with _ | d <;> rfl, by decide +kernel, by decide +kernel, by decide +kernel, by decide +kernel, by decide +kernel,
   by decide +kernel, by decide +kernel, by decide +kernel, by decide +kernel, by decide +kernel, by decide +kernel⟩
/-- A port of die 0 so, and a frame that concerns it. -/
def framed (a : Arg) (p : Port) : State := ev { wave [] with ports := [(0, p)] } a
def port0 : Port := { txSeq := 3, replay := [(2, 3, ⟨.eventMessage, {}⟩)], fails := 0, rxSeq := 7 }
theorem test_meets_Ports : ((wave []).recovery = false ∧ { wave [] with listed := true }.listed = true ∧ (wave []).resets = []) ∧
    (let s := framed { ok := true, seq := 7, gen := 0, unit := 1 } port0
     fget? s.portDown 0 = none ∧ s.dieHost 0 = true ∧ s.arg.ok = true ∧ s.arg.seq = (s.port 0).rxSeq ∧ s.arg.gen = s.pkgOf 0 ∧
     s.creditsUsed (entryLink 0) (frameEvent 1).2 ((s.yFirst (portNode 0 0) (s.routerOf (.tile 0))).toNat + 2) + 1 ≤ 256) ∧
    (let s := framed { ok := true, seq := 7, gen := 9, unit := 1 } port0; s.arg.gen ≠ s.pkgOf 0) ∧
    (let s := { framed { ok := true, seq := 7, unit := 1 } port0 with links := [(bufKey (entryLink 0) 4 2, 256), (bufKey (entryLink 0) 4 3, 256)] }
     ¬ s.creditsUsed (entryLink 0) (frameEvent 1).2 ((s.yFirst (portNode 0 0) (s.routerOf (.tile 0))).toNat + 2) + 1 ≤ 256) ∧
    ((framed { unit := 9 } port0).port 0).fails < 15 ∧ 15 ≤ ((framed { unit := 9 } { port0 with fails := 15 }).port 0).fails ∧
    (let s := { framed {} port0 with portDown := [(0, 5)] }; (fget? s.portDown 0).isSome = true) := by decide +kernel
/-- Tile 0 waits for a walk of the page at 0x10000 of address space 0. -/
def missing (a : Arg) (s : State) : State :=
  let s := rooted (ev s { a with asid := 0, vpn := 16, tile := 0 })
  { s with tiles := s.tiles.map fun (p : Nat × Tile) => (p.1, { p.2 with un := { p.2.un with walks := [(0, 16, 0)] } }) }
/-- Die 0 changed. -/
def onDie (s : State) (f : Die → Die) : State := { s with dies := s.dies.map fun (p : Nat × Die) => (p.1, f p.2) }
/-- With walks under way, and perhaps that one. -/
def walking (s : State) (n : Nat) (x : Bool) : State :=
  onDie s fun y => { y with walkers := (List.range n).map (fun i => (7, i)) ++ if x then [(0, 16)] else [] }
/-- With the page in the L2 slice of the die. -/
def held2 (s : State) : State :=
  onDie s fun y => { y with l2tlb := [(l2TlbSlice 0 0 16, [(tlbKey 0 0x10000 4096, { cls := 0, home := 2, hsel := 0, frame := 32, x := true, w := true, r := true, size := 4096 })])] }
/-- Whether the L2 slice has the page. -/
def has2 (s : State) : Bool := (tlbFind (fget (s.die 0).l2tlb (l2TlbSlice 0 0 16) []) 0 0x10000).isSome
theorem test_meets_Lookups : (wave []).myTile.un.wants 0 16 = false ∧
    (let s := missing {} (wave []); (s.tile 0).un.wants s.arg.asid s.arg.vpn = true ∧ s.arg.ok = false ∧ has2 s = false ∧ (s.die 0).walkers = [] ∧
     (s.die 0).walkQ = [] ∧ s.ops = []) ∧
    has2 (held2 (missing {} (wave []))) = true ∧ ((walking (missing {} (wave [])) 0 true).die 0).walkers.contains (0, 16) = true ∧
    (let w := ((walking (missing {} (wave [])) 64 false).die 0).walkers; w.contains (0, 16) = false ∧ walkerCount ≤ w.length) ∧
    (missing { ok := true } (wave [])).arg.ok = true := by decide +kernel
/-- The walk of the page, whose tables the slices of die 0 may read. -/
def tablesHeld (s : State) : State :=
  onDie (walking s 0 true) fun y => { y with slice := (s.walkLines 0 0 0x10000).map fun l => (l, { SliceLine.init with tok := 4, own := true, dv := true }) }
theorem test_meets_Walks : (let s := tablesHeld (missing {} (wave []))
      (s.linesFor 0 ((s.walkLines 0 0 0x10000).map fun l => (l, false)) ⟨.pageWalk, s.arg⟩).1 = true ∧ s.arg.die = 0 ∧ s.ops = [] ∧
      (match s.walk 0 0 0x10000 with | .ok _ => true | .bad .. => false) = true ∧ (match s.walk 0 0 0x20000 with | .ok _ => false | .bad .. => true) = true) ∧
    (tablesHeld (missing {} (wave []))).tiles.map (·.1) = [0] ∧ (((wave []).die 0).walkers.contains (0, 16) = false) := by decide +kernel
/-- Context 3 of tile 0 in its trap, with a cause. -/
def inTrap (cause : Nat) (f : Ctx → Ctx) : State :=
  ev (at_ 3 (f { ctx [] with status := .trapped, trapT := some 9, ctl := { Ctl.init with trapcause := BitVec.ofNat 32 cause },
                             frec := some ⟨0x1000, 0, 3, 0, 0, 0x2000, 0, 1, 3, false⟩ })) { tile := 0, ctx := 3 }
theorem test_meets_TrapHandling : (∀ c ∈ [causeSvc, causeUncorrectable, causePoison, causeIllegal, causePageFault],
      let k := (inTrap c id).ctx 0 3; k.status = .trapped ∧ k.trapT.isSome = true ∧ k.ctl.trapcause.toNat % 32 = c) ∧
    (∃ f, ((inTrap causePageFault id).ctx 0 3).frec = some f ∧ f.kind ≠ 3) ∧
    ((inTrap causePageFault id).launch 0).run = 1 ∧ ((inTrap causePageFault id).launch 0).commit ≠ 4 ∧ (3 ≠ sysCtx) ∧
    (let s := ev (at_ sysCtx { ctx [] with status := .trapped, trapT := some 9 }) { tile := 0, ctx := sysCtx }
     (s.ctx 0 sysCtx).status = .trapped ∧ s.arg.ctx = sysCtx) ∧
    ((inTrap 0 fun k => { k with trapT := none }).ctx 0 3).trapT = none ∧ (inTrap 0 id).arg.ok = false :=
  ⟨by decide +kernel, ⟨_, rfl, by decide +kernel⟩, by decide +kernel⟩
/-- Queue 0 in an address space whose DIRECT page at 0x10000 is its fault queue. -/
def faultQueued (s : State) (x : Queue) : State :=
  let s := { s with queues := [(0, { x with asid := 0, fqbase := 0x10000, fqlog := 4 })] }
  let s := onDie s fun y => { y with bar0 := { y.bar0 with asroot := [(0, 0x10101#64)] } }
  s.updMem fun m => { m with hbm := (m.hbm.writeN (16 * chanSpan) 8 0x10101).writeN (16 * chanSpan + 128) 8 0x20113F }
theorem test_meets_FaultRecords : (let s := faultQueued (inTrap causePageFault id) Queue.init; let x := s.queue 0
      x.pending = [] ∧ (x.fqWrite + 2 ^ 32 - x.fqRead) % 2 ^ 32 ≠ 2 ^ x.fqlog ∧ x.qstate ≠ 2 ∧
      (match s.translate 0 0 0x10000 1 false true, s.translate 0 0 0x10010 1 false true with
       | .ok (f, .dev k _), .ok (g, .dev j _) => f.cls == 1 && g.cls == 1 && !s.linePoison (lineOf k) && !s.linePoison (lineOf j)
       | _, _ => false) = true) ∧
    ((faultQueued (inTrap causePageFault id) { Queue.init with qstate := 2 }).queue 0).qstate = 2 ∧
    (let s := faultQueued (inTrap causePageFault id) { Queue.init with pending := [(5, ⟨0x1000, 0, 3, 0, 0, 0x2000, 0, 1, 3, false⟩)] }
     ((s.queue 0).pending.find? fun (p : Nat × FaultRec) => p.2.va / 4096 == 2 && p.2.kind == 1).isSome = true) := by decide +kernel
theorem test_meets_LateFaults : (let e : Entry := { Entry.init with seq := 3, state := .faulted, fault := some ⟨0x1000, 0, 3, 0, 0, 0x2000, 0, 1, 3, false⟩ }
      let k := (ev (at_ 3 { ctx [] with ring := [(3, e)], dseq := 4 }) { tile := 0, ctx := 3 }).ctx 0 3
      k.status = .ready ∧ (∃ e f, k.earliestFault = some e ∧ e.fault = some f)) ∧ ((wave []).ctx 0 0).earliestFault = none :=
  ⟨⟨by decide +kernel, ⟨_, _, rfl, rfl⟩⟩, by decide +kernel⟩
theorem test_meets_DelegatedFaults : (let s := { faultQueued (ev (wave []) { idx := 5 })
        { Queue.init with pending := [(5, ⟨0x1000, 0, 3, 0, 0, 0x10000, 0, 1, 3, false⟩)] } with tiles := [] }
      (∃ i f, (s.queue 0).pending.find? (fun p => p.1 == s.arg.idx) = some (i, f) ∧ f.ctx ≠ 255 ∧ 0 = f.launch % 2 ^ 13) ∧
      (match s.walk 0 0 0x10000 with | .ok lf => lf.permits 0 | .bad .. => false) = true ∧ s.tiles = []) ∧
    (let s := faultQueued (ev (wave []) { idx := 6 }) { Queue.init with pending := [(6, ⟨0x1000, 0, 3, 0, 0, 0x20000, 0, 1, 3, false⟩)] }
     (match s.walk 0 0 0x20000 with | .ok _ => false | .bad .. => true) = true ∧ (s.launch 0).run = 1 ∧ (s.launch 0).commit ≠ 4) ∧
    ((wave []).queue 0).pending = [] :=
  ⟨⟨⟨_, _, rfl, by decide +kernel⟩, by decide +kernel⟩, by decide +kernel, by decide +kernel⟩
theorem test_meets_TimeOuts : (let s := ev (waveK [] fun k => { k with waitOn := [(0x1000, 9)] }) { tile := 0, ctx := 9 * 2 ^ 56 + 0x1000 * 256, ok := true, val := 0 }
      s.arg.ok = true ∧ (fget? (s.ctx 0 (s.arg.ctx % 256)).answer (s.arg.ctx / 256 % 2 ^ 48)).isSome = false ∧ s.asked 0 s.arg.ctx = false ∧
      (s.pend .creditRequest { tile := 0, ctx := s.arg.ctx }).asked 0 s.arg.ctx = true ∧ s.arg.val = s.pkgOf (dieOf 0)) ∧
    (let s := finishing id; let o := (s.op? 9).getD (s.mkOp .load .b32 false ⟨0, 0⟩ [] 5 false)
     s.arg.ok = false ∧ s.arg.id = 9 ∧ (∃ e, o.elems = [e] ∧ e.loc.isSome = true ∧ e.back = false) ∧ o.kind = .load ∧ o.vec = false ∧ o.w64 = false ∧
     o.dest < 63 ∧ o.seq = none ∧ o.aux = [] ∧ o.ctx < 192 ∧ (s.ctx o.tile o.ctx).status ≠ .trapped) ∧
    (wave []).op? 9 = none :=
  ⟨by decide +kernel, ⟨by decide +kernel, by decide +kernel, ⟨_, rfl, by decide +kernel⟩, by decide +kernel⟩, by decide +kernel⟩
/-- A request of wave 0 of tile u to the word at offset 0x70FFC of tile 0's scratch, whose park table holds some entries. -/
def requested (k : OpKind) (u : Nat) (park : List Park) (e : Elem → Elem) (a : Arg) : State :=
  let s := syncing (local_ [] id) fun y => { y with park := park }
  let o := { s.mkOp k .b32 false ⟨0, 0⟩ [e (mkElem 0 0xFE0000070FFC 4 (some (.scr 0 0x70FFC)) 0 0)] 5 false with tile := u }
  ev { s with ops := [(9, o)] } { a with id := 9 }
theorem test_meets_RemoteScratch : (let s := requested .scrLoad 1 [] id { unit := 1 }; ∃ o, s.op? s.arg.id = some o ∧ ∃ e, o.elems = [e] ∧ e.done = false ∧
      e.loc = some (.scr 0 0x70FFC) ∧ o.tile ≠ 0 ∧ o.tile < 1024 ∧ (∀ p ∈ (s.tile 0).sync.park, p.op ≠ s.arg.id) ∧
      (s.scrAttempt o e 0 0x70FFC false).isSome = true ∧ s.arg.unit = 1 ∧ s.arg.req ≠ 1) ∧
    (∀ n ∈ [0, 64], let s := requested (.syncLoad true) 1 (List.replicate n ⟨3, 4, 0, 0⟩) id { unit := 1 }
      ∃ o, s.op? 9 = some o ∧ ∃ e, o.elems = [e] ∧ s.scrAttempt o e 0 0x70FFC false = none ∧ (s.tile 0).sync.park.length = n) ∧
    (wave []).op? 9 = none ∧
    (let s := shared (ev (wave []) { unit := 1, req := 1, off := 0x70FFC, width := 4 }); (s.tile 0).sync.park = [] ∧
     (s.tile 0).allows s.arg.lidx s.arg.off s.arg.width false false = true ∧ s.arg.cls = 0) ∧
    (let s := onDie (wave []) fun y => { y with bar0 := { y.bar0 with portmap := [(0, 8#32)] } }; s.portTo 0 0 = some 0) ∧
    (∀ v ∈ [0, 1, 2], let s := requested .scrLoad 0 [] (fun e => { e with done := v == 0, back := false }) { val := v, lanes := 1 }
      ∃ o, s.op? 9 = some o ∧ s.arg.val = v ∧ o.seq = none ∧ o.aux = [] ∧ o.ctx < 192 ∧ (o.returned 1).allBack = (v == 0) ∧ o.kind.isCopy = false ∧
        (s.ctx 0 o.ctx).status ≠ .trapped ∧ ∃ e, o.elems = [e] ∧ (e.done = false ↔ v ≠ 0)) ∧
    (wave []).tilesGone (dieOf 5) = false :=
  ⟨⟨_, rfl, _, rfl, by decide +kernel⟩,
   fun n h => by
     simp only [List.mem_cons, List.not_mem_nil, or_false] at h
     rcases h with rfl | rfl <;> exact ⟨_, rfl, _, rfl, by decide +kernel⟩,
   by decide +kernel, by decide +kernel, by decide +kernel,
   fun v h => by
     simp only [List.mem_cons, List.not_mem_nil, or_false] at h
     rcases h with rfl | rfl | rfl <;> exact ⟨_, rfl, by decide +kernel, by decide +kernel, by decide +kernel, by decide +kernel, by decide +kernel,
       by decide +kernel, by decide +kernel, _, rfl, by decide +kernel⟩,
   by decide +kernel⟩
theorem test_meets_ParkTable : (∀ k ∈ [OpKind.scrLoad, .syncLoad true], ∀ u ∈ [0, 1],
      let s := requested k u [⟨3, 9, 0, 0x70FFC⟩] id { off := 0x70FFC }; let p : Park := ⟨3, 9, 0, 0x70FFC⟩
      (s.tile 0).sync.park = [p] ∧ p.off = s.arg.off / 4 * 4 ∧ p.off % 4 = 0 ∧ ∃ o, s.ops = [(p.op, o)] ∧ o.tile = u ∧ o.seq = none ∧ ∃ e, o.elems = [e] ∧ e.lane = p.lane ∧
        e.loc = some (.scr 0 s.arg.off) ∧ e.done = false ∧ ((s.scrAttempt o e 0 s.arg.off true).isSome = (k == .scrLoad))) ∧
    (∀ p ∈ (wave []).myTile.sync.park, p.id ≠ 9) ∧ (wave []).ops = [] ∧
    (let s := { local_ [] id with tiles := [(0, { Tile.init with shares := [{ share with ended := true }] })] }
     (∃ h, (s.tile 0).shares.find? (fun h => h.lidx == s.arg.lidx && h.ended) = some h) ∧ ∀ h ∈ ((wave []).tile 0).shares, h.ended = false) :=
  ⟨fun k hk u hu => by
     simp only [List.mem_cons, List.not_mem_nil, or_false] at hk hu
     rcases hk with rfl | rfl <;> rcases hu with rfl | rfl <;>
       exact ⟨by decide +kernel, by decide, by decide, _, rfl, by decide +kernel, by decide +kernel, _, rfl, by decide +kernel, by decide +kernel,
         by decide +kernel, by decide +kernel⟩,
   by decide +kernel, by decide +kernel, ⟨⟨_, rfl⟩, by decide +kernel⟩⟩
/-- A copy of 4 bytes from offset 0x70800 of scratch to 0x70C00, in a mailbox of tile 0. -/
def copy0 : Copy :=
  { id := 9, ctx := 0, lidx := 0, pc := 0x1000, src := 0xFC0000070800, dst := 0xFC0000070C00, rowBytes := 4, rows := 1, spitch := 0, dpitch := 0,
    xfer := 3, flags := 0, lbuf := 0, handler := 0x2000, cursor := 0, state := 1, bad := false, buf := [], op := none, onFault := none }
/-- With a copy in mailbox 1, or suspended. -/
def copied (mb susp : List Copy) (a : Arg) : State :=
  let s := local_ [] id
  ev { s with tiles := s.tiles.map fun (p : Nat × Tile) => (p.1, { p.2 with un := { p.2.un with mb := mb.map fun c => (1, c), susp := susp } }) } { a with id := 9 }
theorem test_meets_CopyUnit : (copied [] [] {}).myTile.un.nextMb = none ∧ (∀ p ∈ ((copied [] [] {}).die 0).slice, p.2.kept = none) ∧
    (let s := copied [copy0] [] {}; s.arg.ok = false ∧ copy0.op = none ∧ copy0.lbuse = false ∧ (s.myTile.un.copy? 9).isSome = true ∧ copy0.buf = [] ∧
     s.scrWin 0 copy0.srcVa = .own 0x70800 ∧ s.myTile.un.nextMb = some (1, copy0) ∧ copy0.state = 1) ∧
    (let c := { copy0 with state := 3 }; let s := copied [] [c] {}; s.myTile.un.susp.find? (fun c => c.id == s.arg.id) = some c) ∧
    (∀ n ∈ [1, 2], let c := { copy0 with buf := [(7#32, false)], rows := n }; let s := copied [c] [] {}
      s.myTile.un.nextMb = some (1, c) ∧ s.scrWin 0 c.dstVa = .own 0x70C00 ∧ (c.total ≤ c.cursor + 4 ↔ n = 1)) ∧
    (let c := { copy0 with state := 0, flags := 16 }; c.lbinv = true ∧ c.lbuse = false) ∧ { copy0 with flags := 4 }.irq = true ∧
    (let c := { copy0 with flags := 2 }; c.irq = false ∧ c.cnt = true) ∧
    (∀ n ∈ [4, 5, 6], let s := copied [{ copy0 with state := n }] [] {}; s.myTile.un.copy? 9 = some { copy0 with state := n } ∧ copy0.ctx ≠ noCtx ∧
      (s.ctx 0 0).lidx = copy0.lidx ∧ (s.ctx 0 0).status = .ready ∧ (s.ctx 0 0).uiq = [] ∧ s.copyFault? 0 { copy0 with state := n } = none) ∧
    (let c := { copy0 with state := 5, src := 0x2000 }; let f : FaultRec := ⟨0x1000, 0, 0, 0, 0, 0x2000, 5, 1, 3, false⟩; let s := copied [c] [] {}
     let s := { s with tiles := s.tiles.map fun (p : Nat × Tile) => (p.1, { p.2 with un := { p.2.un with xfault := [(0, 2, 5, f)] } }) }
     (s.copyFault? 0 c).isSome = true) ∧
    (let s := ev (waveK [] fun k => { k with uiq := [⟨0x2000, 3⟩] }) { tile := 0, ctx := 0 }; let k := s.ctx 0 0
     k.status = .ready ∧ k.uiq = ⟨0x2000, 3⟩ :: [] ∧ k.ctl.uipc.getLsbD 63 = false ∧ k.ctl.wavectl.getLsbD 0 = false) :=
  ⟨by decide +kernel, by decide +kernel, by decide +kernel, by decide +kernel, by decide +kernel, by decide +kernel,
   by decide +kernel, by decide +kernel, by decide +kernel, by decide +kernel, by decide +kernel⟩
/-- Stage queue 5, whose entries lie in a DIRECT page of address space 0 at 0x10000, and a transfer of 64 bytes of the local block to or from it. -/
def transferring (push : Bool) (p r : Nat) : State :=
  let s := faultQueued (staged (local_ [] id) p r) Queue.init
  let s := { s with stageQs := s.stageQs.map fun q => (q.1, { q.2 with base := 0x10000 }) }
  let s := onDie s fun y => { y with slice := [4096, 4160].map fun k => (lineOf k, { SliceLine.init with tok := 4, own := true, dv := true }) }
  let o := s.mkOp (if push then .qpush else .qpop) .b32 false ⟨0, 0⟩ [mkElem 0 0xFC0000070000 64 (some (.scr 0 0x70000)) 0 0] 5 false
  ev { s with ops := [(9, o)] } { id := 9, val := 5 }
theorem test_meets_StageTransfers : (∀ push ∈ [true, false], let s := transferring push 1 1; let x := fget s.stageQs 5 StageQ.init
      ∃ o, s.op? s.arg.id = some o ∧ ∃ e, o.elems = [e] ∧ e.loc = some (.scr o.tile 0x70000) ∧ (o.kind == .qpush) = push ∧ x.en = true ∧
        (if push then x.ptag else x.ctag) = (s.launch o.lidx).tag + 1 ∧ stageDiff x.pushed x.freed ≠ 2 ^ x.dlog ∧ x.readyix ≠ x.popped ∧
        (s.tile o.tile).allows o.lidx 0x70000 64 (!push) (o.ctx == sysCtx) = true ∧
        (match s.stageLoc 5 x e.lane (if push then x.pushed else x.popped) with
         | some (.dev key a) => (s.stageReach 5 o [some (.dev key a)] ⟨.stageQueueTransfer, s.arg⟩).1 && (s.matched 0 a (some o.lidx)).isEmpty
         | _ => false) = true) ∧
    (let x := fget (transferring true 2 0).stageQs 5 StageQ.init; stageDiff x.pushed x.freed = 2 ^ x.dlog) ∧
    (let x := fget (transferring false 1 0).stageQs 5 StageQ.init; x.readyix = x.popped) ∧
    (fget (staged (wave []) 0 0).stageQs 6 StageQ.init).en = false ∧ (wave []).op? 9 = none :=
  ⟨fun p h => by
     simp only [List.mem_cons, List.not_mem_nil, or_false] at h
     rcases h with rfl | rfl <;> exact ⟨_, rfl, _, rfl, by decide +kernel⟩,
   by decide +kernel, by decide +kernel, by decide +kernel, by decide +kernel⟩

/-! ### Witnesses: services, dispatch, yielding, and the machine as a whole -/

/-- A service request of wave 0 whose words, from the lowest byte up, are v. -/
def asked (v : Nat) : SvcReq :=
  { id := 9, tile := 0, ctx := 0, lidx := 0, pc := 0x1000, words := (List.range 16).map fun i => BitVec.ofNat 32 (v / 2 ^ (32 * i)),
    die := 0, unit := 0, asid := 0, txn := false, dead := false, tri := 0, blk := 0, recs := 0, disc := 0, pois := false, bins := [], wait := none }
/-- The tile's slot for its reply, and the message that carries the request or answers it. -/
def requesting (v : Nat) (ok : Bool) : State :=
  let s := ev (wave []) { id := 9, ok := ok, words := (asked v).words }
  { s with tiles := s.tiles.map fun p => (p.1, { p.2 with un := { p.2.un with replies := [(0, [{ id := 9, lidx := 0, words := none, t := 0 }])] } }) }
theorem test_meets_ServiceMessages : (∀ ok ∈ [true, false], ∀ k ∈ [0, 1, 4, 5], let s := requesting ((0xF00 + k) * 2 ^ 32) ok
      s.indexLive s.arg.lidx = true ∧ (s.launch s.arg.lidx).tag = s.arg.val ∧ s.arg.words.length = 16 ∧ (s.arg.words.getD 1 0#32).toNat % 16 = k ∧
      selOk (s.arg.words.getD 1 0#32).toNat = (0 < k && k ≤ 4 || k == 0 || k == 5) ∧ s.arg.ok = ok) ∧
    selOk 0xE04 = false ∧ selOk 0x201 = true ∧ selOk 0x401 = false ∧
    ((requesting 0 true).pending = [] ∧ (requesting 0 true).svc = []) ∧
    (let s := requesting 0 true; (∃ r, (fget (s.tile s.arg.tile).un.replies s.arg.q []).find? (fun r => r.id == s.arg.id && r.words.isNone) = some r) ∧
     (s.ctx 0 0).status ≠ .trapped) ∧
    (fget ((wave []).tile 0).un.replies 0 []).find? (fun r => r.id == 9 && r.words.isNone) = none ∧
    ((calling 0 [] id).ctx 0 3).status = .trapped :=
  ⟨by decide +kernel, by decide, by decide, by decide, by decide +kernel, ⟨⟨_, rfl⟩, by decide +kernel⟩, by decide +kernel, by decide +kernel⟩
/-- The unit's event at a request at the head of its queue, with an answer of memory. -/
def serving (s : State) (r : SvcReq) : State := ev { s with svc := [r] } { id := 9 }
/-- What reading regions gives. -/
def got {α : Type} : Except Nat α × State → Bool
  | (.ok _, _) => true
  | (.error _, _) => false
/-- A region is in the local block, so that no line is needed for it. -/
def inBlock (v : Nat) (ins outs : List (Nat × Nat)) : Bool :=
  let s := serving (local_ [] id) (asked v)
  let r := asked v
  (ins.all fun p => s.svcRefused r p.1 p.2 false == none) && (outs.all fun p => s.svcRefused r p.1 p.2 true == none) && (s.svcReach r ins false).1 &&
    got ((s.svcReach r ins false).2.svcGets r ins) && (s.svcReach r outs true).1
/-- Sixteen DIRECT pages of address space 0 from 0x10000. -/
def contextMapped : State :=
  (faultQueued (local_ [] id) Queue.init).updMem fun m =>
    { m with hbm := (List.range 16).foldl (fun h i => h.writeN (16 * chanSpan + 128 + 8 * i) 8 (0x20113F + 0x10000 * i)) m.hbm }
/-- A request of a decoder on the stream context at 0x10000, or elsewhere. -/
def decoding (va : Nat) : SvcReq := asked ((1 + 0xF00) * 2 ^ 32 + va * 2 ^ 64)
/-- That context, held by a unit. -/
def lockedBy (u : Nat) : State :=
  let s := serving (wave []) (decoding 0x10000)
  { s with streams := [((decoding 0x10000).contextKey, { StreamCtx.init with lock := some u })] }
/-- A resize of one pixel of RGB8 in the local block. -/
def resizing : Nat :=
  0xF02 * 2 ^ 32 + 0xFC0000070000 * 2 ^ 64 + 0xFC0000070040 * 2 ^ 128 + 3 * 2 ^ 192 + 2 * 2 ^ 224 + 2 ^ 256 + 2 ^ 272 + 2 ^ 320 + 2 ^ 336 + 2 ^ 352 + 2 ^ 368 + 2 * 2 ^ 384
/-- A texture request with n samples. -/
def sampling (n : Nat) : Nat := 0xF03 * 2 ^ 32 + 0xFC0000070000 * 2 ^ 64 + 0xFC0000070020 * 2 ^ 128 + n * 2 ^ 192 + 0xFC0000070800 * 2 ^ 256
/-- A rasteriser's request of one triangle with a scissor of one block. -/
def rastering : SvcReq :=
  { asked (0xF04 * 2 ^ 32 + 0xFC0000070000 * 2 ^ 64 + 2 ^ 128 + 8 * 2 ^ 192 + 4 * 2 ^ 208 + 0xFC0000070400 * 2 ^ 256 + 16 * 2 ^ 320) with disc := 1 }
/-- Its triangle (0, 0), (8, 0), (0, 4) in the local block. -/
def triangle : State := (((serving (local_ [] id) rastering).scrWrite 0 0x70010 4 0x41000000 false).scrWrite 0 0x70024 4 0x40800000 false)
theorem test_meets_ServiceUnits : (wave []).svcHead = none ∧ (serving (wave []) (asked 0)).svcHead = some (asked 0) ∧
    ((decoding 0x10000).decodeFields = none ∧ (asked (2 ^ 240)).decodeFields = some 2 ∧ (asked (2 ^ 64)).decodeFields = some 3) ∧
    (let r := decoding 0x10000; ((contextMapped.stream r.contextKey).lock = none ∧ contextMapped.contextOk r (r.field 8 8) = none) ∧
      ((lockedBy 0).stream r.contextKey).lock = some (r.die * 16 + r.unit) ∧ ((lockedBy 5).stream r.contextKey).lock = some 5 ∧ 5 ≠ r.die * 16 + r.unit) ∧
    (contextMapped.contextOk (decoding (2 ^ 48)) (2 ^ 48) = some 5) ∧
    (let r := asked resizing
     r.op = 0 ∧ bitB (r.field 4 4) 14 = false ∧ r.field 53 1 = 0 ∧ r.field 56 8 = 0 ∧ r.field 44 2 = 1 ∧ r.field 46 2 = 1 ∧ r.field 48 1 = 2 ∧
     r.field 49 1 = 0 ∧ r.field 40 2 = 1 ∧ r.field 42 2 = 1 ∧ r.field 36 2 + 1 = r.field 32 2 ∧ r.field 38 2 + 1 = r.field 34 2 ∧
     inBlock resizing r.resizeIn r.resizeRanges = true ∧ ((serving (local_ [] id) r).svcPuts r (fun _ => false) 0 (r.resizeOut [1, 2, 3])).2.1 = none) ∧
    ((asked (resizing + 2 ^ 448)).field 56 8 ≠ 0 ∧ (asked (resizing + 8192 * 2 ^ 352)).field 44 2 = 8193) ∧
    (∀ n ∈ [1, 32], let r := asked (sampling n)
      r.op = 0 ∧ bitB (r.field 4 4) 14 = false ∧ r.field 26 6 = 0 ∧ r.field 40 24 = 0 ∧ r.field 24 1 = n ∧ r.field 25 1 = 0 ∧
      inBlock (sampling n) [(r.field 8 8, 32)] [(r.field 32 8, n * 8)] = true) ∧
    ((asked (sampling 33)).field 24 1 = 33 ∧ (asked (sampling 0)).field 24 1 = 0) ∧
    (serving (wave []) (asked 0)).svcRefused (asked 0) (2 ^ 48) 32 false = some (5, 2 ^ 48) ∧
    ((asked (2 ^ 232)).rasterFields = some 2 ∧ (asked 0).rasterFields = some 3 ∧ rastering.rasterFields = none ∧ 0 < rastering.disc ∧
      rastering.field 16 4 = 1 ∧ rastering.tri = 0 ∧ { rastering with tri := 1 }.tri = 1) ∧
    (let r := rastering; let s := triangle
     (s.svcReach r [(r.field 8 8, 48)] false).1 = true ∧
     (match (s.svcGet r (r.field 8 8) 48).1 with
      | .ok (bs, _) => (match r.triBlocks bs with
        | some l => l.length == 1 && (s.rasterBlocks r false l).2.1.isNone
        | none => false)
      | .error _ => false) = true ∧ r.triBlocks (List.replicate 48 0) = none) ∧
    (∀ t ∈ [0, 1], ({ serving (wave []) { rastering with wait := some t } with now := 0 }).svcReq? 9 = some { rastering with wait := some t }) ∧
    (wave []).svcReq? 9 = none ∧ ((0, 1) : Int × Int) ≠ (1, 0) :=
  ⟨by decide +kernel, by decide +kernel, by decide +kernel, by decide +kernel, by decide +kernel, by decide +kernel, by decide +kernel,
   by decide +kernel, by decide +kernel, by decide +kernel, by decide +kernel, by decide +kernel, by decide +kernel, by decide +kernel, by decide⟩

/-! ### Witnesses: dispatchers and yielding -/

/-- Tile 0 empty, with launch 0 not yet admitted. -/
def vacant : State := { wave [] with tiles := [], launches := [] }
/-- Queue 0 with the copy of a record of one wave at tile 0, entry 0x1000, which has no waves left out. -/
def enqueued (f : Queue → Queue) : State :=
  { vacant with queues := [(0, f { Queue.init with qstate := 1, writeIdx := 1, feed := true })],
                copies := [(tagOf 0 0, 0x1000 + 2 ^ 48 + 2 ^ 74 + 2 ^ 80)] }
/-- The record of that copy. -/
def firstRec : Launch := { Launch.init with r := recOf (0x1000 + 2 ^ 48 + 2 ^ 74 + 2 ^ 80) }
/-- Dispatcher 0 with a placement of the record in hand that waits for die 0. -/
def placing (ask : List Nat) (a : Arg) (s : State) : State :=
  ev { s with placing := [(0, { launch := firstRec, lidx := 0, ask := ask, next := 2000 })] } a
/-- Claims in hand, some of which came in an earlier mesh cycle. -/
def claimed (c : List (Nat × Nat × Nat)) (s : State) : State := { onDie s fun y => { y with claims := c } with now := 2 * meshTicks }
theorem test_meets_Dispatchers : (let s := enqueued id; let x := s.queue 0
      s.dieHost 0 = true ∧ (s.die 0).stopped = false ∧ (fget? s.placing 0).isSome = false ∧ (s.die 0).decided = 0 ∧
      x.qstate = 1 ∧ x.disabling = false ∧ x.writeIdx = (x.readIdx + 1) % 2 ^ 32 ∧ x.readIdx < 2 ^ 32 ∧ x.readIdx ∉ x.ended ∧
      s.launches = [] ∧ s.requeued = [] ∧ s.freed = [] ∧ s.placing = [] ∧ fget? s.copies (tagOf 0 0) = some (0x1000 + 2 ^ 48 + 2 ^ 74 + 2 ^ 80) ∧
      recBad (0x1000 + 2 ^ 48 + 2 ^ 74 + 2 ^ 80) x.prioceil 0 0 = false ∧ firstRec.r.txn = false ∧ firstRec.r.ndep = 0 ∧ firstRec.r.w = 1 ∧
      firstRec.r.h = 1 ∧ s.impossible firstRec = false ∧ s.originOk firstRec (0, 0) = true ∧ s.fitsOn (s.atOrigin firstRec (0, 0)) 0 = true) ∧
    (let s := { onDie (enqueued id) fun y => { y with decided := 3, stopped := false } with now := 9 }
     (s.die 0).decided ≠ 0 ∧ s.now < (s.die 0).decided + 96 ∧ s.timers = []) ∧
    ({ vacant with dies := [] }.dieHost 0 = false ∧ vacant.queues = []) ∧
    (let f : (Queue → Queue) → State := fun g => faultQueued (enqueued id) (g { (enqueued id).queue 0 with ringbase := 0x10000 })
     let x := (f id).queue 0
     (x.qstate = 1 ∧ x.feed = true ∧ (f id).dieHost 0 = true ∧ ¬ 2 ^ x.ringlog ≤ (x.writeIdx + 2 ^ 32 - x.readIdx) % 2 ^ 32 ∧ x.asid = 0 ∧
      ((f id).writeRecord 0 x.writeIdx 5).isSome = true) ∧
     ((f fun y => { y with ringbase := 0x800000 }).writeRecord 0 1 5 = none) ∧ ((f fun y => { y with feed := false }).queue 0).feed = false ∧
     (let y := (f fun y => { y with writeIdx := 16 }).queue 0; 2 ^ y.ringlog ≤ (y.writeIdx + 2 ^ 32 - y.readIdx) % 2 ^ 32)) ∧
    (let s := ev (waveK [] fun k => { k with status := .waiting }) { ok := true }
     s.arg.ok = true ∧ (s.ctx 0 0).status ≠ .idle ∧ (s.ctx 0 0).lidx = s.arg.lidx ∧ (s.ctx 0 7).status = .idle) :=
  ⟨by decide +kernel, by decide +kernel, by decide +kernel, by decide +kernel, by decide +kernel⟩
theorem test_meets_Claims : (let s := ev vacant { idx := 1, lidx := 7 }; s.arg.ok = false ∧ s.arg.unit ≠ 1) ∧
    (let c : List (Nat × Nat × Nat) := [(1, 0, 0), (0, 3, 7), (0, 1, 9), (2, 0, 5)]
     let s := ev (claimed c vacant) { unit := 1 }
     s.arg.unit = 1 ∧ nextClaim ((s.die 0).claims.filter fun c => c.1 < s.now / meshTicks) = some (0, 1, 9) ∧ fget? s.placing 1 = none) ∧
    (let s := ev (claimed [(2, 0, 5)] vacant) { unit := 1 }
     nextClaim ((s.die 0).claims.filter fun c => c.1 < s.now / meshTicks) = none) ∧
    (let s := claimed [(0, 0, 0)] (placing [0] { unit := 1 } vacant)
     fget? s.placing 0 = some { launch := firstRec, lidx := 0, ask := [0], next := 2000 } ∧ s.dieUp 0 = true ∧ (s.die 0).stopped = false ∧
     s.fitsOn firstRec 0 = true ∧ firstRec.run ≠ 2 ∧ firstRec.tilesOn 0 = [0]) ∧
    (let s := onDie (claimed [(0, 0, 0)] (placing [0] { unit := 1 } vacant)) fun y => { y with stopped := true }
     (s.die 0).stopped = true ∧ (fget? s.placing 0).isSome = true) ∧
    (let s := placing [1, 2] { ok := true, last := true } vacant
     s.arg.ok = true ∧ s.arg.last = true ∧ ∃ p, fget? s.placing 0 = some p ∧ p.lidx = s.arg.lidx ∧ p.ask.tail = 2 :: []) ∧
    (let s := placing [1] { ok := true, last := true } (shared (enqueued fun x => { x with qstate := 2 }))
     s.mayAdmit 0 firstRec = false) ∧
    (let s := placing [1] { ok := true, last := true } { enqueued id with tiles := [(0, { Tile.init with shares := [share] })] }
     (∀ u ∈ firstRec.tiles, ((s.tile u).share? 0).isSome = true) ∧ s.mayAdmit 0 firstRec = true ∧ firstRec.run ≠ 2 ∧ firstRec.r.txn = false) ∧
    (let s := placing [1] { ok := true } vacant; s.arg.last = false ∧ firstRec.origins.length ≤ 2000) ∧
    (placing [1] { ok := true, lidx := 5 } vacant).arg.lidx ≠ 0 ∧ fget? vacant.placing 0 = none :=
  ⟨by decide +kernel, by decide +kernel, by decide +kernel, by decide +kernel, by decide +kernel, ⟨by decide +kernel, by decide +kernel, _, rfl, by decide +kernel⟩,
   by decide +kernel, by decide +kernel, by decide +kernel, by decide +kernel⟩
/-- Launch 0 reserved on tile 0, its wave not started, on a tile that has granules or none. -/
def reserved (gran : List (Nat × Nat × Nat)) (h : Share → Share) : State :=
  let s := ev (wave []) { tile := 0, lidx := 0 }
  let x := Tile.init.setCtx 0 Ctx.init
  { s with tiles := [(0, { x with shares := [h { share with started := false, grans := 1 }], un := { Units.init with gran := gran } })] }
theorem test_meets_Starts : (∀ g ∈ [[], [(0, 1024, 5)]], let s := reserved g id; ∃ h, (s.tile 0).share? 0 = some h ∧ h.started = false ∧ h.guest = false ∧
      (s.launch 0).run = 1 ∧ s.indexLive 0 = true ∧ (s.giveRegs 0 0 [(0, [1])]).1 = (g == []) ∧
      ((s.tile 0).ctxs.filter fun p => !isPath p.1 && p.2.lidx == 0).map (·.1) = [0]) ∧
    (∃ h, ((reserved [] fun h => { h with started := true }).tile 0).share? 0 = some h ∧ h.started = true) ∧ ((wave []).tile 0).share? 0 = none ∧
    (let s := ev { enqueued (fun x => { x with failT := some (0, 9) }) with launches := [] } { q := 0, off := 0, val := 9 }
     (s.queue s.arg.q).failT = some (s.arg.off, s.arg.val) ∧ s.candidates (queueDie 0) = ([(firstRec, none)], s) ∧ firstRec.tag = s.arg.off ∧
     s.holds = [] ∧ (∃ h ∈ { s with holds := [⟨0, 0, 0, 0, 1, 1⟩] }.holds, h.tag = firstRec.tag)) ∧
    vacant.candidates 0 = ([], vacant) ∧ (vacant.queue 0).failT ≠ some (0, 9) :=
  ⟨fun g h => by
     simp only [List.mem_cons, List.not_mem_nil, or_false] at h
     rcases h with rfl | rfl <;> exact ⟨_, rfl, by decide +kernel⟩,
   ⟨_, rfl, by decide +kernel⟩, by decide +kernel, by decide +kernel, by decide +kernel, by decide +kernel⟩
/-- A pre-emption of launch 0 under way, whose wave is ready or has stopped. -/
def preempting (st : Status) (f : Launch → Launch) : State :=
  let s := ev (launching (waveK [] fun k => { k with status := st }) fun x => f { x with tier := 1 }) { val := 5, off := 3 }
  let s := { s with preempts := [{ tag := 5, victims := [0], t := 3 }] }
  { s with tiles := s.tiles.map fun p => (p.1, { p.2 with shares := [{ share with lsize := 0 }] }) }
/-- Its launch has a detour area of some pages from address 0 up, of which the pages at 0x10000 are mapped, and its wave has stopped. -/
def leaving (pages : Nat) : State :=
  let s := preempting .stopped fun x => { x with r := { x.r with detsize := pages } }
  { s with dies := contextMapped.dies, mem := contextMapped.mem, queues := contextMapped.queues }
theorem test_meets_Yielding : (∀ b ∈ [true, false], ∀ c ∈ [true, false], let s := preempting .ready fun x => { x with r := { x.r with txn := b, persist := c } }
      let x := s.launch 0
      s.preempts.find? (fun p => p.tag == s.arg.val && p.t == s.arg.off) = some { tag := s.arg.val, victims := [0], t := s.arg.off } ∧
      s.preempts = { tag := s.arg.val, victims := [0], t := s.arg.off } :: [] ∧ x.run = 1 ∧ x.tier = 1 ∧ s.indexLive 0 = true ∧
      s.allStopped 0 = false ∧ x.r.persist = c ∧ x.r.txn = b ∧ x.commit ≠ 4) ∧
    (preempting .stopped id).allStopped 0 = true ∧ (wave []).preempts.find? (fun p => p.tag == 5 && p.t == 3) = none :=
  ⟨by decide +kernel, by decide +kernel, by decide +kernel⟩
theorem test_meets_SwitchOuts : (∀ pages ∈ [0, 2], let s := leaving pages; let x := s.launch 0; let d := x.shadowDie
      s.indexLive 0 = true ∧ x.run = 1 ∧ x.tier = 1 ∧ x.commit = 0 ∧ s.allStopped 0 = true ∧ s.canLeave 0 = true ∧
      (sharePages ((s.freeDetour x).filter fun p => s.detourWritable d (s.asidOf 0) p)
        (x.tiles.map fun t => let y := s.saveTile x 0 t; (y, y.stream 0 y.nth y.mask))).2 = (if pages = 2 then [] else [0])) ∧
    (let s := { leaving 2 with ops := [(9, (wave []).mkOp .store .b32 false ⟨0, 0⟩ [] 5 false)] }
     s.allStopped 0 = true ∧ s.canLeave 0 = false ∧ s.timers = []) := by decide +kernel
/-- A tile as it was saved, with the blocks of its image. -/
def savedTile (blocks : List Nat) : Saved :=
  { tile := 0, ctxs := [(0, { ctx [] with status := .stopped, regs := { regs [] with blocks := [(0, 1)] } })], gangs := [], owners := [], acc := [],
    array := none, ahead := [], bars := [], parks := [], ops := [], lbase := 0x70000, lsize := 1024, accs := 0, pslots := 0, bytes := [], full := [],
    spois := [], blocks := blocks, boot := 0, nth := 1 }
/-- That tile being restored. -/
def restoring (blocks : List Nat) (gran : List (Nat × Nat × Nat)) (h : Share → Share) (a : Arg) : State :=
  let s := ev (launching (reserved gran h) fun x => { x with saved := [savedTile blocks] }) { a with tile := 0, lidx := 0 }
  { s with tiles := s.tiles.map fun p => (p.1, p.2.setCtx 0 { ctx [] with status := .stopped, regs := { regs [] with blocks := [] } }) }
theorem test_meets_Restores : (∀ g ∈ [[], [(0, 1024, 5)]], ∀ b ∈ [[], [0]], ∀ o ∈ [true, false], let s := restoring b g id { ok := o }; let x := s.launch 0
      x.saved.find? (fun y => y.tile == s.arg.tile) = some (savedTile b) ∧ (∃ h, (s.tile 0).share? 0 = some h ∧ h.started = false ∧ h.away = false) ∧
      x.run = 1 ∧ s.indexLive 0 = true ∧ x.commit ≠ 4 ∧ s.arg.ok = o ∧ s.checkImage x.shadowDie (s.asidOf 0) 0 (savedTile b) = (if b = [] then none else some 0) ∧
      (s.giveRegs 0 0 (((savedTile b).ctxs.filter fun c => !isPath c.1).map fun c => (c.1, c.2.regs.blocks.map (·.2)))).1 = (g == []) ∧
      (savedTile b).gangs = [] ∧ (savedTile b).bytes = [] ∧ (s.ctx 0 0).lidx = 0 ∧ (s.ctx 0 0).status = .stopped) ∧
    ((restoring [] [] (fun h => { h with away := true }) {}).tile 0).share? 0 = some { share with started := false, grans := 1, away := true } ∧
    ((wave []).launch 0).saved.find? (fun y => y.tile == 0) = none ∧
    (∀ r ∈ [[], [(1, 7)]], let s := { wave [] with tiles := [(0, { Tile.init with un := { Units.init with compact := (0, 256) :: r } })] }
      (s.tile 0).un.compact = (0, 256) :: r) ∧ ((wave []).tile 0).un.compact = [] ∧
    (let s := { ev (waveK [] fun k => { k with readyT := some 0 }) { tile := 0, ctx := 0 } with now := 256 }; let k := s.ctx 0 0
     k.status = .ready ∧ k.urgent = false ∧ k.readyT = some 0 ∧ 0 + 256 ≤ s.now) :=
  ⟨fun g hg b hb o ho => by
     simp only [List.mem_cons, List.not_mem_nil, or_false] at hg hb ho
     rcases hg with rfl | rfl <;> rcases hb with rfl | rfl <;> rcases ho with rfl | rfl <;>
       exact ⟨by decide +kernel, ⟨_, rfl, by decide +kernel⟩, by decide +kernel⟩,
   by decide +kernel, by decide +kernel, by decide +kernel, by decide +kernel, by decide +kernel⟩

/-! ### Witnesses: steps, and completion of accesses -/

/-- The package with an instruction placed at the PC of wave 0. -/
def placed (n w : Nat) : State := State.reset.withFetchWord n w
/-- What is fetched is a word of which p holds. -/
def Fetched.gives (f : Fetched) (p : Nat → Bool) : Bool :=
  match f with
  | .word w => p w
  | _ => false
theorem test_meets_StepRunsDecodedInstruction : (placed 16 0xE95C).power = true ∧ (placed 16 0xE95C).agenda = .issue 0 0 :: [] ∧
    Fetched.gives (({ placed 16 0xE95C with agenda := [] }.turn 0 0).fetch 0 0) (fun w => (decodeNat w).isSome) = true ∧
    Fetched.gives (({ placed 16 0x083E with agenda := [] }.turn 0 0).fetch 0 0) (fun w => (decodeNat w).isNone) = true ∧
    ((waveK [] fun k => { k with regs := { k.regs with pc := 0x1001 } }).ctx 0 0).regs.pc.getLsbD 0 = true := by decide +kernel
theorem test_meets_StepRunsInstructionInMemory : let w := 0x0048D159E00013C3
    let s := placed 64 w; let s1 := { s with agenda := [] }.turn 0 0
    s.power = true ∧ s.agenda = .issue 0 0 :: [] ∧ (s.ctx 0 0).regs.pc.toNat = 0x1000 ∧ (s.ctx 0 0).rep = none ∧ lengthOf (w % 2 ^ 16) = 8 ∧
    w < 2 ^ 64 ∧ decodeNat w = some (.li 4 0x12345678#32) ∧
    (∀ j, j < 4 → globalVa (0x1000 + 2 * j) = true ∧ (match s1.tileTranslate 0 0 0x1000 (0x1000 + 2 * j) 4 false with
      | .ok _ (.dev k p) => s1.cached 0 (.dev k p) && !s.linePoison (lineOf k) && s.devRead k 2 == w / 2 ^ (16 * j) % 2 ^ 16
      | _ => false) = true) := by decide +kernel
/-- Time passes over wave 0, which does not issue. -/
def quietly (p : List Event) (t : List (Nat × Event)) : State := { wave [] with tiles := [], pending := p, timers := t }
theorem test_meets_StepOrder : (let s := wave []; s.agenda = [] ∧ s.power = true ∧ s.sched = [] ∧ { s with power := false }.power = false) ∧
    (let e : Event := ⟨.admissionDecision, {}⟩; (quietly [e] []).mayRun e = true ∧ (quietly [] [(0, e)]).mayRun e = true ∧
     (0 ≤ (quietly [] [(0, e)]).now) ∧ (quietly [] []).slotOf e = none ∧ e.what ≠ .remoteScratchRequest ∧ (quietly [] []).moves = []) ∧
    (let s := { placed 16 0xE95C with agenda := [], pending := [], timers := [] }; s.moves = [.issue 0 0]) := by decide +kernel
theorem test_meets_IssuePorts : (let s := { placed 16 0xE95C with agenda := [] }; (0, 0) ∈ s.issuers ∧ isPath 0 = false ∧ (s.nextInstr 0 0).any vectorPort = false ∧
      (s.nextInstr 0 0).any testRequest = false ∧ (s.ctx 0 0).yielded = false) ∧
    (let s := { placed 64 0x00042C0C08045053 with agenda := [] }; (s.nextInstr 0 0).any vectorPort = true) ∧
    (let s := { placed 64 0x0000002030002B17 with agenda := [] }; (s.nextInstr 0 0).any testRequest = true) ∧ isPath 192 = true ∧
    (∀ l ∈ [[], [3]], let s := { wave [] with tiles := [(0, { Tile.init with issue := { Tile.init.issue with rot := l, rotI := 7 } })] }
      (s.tile 0).issue.rotI + 0 < max 8 (s.tile 0).issue.rot.length ∧ max 8 (s.tile 0).issue.rot.length ≤ (s.tile 0).issue.rotI + 1 ∧
      ((s.tile 0).issue.rot ≠ [] ↔ l = [3])) ∧
    (let s := syncing { path [] with tiles := [(0, { Tile.init with un := { Units.init with mb := [(1, copy0)] } })] } id
     31 ∈ s.members 0) := by decide +kernel
theorem test_meets_MemoryStaysCanonical : (let s := placed 16 0xE95C
      s.mem.hbm.wf = true ∧ s.mem.sys.wf = true ∧ s.mem.peer.wf = true ∧ s.mem.scr.wf = true) ∧
    (∃ t, step (placed 16 0xE95C) = .next t) ∧ aluDest (.add 3 1 2) = some [3] ∧ ∃ t, exec (.add 3 1 2) (wave []) = .next t :=
  ⟨by decide +kernel, ⟨_, rfl⟩, rfl, ⟨_, rfl⟩⟩
theorem test_meets_EncodeDecode : (∀ i ∈ [Instr.add 3 1 2, .li 4 5], i.len ≠ 0 ∧ i.wf = true) ∧
    (∀ w ∈ [0xE95C, 0x00204305, 0x0048D159E00013C3], ((decodeNat w).any fun i => decide (w < 2 ^ (8 * i.len))) = true) := by decide +kernel
theorem test_meets_RegisterAccesses : (wave []).fits .A (sr 63) [] ∧ (wave []).fits .A (sr 0) [sr 0] ∧ ctlRegs 0x006 60 0 false = some [60, 61] ∧
    (wave []).fits .A [60, 61] [] ∧ (wave []).me.ctlWaits 0x006 false = false ∧ ctlRegs 0x01C 5 sysCtx true = some [5] ∧
    ctlWritable 0x01C sysCtx = true ∧ (sup [(5, 1)]).fits .A [5] [[5]] ∧ (sup []).me.ctlWaits 0x01C true = false ∧ (sup []).myTile.sync.mbWait = [] :=
  ⟨fits_of (by decide +kernel), fits_of (by decide +kernel), by decide +kernel, fits_of (by decide +kernel), by decide +kernel, by decide +kernel,
   by decide +kernel, fits_of (by decide +kernel), by decide +kernel, by decide +kernel⟩
/-- A scalar access at x4 + off of the mapped page may issue. -/
theorem mayIssue_of {k : OpKind} {f : Bool} {n va : Nat} (h : va % n = 0 ∧ globalVa va = true)
    (g : (match (mapped []).tileTranslate 0 0 0x1000 va k.acc f with
      | .ok _ p => !(mapped []).held ⟨0, 0⟩ [mkElem 0 va n (some p) 0#64 0#2]
      | _ => false) = true) (c : (mapped []).ctrFull k = false) : (mapped []).mayIssue k ⟨0, 0⟩ f n va := by
  refine ⟨h.1, h.2, by decide +kernel, by decide +kernel, c, ?_⟩
  have hp : (mapped []).me.regs.pc.toNat = 0x1000 := by decide +kernel
  have hc : (mapped []).cur = (0, 0) := rfl
  rw [hp, hc]
  split at g <;> rename_i e
  · exact ⟨_, _, e, by simpa using g⟩
  · exact absurd g (by decide)
theorem test_meets_GlobalAccessCompletion : let s := mapped []; let m : MaskOp := ⟨0, false⟩; let act := s.me.active m
    s.fits .A (sxr true 60 ++ xr 4) [xr 4] ∧ s.mayIssue .load ⟨0, 0⟩ true 8 0x2008 ∧ s.mayIssue .store ⟨0, 0⟩ true 1 0x2FFF ∧
    s.fits .A (xr 4) [xr 4] ∧ s.mayIssue .cinv ⟨0, 0⟩ true 1 0x2008 ∧ s.mayIssue .pref ⟨0, 0⟩ true 1 0x2008 ∧ s.mayIssue .cflush ⟨0, 0⟩ true 1 0x2008 ∧
    s.fits .A (sxr false 6 ++ xr 4) [xr 4, sxr false 6] ∧ s.mayIssue .red ⟨0, 0⟩ true 4 0x2000 ∧ s.mayIssue .atom ⟨0, 0⟩ true 4 0x2000 ∧
    s.fits .A (sxr false 7 ++ sxr false 6 ++ sxr false 8 ++ xr 4) [xr 4, sxr false 6, sxr false 8] ∧
    s.attachesMem { s := xr 4, v := vyr true 6, m := [m.k] } (s.me.poisonedUses [xr 4]) ∧
    s.attachesMem { s := xr 4, v := 0 :: vyr false 7, m := [m.k] } (s.me.poisonedUses [xr 4] + s.me.vecUses [0] act) ∧
    s.attachesMem { s := xr 4, v := [0, 1, 7], m := [m.k] } (s.me.poisonedUses [xr 4] + s.me.vecUses [0, 1, 7] act) ∧
    s.attachesMem { s := xr 4, v := [0, 1], m := [m.k] } (s.me.poisonedUses [xr 4] + s.me.vecUses [0, 1] act) ∧
    (∀ k ∈ [OpKind.load, .store, .atom, .red], s.mayIssueLanes k ⟨0, 0⟩ act 4 fun l => 0x2000 + 4 * l) :=
  ⟨fits_of (by decide +kernel), mayIssue_of (by decide) (by decide +kernel) (by decide +kernel),
   mayIssue_of (by decide) (by decide +kernel) (by decide +kernel), fits_of (by decide +kernel),
   mayIssue_of (by decide) (by decide +kernel) (by decide +kernel), mayIssue_of (by decide) (by decide +kernel) (by decide +kernel),
   mayIssue_of (by decide) (by decide +kernel) (by decide +kernel), fits_of (by decide +kernel),
   mayIssue_of (by decide) (by decide +kernel) (by decide +kernel), mayIssue_of (by decide) (by decide +kernel) (by decide +kernel),
   fits_of (by decide +kernel),
   ⟨attaches_of (by decide +kernel), by decide +kernel, by decide +kernel⟩, ⟨attaches_of (by decide +kernel), by decide +kernel, by decide +kernel⟩,
   ⟨attaches_of (by decide +kernel), by decide +kernel, by decide +kernel⟩, ⟨attaches_of (by decide +kernel), by decide +kernel, by decide +kernel⟩,
   fun k h => by
     simp only [List.mem_cons, List.not_mem_nil, or_false] at h
     rcases h with rfl | rfl | rfl | rfl <;> exact ⟨by decide +kernel, by decide +kernel, by decide +kernel⟩⟩

/-! ### Ill-formed terms, words of the spec, and worked results -/

/-- A mask operand, and the ordering of a plain access. -/
def m0 : MaskOp := ⟨0, false⟩
def plain : MemOrd := ⟨0, 0⟩
/-- One term for each check of scalar forms (R346, R347, R352, R362 to R366). -/
theorem test_wf_scalar : [Instr.add16 32 0, .add16 0 32, .addi16 32 0, .kget16 0 16, .kset16 32 0, .add 64 0 0, .add 0 64 0, .add 0 0 64, .clz 64 0,
      .add64 1 0 0, .add64 62 0 0, .shl64 0 0 64, .lea 0 0 0 4, .sel 0 64 0 0, .mad64 0 0 0 1, .bfx 0 0 0 0, .bfx 0 0 1 32, .cmp .eq 32 0 0,
      .pand 32 0 0, .pnot 0 32, .addi 64 0 0, .shli 0 0 32, .addi64 1 0 0, .lui 64 0, .br .eqz 64 0, .brp true 32 0, .brm .any 8 0,
      .vbr true false 8 0, .kget 0 16, .kset 16 0, .ctlr 0 4096, .ctlw 0 64, .trap 4096, .svc 4096, .qgive 0 6, .gjoin 0 64, .gleave 64, .jr 1,
      .li 64 0].all (fun i => !i.wf) = true := by decide +kernel
/-- Of vector forms (R397, R399). -/
theorem test_wf_vector : [Instr.vadd .i32 0 m0 0 0 0, .vadd .f32 4 m0 0 0 0, .vadd .f32 0 ⟨8, false⟩ 0 0 0, .vadd .f32 0 m0 256 0 0, .vmin .e4m3 m0 0 0 0,
      .vfma .f32 0 m0 0 0 0 256, .vabs .i32 m0 0 0, .vrcp 6 m0 0 0, .viadd false .f32 m0 0 0 0, .vimul true .i16 m0 0 0 0, .vimad .i4 m0 0 0 0 0,
      .vand m0 0 0 256, .vnot m0 0 256, .vshl m0 0 0 (.imm 32), .vshl m0 0 0 (.reg 256), .vcmp .eq .i16 m0 0 0 0, .vcmp .eq .i32 m0 8 0 0,
      .vfcmp .eq m0 8 0 0, .vsel m0 0 0 0 8, .vbcast m0 0 64, .vred .exch .i32 m0 0 0, .vred .and .f32 m0 0 0, .vshuf (.xor 32) m0 0 0,
      .vscan .add false .i16 m0 0 0, .vballot m0 64 0, .vlane (.get 64 0 0), .vlane (.put 0 64 0), .vlane (.id m0 256), .vcvt .b32 .f32 0 m0 0 0,
      .vcvt .e8m0 .i32 0 m0 0 0, .vcvt .f32 .f16 6 m0 0 0, .vpack .f32 .i32 0 m0 0 0, .vpack .bf16 .f32 0 m0 0 1, .vunpack .i32 .f16 m0 0 0,
      .vunpack .f32 .f16 m0 1 0, .vdot .f32 0 false none m0 0 0 0 0, .vdot .bf16 1 false none m0 0 0 0 0, .vdot .e4m3 0 true none m0 0 0 0 0,
      .vdot .e4m3 1 false none m0 0 255 0 0, .vdot .e4m3 1 false (some 1) m0 0 0 0 0, .vunif 64 0, .vmorton true .i32 m0 0 0 0 1,
      .vmorton false .f32 m0 0 0 0 0, .vhash 32 m0 0 0 0, .mand 8 0 (.m 0), .mand 0 0 (.m 8), .mand 0 0 (.s 64), .mnot 0 8, .mpop 64 0].all
    (fun i => !i.wf) = true := by decide +kernel
/-- Of memory, synchronisation, matrix and travel forms (R422, R434, R448, R469). -/
theorem test_wf_memory : [Instr.ld .f16 false plain 0 0 0, .ld .i16 true plain 0 0 0, .ld .f32 false ⟨2, 0⟩ 0 0 0, .ld .f32 false ⟨0, 1⟩ 0 0 0,
      .ld .f32 false ⟨1, 5⟩ 0 0 0, .ld .f32 true plain 1 0 0, .ld .f32 false plain 0 1 0, .st .f32 false ⟨1, 0⟩ 0 0 0, .vld .f32 true plain m0 1 0 0,
      .vgather false .f32 false 4 plain m0 0 0 0, .vscatter .f32 false 0 plain m0 0 0 256, .sld .f32 false plain (.vec m0 0 4) 0 0,
      .sld .f32 false plain (.vec m0 256 0) 0 0, .sst .f32 true plain (.vec m0 0 0) 1 0, .sldM .f32 false (.disp 0) 64 0, .syncld true .i16 (.disp 0) 0 0,
      .feset true (.disp 0) 1, .atom .add true .i32 false plain 1 0 0 0, .atom .cas true .i32 false plain 0 0 0 0, .atom .add false .f32 true plain 0 0 0 0,
      .atom .and false .f32 false plain 0 0 0 0, .atom .add false .i32 false plain 0 0 0 1, .atom .add true .i32 false ⟨1, 0⟩ 0 0 0 0,
      .red .cas .i32 false plain 0 0, .red .add .i32 false ⟨3, 0⟩ 0 0, .vatom .add true .i32 0 plain m0 1 0 0 0, .vredm .exch .i32 0 plain m0 0 0 0,
      .fence 0 0, .fence 4 0, .fence 1 5, .bar 32 0, .barw 32, .evsig 64 0, .evmsg 0 64 0, .waitc .gst 64, .mbw 4 0, .mbstat 64, .qpush 0 1 0, .qstat 0 64,
      .cinv 1 0, .macq 64, .accalloc 0 0, .accalloc 0 17, .accfree 64, .acczero 16, .tmld 16 0 0, .stset 8 0 0 0, .stadv 8 0, .rep 0 0, .rep 0 17,
      .mlds 4 false false 0 0 0 0, .mlds 0 false false 2 0 0 0, .mlds 0 false true 1 0 0 0, .mlds 0 false false 0 16 0 0, .mlds 0 false false 0 0 0 1,
      .mstream .f32 0 0 0 0 1, .mstream .bf16 16 0 0 0 1, .mstream .bf16 0 0 0 0 0, .mstream .bf16 0 0 1 0 64, .mdrain false false 0 0 0 2,
      .mdrain true false 0 0 0 1, .mstep 64, .send true 64 0 0 0 0, .send true 0 0 54 0 0, .migrate true 64, .seglook 0 64 0, .hitpush 49, .hitpop 241 0,
      .boxt 0 56 0 0, .trit true 60 0 0, .trit true 0 56 0, .svreq 8 0, .svpop 0 60, .launch 1 0 0, .tabort 64, .tstat 1, .prept 0 33].all
    (fun i => !i.wf) = true := by decide +kernel

/-- Words of the spec's encodings and of its examples (R340 to R345, R362 to R369), family by family. -/
theorem test_decode_scalar : decodeNat 0x00204305 = some (.add 3 1 2) ∧ decodeNat 0xE95C = some (.addi16 5 (-3)) ∧ decodeNat 0xFFD14521 = some (.addi 5 5 (-3)) ∧
    decodeNat 0x0048D159E00013C3 = some (.li 4 0x12345678) ∧ decodeNat 0x003100C5 = some (.kset 3 4) ∧ decodeNat 0x192C = some (.kset16 4 3) ∧
    decodeNat 0x003E = some .nop16 ∧ decodeNat 0x00BE = some .exit16 := by decide +kernel
theorem test_decode_control : decodeNat 0x0018126D = some (.vbr true false 1 6) ∧ decodeNat 0x000C206D = some (.vbr false false 2 3) ∧
    decodeNat 0x007000F9 = some .vreconv ∧ decodeNat 0x002000F9 = some .exit ∧ decodeNat 0x006006C9 = some (.ctlr 6 6) ∧
    decodeNat 0x045002ED = some (.gjoin 2 5) ∧ decodeNat 0x013005ED = some (.qgive 5 3) := by decide +kernel
theorem test_decode_vector : decodeNat 0x00042C0C08045053 = some (.vfma .f32 1 ⟨3, true⟩ 20 1 2 3) ∧
    decodeNat 0x00000400001820E3 = some (.vred .add .f32 ⟨1, false⟩ 8 6) ∧ decodeNat 0x00000400001824EB = some (.vscan .add false .f32 ⟨1, false⟩ 9 6) ∧
    decodeNat 0x0001801814101D17 = some (.vmorton false .i32 ⟨0, false⟩ 7 4 5 6) := by decide +kernel
theorem test_decode_memory : decodeNat 0x0000000000102583 = some (.ld .f32 false ⟨0, 0⟩ 9 4 0) ∧ decodeNat 0x0A03C00000182983 = some (.ld .b32 false ⟨1, 2⟩ 10 6 0) ∧
    decodeNat 0x4000041C181001CF = some (.vredm .add .f32 2 ⟨0, 0⟩ ⟨1, false⟩ 4 6 7) ∧ decodeNat 0x00040000001001FB = some (.waitc .gst 4) ∧
    decodeNat 0x00000000002011B7 = some (.syncst .f32 (.disp 0) 4 8) ∧ decodeNat 0x0004000000180DB3 = some (.syncld true .f32 (.disp 0) 3 6) ∧
    decodeNat 0x1B000000000001D3 = some (.fence 3 3) ∧ decodeNat 0x1EF = some .mbar := by decide +kernel
theorem test_decode_matrix_and_travel : decodeNat 0x40008000000002AF = some (.mstream .bf16 0 0 0 0 64) ∧
    decodeNat 0x00000000040402A7 = some (.mlds 0 false false 0 1 1 0) ∧ decodeNat 0x2AB = some .mflip ∧ decodeNat 0x01000000006C02A3 = some (.rep 27 2) ∧
    decodeNat 0x020400280C003303 = some (.send true 2 12 0 3 10) ∧ decodeNat 0x0000000030000307 = some (.migrate false 12) ∧
    decodeNat 0x0000002030002B17 = some (.boxt 10 0 12 8) ∧ decodeNat 0x32F = some .mstone ∧ decodeNat 0x1337 = some (.tstat 4) ∧
    decodeNat 0x0000000000280333 = some (.tabort 10) ∧ decodeNat 0x080000000008033B = some (.prept 2 8) := by decide +kernel
/-- A reserved field that is not zero, and codes that no instruction has (R352). -/
theorem test_decode_none : decodeNat 0x00101969 = none ∧ decodeNat 0x0000 = none ∧ decodeNat 0x083E = none ∧ decodeNat 0x60100005 = none := by
  decide +kernel

/-- What an instruction leaves of the issuing context. -/
def after (i : Instr) (s : State) (p : Ctx → Bool) : Bool :=
  match exec i s with
  | .next t => p t.me
  | _ => false
/-- The first instruction after reset runs: s5 := 0 - 3, and the PC moves past its two bytes (R341, R375). -/
theorem test_step_addi16 : (match step (State.reset.withFetchWord 16 0xE95C) with
    | .next t => (t.ctx 0 0).raw 5 == 0xFFFFFFFD && (t.ctx 0 0).regs.pc == 0x1002
    | _ => false) = true := by decide +kernel
theorem test_add_wraps : after (.add 3 1 2) (wave [(1, 0xFFFFFFFF), (2, 2)]) (fun k => k.raw 3 == 1 && k.regs.pc == 0x1004) = true := by decide +kernel
/-- The remainder has the sign of the dividend (R374). -/
theorem test_div : after (.div 3 1 2) (wave [(1, 7), (2, -2)]) (fun k => k.raw 3 == 0xFFFFFFFD) = true ∧
    after (.rem 3 1 2) (wave [(1, 7), (2, -2)]) (fun k => k.raw 3 == 1) = true := by decide +kernel
theorem test_shift_of_width : after (.shl 3 1 2) (wave [(1, 1), (2, 31)]) (fun k => k.raw 3 == 0x80000000) = true := by decide +kernel
/-- sz discards what is written to it (R246). -/
theorem test_sz : after (.addi 63 63 5) (wave []) (fun k => k.raw 63 == 0 && k.regs.pc == 0x1004) = true := by decide +kernel
theorem test_lui : after (.lui 4 0x3FFFF) (wave []) (fun k => k.raw 4 == 0xFFFFC000) = true := by decide +kernel
/-- The example of R34: the tile at unit 77 of die 2 fails, and then is quarantined. -/
theorem test_boot_records : bootRecord 2 5 77 1 0 0 = 0x00061345#32 ∧ bootRecord 2 5 77 4 2 0 = 0x00921345#32 := by decide +kernel
/-- The example of R80: address 0x12345678 under HOME 0. -/
theorem test_home_channel : { wave [] with zonecfg := 12 }.poolKey 0 0 0x12345678 = some (86 * chanSpan + 0x123478) := by decide +kernel
/-- The home tile of segment 0x001F82, the launch tag of record 0x00010005 of queue 40,001, and the places of two tiles (R12, R139, R222). -/
theorem test_numbers : State.reset.segHome 0x001F82 = 901 ∧ tagOf 40001 0x00010005 = 0x4E208005 ∧ tileAt 2 3 5 = 860 ∧ tileAt 1 3 5 = 122 := by decide +kernel
/-- A vector register of some lanes, from lane 0 up. -/
def lanes (l : List Word) : VReg := { VReg.zero with lanes := Vector.ofFn fun i : Fin 32 => l.getD i.val 0 }
/-- Wave 0 with vector registers and m1 = 0xF. -/
def vwave (v : FMap VReg) (f : Ctx → Ctx) : State := waveK [] fun k => f { k with regs := { k.regs with v := v, m := [(1, 0xF#32)] } }
/-- The example of R409: a fold of 2^24, 1, 1 and 2. -/
theorem test_vred : after (.vred .add .f32 ⟨1, false⟩ 8 6) (vwave [(6, lanes [0x4B800000, 0x3F800000, 0x3F800000, 0x40000000])] id)
    (fun k => (k.finishEntry 0).raw 8 == 0x4B800001 && bitB (k.finishEntry 0).ctl.fpstat.toNat 4) = true := by decide +kernel
/-- The example of stochastic rounding (R324). -/
theorem test_vcvt_stochastic : after (.vcvt .bf16 .f32 4 ⟨1, false⟩ 5 6)
      { vwave [(6, lanes [0x3F804000, 0x3F80FF00])] id with tiles := (vwave [(6, lanes [0x3F804000, 0x3F80FF00])]
        fun k => { k with regs := { k.regs with m := [(1, 3#32)] } }).tiles }
    (fun k => let k := k.finishEntry 0; ((k.vreg 5).lane 0).toNat % 65536 == 0x3F80 && ((k.vreg 5).lane 1).toNat % 65536 == 0x3F81 &&
      k.ctl.rngseed == 0x04080601) = true := by decide +kernel
/-- Coordinates 5, 3 and 1 interleaved (R416). -/
theorem test_vmorton : after (.vmorton false .i32 ⟨0, false⟩ 7 4 5 6) (vwave [(4, lanes [5]), (5, lanes [3]), (6, lanes [1])] id)
    (fun k => ((k.finishEntry 0).vreg 7).lane 0 == 0x57) = true := by decide +kernel
/-- The node of the example of R477, whose four children have their bounds from word 4 up, and its ray with a cone spread. -/
def node : List Nat :=
  [0x104, 0, 0x3A800000, 0x3B800000, 0x40000000, 0xBF800000, 0xBF800000, 0x40800000, 0x40400000, 0x40400000,
   0x3F800000, 0, 0, 0x40000000, 0x3F800000, 0x3F800000] ++ [0x3F800000, 0, 0, 0x3FC00000, 0x3F800000, 0x3F800000,
   0x41200000, 0x41200000, 0x41200000, 0x41300000, 0x41300000, 0x41300000]
def ray (spread : Nat) : List Nat := [0, 0, 0, 0x3F800000, 0x3F000000, 0x3E800000, 0x42C80000, spread]
theorem test_boxt : boxResult (node.getD · 0) ((ray 0x3C000000).getD · 0) 0xFFFF = 0x00030103#32 ∧
    boxResult (node.getD · 0) ((ray 0x39800000).getD · 0) 0 = 0x00010204#32 := by decide +kernel

end Sys2Proof.Tests
end

/-! What LUI, SEL and VRECONV encode as and do (R375, R379, R385), on rules for the 32-bit forms and for the frame of a scalar instruction. -/
namespace Sys2Proof

/-! ### Decoding the 32-bit forms (R340, R343) -/

/-- A 32-bit form decodes by its major. -/
theorem decodeNat_of_length4 {w : Nat} (hlen : w % 4 = 1) (hw : w < 2 ^ 32) : decodeNat w = decode32 w := by
  have hodd : w % 2 ≠ 0 := by omega
  rw [decodeNat, Nat.mod_eq_of_lt hw]
  simp [hodd, hlen]

theorem decode32_sel {w : Nat} (h : w / 4 % 64 = 0x02) :
    decode32 w = req true (.sel (w / 2 ^ 8 % 64) (w / 2 ^ 26 % 64) (w / 2 ^ 14 % 64) (w / 2 ^ 20 % 64)) := by
  simp only [decode32, h]

theorem decode32_lui {w : Nat} (h : w / 4 % 64 = 0x11) :
    decode32 w = req true (.lui (w / 2 ^ 8 % 64) (BitVec.ofNat 18 (w / 2 ^ 14))) := by
  simp only [decode32, h]

theorem decode32_sys {w : Nat} (h : w / 4 % 64 = 0x3E) :
    decode32 w = decodeSys 0x3E (w / 2 ^ 20 % 4096) (w / 2 ^ 14 % 64) (w / 2 ^ 8 % 64) := by
  simp only [decode32, h]

/-- LUI decodes from major 0x11 with its immediate in the bits above d. -/
theorem decodeNat_lui {d imm : Nat} (hd : d < 64) (hi : imm < 2 ^ 18) :
    decodeNat (0x45 + d * 2 ^ 8 + imm * 2 ^ 14) = some (.lui d (BitVec.ofNat 18 imm)) := by
  have fd : (0x45 + d * 2 ^ 8 + imm * 2 ^ 14) / 2 ^ 8 % 64 = d := by omega
  have fi : (0x45 + d * 2 ^ 8 + imm * 2 ^ 14) / 2 ^ 14 = imm := by omega
  rw [decodeNat_of_length4 (by omega) (by omega), decode32_lui (by omega), fd, fi]
  simp [req, Instr.wf, sReg, hd]

/-- SEL decodes from format S3 of major 0x02, its condition in the f field. -/
theorem decodeNat_sel {d a b c : Nat} (hd : d < 64) (ha : a < 64) (hb : b < 64) (hc : c < 64) :
    decodeNat (encS3 0x02 c b a d) = some (.sel d c a b) := by
  have fd : encS3 0x02 c b a d / 2 ^ 8 % 64 = d := by unfold encS3; omega
  have fa : encS3 0x02 c b a d / 2 ^ 14 % 64 = a := by unfold encS3; omega
  have fb : encS3 0x02 c b a d / 2 ^ 20 % 64 = b := by unfold encS3; omega
  have fc : encS3 0x02 c b a d / 2 ^ 26 % 64 = c := by unfold encS3; omega
  have hmajor : encS3 0x02 c b a d / 4 % 64 = 0x02 := by unfold encS3; omega
  rw [decodeNat_of_length4 (by unfold encS3; omega) (by unfold encS3; omega), decode32_sel hmajor, fd, fa, fb, fc]
  simp [req, Instr.wf, sReg, hd, ha, hb, hc]

/-- The function of VRECONV with the reserved fields d and a is an instruction only where both are zero. -/
theorem decodeNat_vreconv {d a : Nat} (hd : d < 64) (ha : a < 64) :
    decodeNat (encSI 0x3E 7 a d) = if a = 0 ∧ d = 0 then some .vreconv else none := by
  have fd : encSI 0x3E 7 a d / 2 ^ 8 % 64 = d := by unfold encSI; omega
  have fa : encSI 0x3E 7 a d / 2 ^ 14 % 64 = a := by unfold encSI; omega
  have ff : encSI 0x3E 7 a d / 2 ^ 20 % 4096 = 7 := by unfold encSI; omega
  have hmajor : encSI 0x3E 7 a d / 4 % 64 = 0x3E := by unfold encSI; omega
  rw [decodeNat_of_length4 (by unfold encSI; omega) (by unfold encSI; omega), decode32_sys hmajor, fd, fa, ff]
  simp [decodeSys, req, Instr.wf]

end Sys2Proof

namespace Sys2Proof.Machine

/-! ### The frame of a scalar instruction that does not run to its effect (R305, R348, R352) -/

/-- A class that the issuing context does not allow is ILLEGAL. -/
theorem guard_not_allowed {s : State} {c : Class} {named : List Nat} {uses : List (List Nat)} (f : State → State)
    (h : c.allows s.cur.2 = false) : s.guard c named uses f = s.illegal := by
  simp [State.guard, h]

/-- A poisoned operand among the uses counts. -/
theorem poisonedUses_ne_zero {k : Ctx} {uses : List (List Nat)} {u : List Nat} (hu : u ∈ uses) (hp : k.psnAny u = true) :
    k.poisonedUses uses ≠ 0 := by
  have hmem : u ∈ uses.eraseDups.filter k.psnAny := List.mem_filter.mpr ⟨List.mem_eraseDups.mpr hu, hp⟩
  exact List.length_pos_of_mem hmem |>.ne'

/-- Under STRICT an instruction that could run, but uses poison, takes POISON_USE in place of its effect. -/
theorem guard_poisoned {s : State} {c : Class} {named : List Nat} {uses : List (List Nat)} {u : List Nat} (f : State → State)
    (h : s.fits c named []) (hu : u ∈ uses) (hp : s.me.psnAny u = true) (hstrict : s.lenient s.me.lidx = false) :
    s.guard c named uses f = s.poisonUse := by
  obtain ⟨hclass, hnamed, hfree, -⟩ := h
  simp [State.guard, State.useThen, hclass, hnamed, hfree, poisonedUses_ne_zero hu hp, hstrict]

/-- POISON_USE is a trap at the PC. -/
theorem poisonUse_trapped (s : State) : s.trapped s.poisonUse causePoison 0 0 s.me.regs.pc.toNat :=
  raise_trapped (s.stick s.me.lidx) causePoison 0 0 s.me.regs.pc.toNat

/-- POISON_USE sets the sticky poison flag of the issuing context's launch. -/
theorem poisonUse_sticky (s : State) : (s.poisonUse.launch s.me.lidx).sticky = true := by
  have hlaunch : s.poisonUse.launch s.me.lidx = (s.stick s.me.lidx).launch s.me.lidx := rfl
  rw [hlaunch, State.stick, launch_updLaunch_same]

/-! ### The meanings of LUI, SEL and VRECONV -/

theorem exec_lui (d : Nat) (imm : BitVec 18) (s : State) : exec (.lui d imm) s = .next (s.op1 4 d (imm ++ 0#14)) := rfl

theorem exec_sel (d c a b : Nat) (s : State) : exec (.sel d c a b) s =
    .next (s.scalar .A 4 (sr d ++ sr c ++ sr a ++ sr b) [sr c] fun k =>
      k.wrP d (k.raw (if k.rd c = 0#32 then b else a)) (k.psnAny (sr (if k.rd c = 0#32 then b else a)))) := rfl

theorem exec_vreconv (s : State) : exec .vreconv s =
    .next (s.scalar .W 4 [] [] fun k =>
      { k with regs := { k.regs with dstack := (reconverge k.regs.pc k.regs.dstack k.regs.exec).1
                                     exec := (reconverge k.regs.pc k.regs.dstack k.regs.exec).2 } }) := rfl

/-- Reconvergence at an address pops the entries on top that bear it, as many as there are, and restores their lanes. -/
theorem reconverge_eq_drop_take (pc : BitVec 48) (stack : List (BitVec 48 × Word)) (lanes : Word) :
    ∃ n, n ≤ stack.length ∧ (∀ e ∈ stack.take n, e.1 = pc) ∧ (∀ e, stack[n]? = some e → e.1 ≠ pc) ∧
      reconverge pc stack lanes = (stack.drop n, (stack.take n).foldl (fun w e => w ||| e.2) lanes) := by
  induction stack generalizing lanes with
  | nil => exact ⟨0, by simp [reconverge]⟩
  | cons top rest ih =>
    by_cases htop : top.1 = pc
    · obtain ⟨n, hle, hpopped, hstays, heq⟩ := ih (lanes ||| top.2)
      exact ⟨n + 1, by simpa using hle, by simpa [htop] using hpopped, by simpa using hstays, by
        simp [reconverge, htop, heq]⟩
    · exact ⟨0, by simp [reconverge, htop]⟩

/-- VRECONV in a path thread is ILLEGAL. -/
theorem exec_vreconv_path {s : State} (h : isPath s.cur.2 = true) : exec .vreconv s = .next s.illegal := by
  rw [exec_vreconv, State.scalar, guard_not_allowed _ (by simp [Class.allows, h])]

/-- SEL with a condition free of poison writes the chosen operand with that operand's poison. -/
theorem sel_gives {s : State} {d c a b : Nat} (h : s.fits .A (sr d ++ sr c ++ sr a ++ sr b) [sr c]) :
    s.gives (.sel d c a b) 4 fun k =>
      if s.me.raw c ≠ 0 then k.wrP d (s.me.raw a) (s.me.psnAny (sr a)) else k.wrP d (s.me.raw b) (s.me.psnAny (sr b)) := by
  have hc : s.me.rd c = s.me.raw c := rd_raw (h.2.2.2 (sr c) (by simp))
  rw [State.gives, exec_sel, scalar_fits _ h]
  refine congrArg _ (done_congr ?_)
  by_cases hz : s.me.raw c = 0#32 <;> simp [hc, hz]

/-- SEL with a poisoned condition takes POISON_USE under STRICT. -/
theorem exec_sel_poisoned {s : State} {d c a b : Nat} (h : s.fits .A (sr d ++ sr c ++ sr a ++ sr b) [])
    (hp : s.me.psnAny (sr c) = true) (hstrict : s.lenient s.me.lidx = false) :
    exec (.sel d c a b) s = .next s.poisonUse := by
  rw [exec_sel, State.scalar, guard_poisoned _ h (List.mem_singleton_self _) hp hstrict]

/-! ### The statements -/

/-- Settles O12: the fields of the word are read back, and LUI is an operation without a source. -/
theorem upperImmediate : Obligations.UpperImmediate := by
  refine ⟨fun d imm hd hi => decodeNat_lui hd hi, fun s d imm h => ?_⟩
  rw [State.writes, State.gives, exec_lui, State.op1, scalar_fits _ h]

/-- Settles O13: the word is format S3, and a SEL either has its effect or, its condition poisoned, takes POISON_USE. -/
theorem selectOperation : Obligations.SelectOperation := by
  refine ⟨fun d a b c hd ha hb hc => decodeNat_sel hd ha hb hc, fun s d c a b => ⟨sel_gives, fun h hp hstrict => ?_⟩⟩
  obtain ⟨hstatus, hcause, -, -, hregs, hmem, -⟩ := poisonUse_trapped s
  exact ⟨_, exec_sel_poisoned h hp hstrict, hstatus, hcause, hregs, hmem, poisonUse_sticky s⟩

/-- Settles O18: the pops by induction on the divergence stack, and the class W refused in a path thread. -/
theorem reconvergence : Obligations.Reconvergence := by
  refine ⟨decodeNat_vreconv (d := 0) (a := 0) (by omega) (by omega), fun d a hd ha h => ?_, fun s h => ?_, fun s h => ?_⟩
  · have hword : 0x007000F9 + d * 2 ^ 8 + a * 2 ^ 14 = encSI 0x3E 7 a d := by unfold encSI; omega
    rw [hword, decodeNat_vreconv hd ha] at h
    split at h
    next hz => exact hz.symm
    next => cases h
  · obtain ⟨n, hle, hpopped, hstays, heq⟩ := reconverge_eq_drop_take s.me.regs.pc s.me.regs.dstack s.me.regs.exec
    refine ⟨n, hle, hpopped, hstays, ?_⟩
    rw [State.gives, exec_vreconv, scalar_fits _ h]
    exact congrArg _ (done_congr (by simp only [heq]))
  · exact ⟨_, exec_vreconv_path h, raise_trapped ..⟩

end Sys2Proof.Machine
